-- ==== Sys2Proof/Word.lean ====
section
/-! DEFINITION. The words of the HN20's two interfaces: bytes, the 16-bit flag words of ACK and MASK, and a packed decimal
field as the bytes that carry it. -/

namespace Sys2Proof

/-- One byte of a frame or of a line message. -/
abbrev Byte := BitVec 8

/-- A flag word in the layout of status word bytes 2 and 3 (chapter 10, R200, R201). -/
abbrev Word16 := BitVec 16

/-- A packed decimal field as it arrives: its bytes, first byte first (section 4.2). A field of the wrong length is malformed. -/
abbrev Field := List Byte

end Sys2Proof
end

