-- ==== Sys2Proof/Syntax.lean ====
section
/-! DEFINITION. The commands of the HN20: one constructor of `Instr` for each row of spec/opcode_table.json, in the table's order,
with the operands the spec's chapters give the step. Quantities of R1 come as packed decimal fields (`Field`), other fields as
numbers. Every station port command carries first `ok`, whether the frame's argument length is one the command allows (R198), as
Machine/PortFrames.lean reads it from the frame's bytes; `batchOpen` carries none for a kind that is neither ISSUE nor RETURN. -/

namespace Sys2Proof

/-- The four roles (00 section 1). -/
inductive Role where | scale | clock | ice | gate
  deriving DecidableEq, Repr, Inhabited

/-- One field of a CONFIGURE (R204). Enumerations and small numbers travel in binary, quantities of R1 as packed decimals. -/
inductive ConfigItem where
  | nodeNumber (n : Nat)
  | role (code : Nat)
  | ring (n : Nat)
  | levyRate (f : Field)
  | boatFloor (f : Field)
  | iceTariff (f : Field)
  | gramsPerPulse (f : Field)
  | crateTable (rows : List (Field × Field))
  | lineRate (n : Nat)
  deriving DecidableEq, Repr

/-- Source, destination and sequence of a received line message (section 4.1). -/
structure Hdr where
  src : Nat
  dst : Nat
  seq : Nat
  deriving DecidableEq, Repr

/-- The six posting kinds (R25). `ret` is RETURN. -/
inductive PostKind where | sale | draw | settle | issue | ret | transfer
  deriving DecidableEq, Repr, Inhabited

/-- A crate item as received: crate type, count, deposit (R25). -/
structure RawItem where
  ctype : Nat
  count : Field
  deposit : Field
  deriving DecidableEq, Repr

/-- A carried hold as received (R25). -/
structure RawCarried where
  node : Nat
  epoch : Nat
  number : Nat
  remaining : Field
  life : Nat
  deriving DecidableEq, Repr

/-- The transfer part of a TRANSFER as received (R25). -/
structure RawTransfer where
  balance : Field
  floor : Field
  saturated : Bool
  overdrawn : Bool
  unmatched : Field
  counts : List Field
  holds : List RawCarried
  deriving DecidableEq, Repr

/-- The posting of a POST request as received (R25). A part that the message lacks is none, and so is a kind that is none of the six. -/
structure RawPost where
  origin : Nat
  epoch : Nat
  number : Nat
  kind : Option PostKind
  account : Field
  amount : Field
  items : Option (List RawItem)
  holdKey : Option (Nat × Nat)
  transfer : Option RawTransfer
  deriving DecidableEq, Repr

/-- A HOLD request as received: its key is (source node, epoch, number) (R42). -/
structure RawHold where
  epoch : Nat
  number : Nat
  account : Field
  amount : Field
  acceptLess : Bool
  life : Nat
  deriving DecidableEq, Repr

/-- A RELEASE request as received (R43); the key's origin is the source node. -/
structure RawRelease where
  epoch : Nat
  number : Nat
  account : Field
  deriving DecidableEq, Repr

/-- The description of a lot as received in a LOT notice or in a GRANTED answer (R132, R134). -/
structure RawLot where
  scale : Nat
  number : Nat
  boat : Field
  boatHome : Nat
  species : Nat
  grade : Nat
  net : Field
  ctype : Nat
  count : Field
  ring : Nat
  unsold : Nat
  deriving DecidableEq, Repr

/-- The request kinds, by their REQUEST kind codes 1 to 6 (section 4.1). -/
inductive ReqKind where | hold | release | post | locate | claim | lotReport
  deriving DecidableEq, Repr, Inhabited

/-- The subject of an ANSWER as received (R97). -/
inductive RawSubject where
  | account (f : Field)
  | lot (scale number : Nat)
  deriving DecidableEq, Repr

/-- The data of an ANSWER as received (R97). -/
inductive RawData where
  | none
  | amount (f : Field)
  | counts (cs : List (Nat × Field))
  | dropped (n : Nat)
  | newHome (n : Nat)
  | wait (tens : Nat)
  | lot (d : RawLot)
  | holder (n : Nat)
  deriving DecidableEq, Repr

/-- The body of a received ANSWER: answered kind, none for a code that is no REQUEST kind code, subject, code in binary (R98), data. -/
structure RawAnswer where
  kind : Option ReqKind
  subject : RawSubject
  code : Nat
  data : RawData
  deriving DecidableEq, Repr

/-- What the check symbols of one part of a slot make of it (R51): they correct one bad byte of it and detect two. -/
inductive PartRead where
  | clean
  | corrected
  | uncorrectable
  deriving DecidableEq, Repr, Inhabited

/-- What the start-up scan's read of one slot meets in its two parts (R51, R65). -/
structure Decay where
  header : PartRead := .clean
  body : PartRead := .clean
  deriving DecidableEq, Repr, Inhabited

/-- Selections of the read commands (R203). `other` is a selection byte that the command's row of the table does not have. -/
inductive LotSel where | number (n : Nat) | event | other
  deriving DecidableEq, Repr
inductive QueueSel where | clock | event | other
  deriving DecidableEq, Repr
inductive SaleSel where | number (n : Nat) | event | other
  deriving DecidableEq, Repr
inductive OutSel where | entry (seq : Nat) | capture | other
  deriving DecidableEq, Repr
inductive ReadingSel where | live | result | late | other
  deriving DecidableEq, Repr
inductive CounterSel where | line | exchange | book | store | role | port | configuration | other
  deriving DecidableEq, Repr
/-- The collections of READ LIST (R203); `other` names none of them. -/
inductive Collection where
  | accounts | holds | lots | claims | sales | desks | outbound | homeMap | peers | blocked | tags | other
  deriving DecidableEq, Repr

/-- The two kinds of a gate batch (R184). -/
inductive BatchKind where | issue | ret
  deriving DecidableEq, Repr, Inhabited

/-- A frame of the station port as it was clocked (R196, R197): the whole bytes that moved in on PDI, as many having moved out on PDO;
the bits of a byte begun after them; and whether PSEL had been low for 100 ms. -/
structure RawFrame where
  pdi : List Byte
  oddBits : Nat := 0
  late : Bool := false
  deriving DecidableEq, Repr

/-- A transmission as the LIF hears it (sections 4.1, 4.3): the arbitration code, the bytes of the message up to its last check byte or to
where the line fell idle, and whether a stop bit among them read dominant. -/
structure RawLine where
  arbitration : Byte
  bytes : List Byte
  stopBad : Bool := false
  deriving DecidableEq, Repr

/-- The commands. -/
inductive Instr where
  | powerOn
  | resetnLow
  | resetnRelease
  | startupScanEnd (decay : List (Nat × Decay)) (badPages : List Nat) (idBad : Bool)
  | restart (ok : Bool)
  | eraseStore (ok : Bool)
  | nopStatus (ok : Bool)
  | ack (ok : Bool) (bits : Word16)
  | mask (ok : Bool) (bits : Word16)
  | lock (ok : Bool)
  | unlock (ok : Bool)
  | configure (ok : Bool) (items : List ConfigItem)
  | join (ok : Bool)
  | leave (ok : Bool)
  | leaveTransmissionDrained
  | readAccount (ok : Bool) (acct : Field)
  | readHold (ok : Bool) (node epoch number : Nat)
  | readLot (ok : Bool) (sel : LotSel)
  | readQueue (ok : Bool) (sel : QueueSel)
  | readSale (ok : Bool) (sel : SaleSel)
  | collectSale (ok : Bool) (n : Nat)
  | readOutbound (ok : Bool) (sel : OutSel)
  | readDamaged (ok : Bool)
  | readPeers (ok : Bool)
  | readReading (ok : Bool) (sel : ReadingSel)
  | readCounters (ok : Bool) (sel : CounterSel)
  | readList (ok : Bool) (coll : Collection) (pos : Nat)
  | openAccount (ok : Bool) (acct : Field) (limit : Option Field)
  | adjust (ok : Bool) (acct amount : Field)
  | remove (ok : Bool) (acct : Field)
  | clearFlags (ok : Bool) (acct : Field)
  | retry (ok : Bool) (seq : Nat)
  | discard (ok : Bool) (seq : Nat)
  | weigh (ok : Bool) (boat : Field) (species grade ctype : Nat) (count : Field) (ring : Nat)
  | zero (ok : Bool)
  | tare (ok : Bool) (grams : Field)
  | calZero (ok : Bool)
  | calSpan (ok : Bool) (grams : Field)
  | calWrite (ok : Bool) (division capacity : Field)
  | releaseLot (ok : Bool) (n : Nat)
  | reoffer (ok : Bool) (n : Nat)
  | delete (ok : Bool) (n : Nat)
  | showLot (ok : Bool)
  | start (ok : Bool) (startPrice floorPrice step : Field) (tick : Nat)
  | halt (ok : Bool)
  | resume (ok : Bool)
  | withdraw (ok : Bool)
  | deskIn (ok : Bool) (desk : Nat) (buyer amount : Field)
  | deskOut (ok : Bool) (desk : Nat)
  | order (ok : Bool) (boat kg : Field) (acceptLess : Bool)
  | stop (ok : Bool)
  | batchOpen (ok : Bool) (kind : Option BatchKind) (acct : Field)
  | batchClose (ok : Bool)
  | batchCancel (ok : Bool)
  | block (ok : Bool) (serial : Nat)
  | unblock (ok : Bool) (serial : Nat)
  | portUnknownCommand (code : Byte)
  | portFrameFault (f : RawFrame)
  | portFrameTimeout
  | lineGarbledMessage (w : RawLine)
  | joinMessage (h : Hdr) (role ring serial epoch : Nat)
  | clash (h : Hdr) (number joinSerial ownSerial : Nat)
  | present (h : Hdr) (role ring : Nat)
  | opened (h : Hdr) (acct : Field)
  | home (h : Hdr) (acct : Field)
  | answer (h : Hdr) (a : RawAnswer)
  | hold (h : Hdr) (r : RawHold)
  | release (h : Hdr) (r : RawRelease)
  | post (h : Hdr) (r : RawPost)
  | locate (h : Hdr) (acct : Field)
  | claim (h : Hdr) (scale number : Nat)
  | lotReport (h : Hdr) (scale number : Nat) (sold : Option Bool)
  | lot (h : Hdr) (d : RawLot)
  | lineQuietTime
  | contentionLoss
  | lineError
  | sendComplete
  | sendQueuePlaceWaiting
  | listenIdleWindow
  | listenTimeout
  | clashWindowEnd
  | presentTimer
  | peerAgeExpiry (node : Nat)
  | excFreePlaceRetry
  | excSend
  | excAnswerTimeout (seq : Nat)
  | excDeferWaitEnd (seq : Nat)
  | locateWindowEnd (seq : Nat)
  | locateSearchDeferEnd (seq : Nat)
  | localOpeningRetry (seq : Nat)
  | bookQueuePlaceWaiting
  | bookTakePost
  | bookTakeHold
  | bookTakeRelease
  | bookTakeLocate
  | bookTakeOpened
  | bookTakeHome
  | bookTakeLocalOpening
  | bookTakeOpen
  | bookTakeAdjust
  | bookTakeRemove
  | bookTakeClearFlags
  | holdLifetimeSecond (node epoch number : Nat)
  | bookYieldRetry (acct : Nat)
  | bookStateCommitRetry (acct : Nat)
  | storeListPlacePending
  | storeTakeRequest
  | storeWriteEnd (verified : Bool)
  | storeEraseEnd (verified : Bool)
  | storeCalPageEnd (verified : Bool)
  | storeBackgroundStart
  | sampleFrame (count : BitVec 24) (parity whole : Bool)
  | sampleLossTimeout
  | settlingLimit
  | offerTimer (lot : Nat)
  | lotQueueTakeClaim
  | lotQueueTakeLotreport
  | lotQueueTakeReleaseLot
  | lotQueueTakeReoffer
  | lotQueueTakeDelete
  | queueCommitRetry (scale number : Nat)
  | clockTick
  | lotEndRetry
  | deskScan (pressed : BitVec 32)
  | saleLogRetry
  | saleRequestRetry (sale : Nat)
  | saleUpdateRetry (sale : Nat)
  | lotreportReissue (sale : Nat)
  | augerPulse (lowMs : Nat)
  | emergencyStop
  | stallTimer
  | coastingEnd
  | icmSettleRetry
  | tagRead (bytes : List Byte)
  | poolUpdateRetry
  | cgtPostingRetry
  | powerLoss
  | estopnReturnHigh
  deriving DecidableEq, Repr

end Sys2Proof
end

