-- ==== Sys2Proof/Machine/Types.lean ====
section
/-! DEFINITION. The records, tables and states of the HN20's blocks, as plain data, in the order of the spec's chapters.
A timer is `Timer`: none when stopped, `some n` when n ms are left, `some 0` when it has run out and its event is due. -/

namespace Sys2Proof.Machine
open Sys2Proof

/-- A running timer's milliseconds left; none when stopped; `some 0` when due (chapters 4 to 9, log entry 2). -/
abbrev Timer := Option Nat

/-! ### Identities, accounts, holds, postings (chapter 2) -/

/-- A posting identity or a hold key: origin node, epoch, number (R25, R41). -/
structure Ident where
  node : Nat
  epoch : Nat
  number : Nat
  deriving DecidableEq, Repr, Inhabited

/-- An origin watermark: the epoch and number of the greatest identity applied from one origin; zero is (0, 0) (R26). -/
structure Mark where
  epoch : Nat
  number : Nat
  deriving DecidableEq, Repr, Inhabited

/-- The account states of R20; a MOVED stub names the new home. -/
inductive AcctState where
  | opened
  | yielding
  | moved (home : Nat)
  deriving DecidableEq, Repr, Inhabited

/-- The account kinds of R20. -/
inductive AcctKind where | boat | buyer
  deriving DecidableEq, Repr, Inhabited

/-- The account record (R20). The kind follows from the number (`Account.kind`). `crates` has one count for each crate type 1 to 8. -/
structure Account where
  number : Nat
  state : AcctState
  balance : Int
  floor : Int
  crates : List Nat
  unmatched : Nat
  saturated : Bool
  overdrawn : Bool
  last : Option Ident
  writes : Nat
  deriving DecidableEq, Repr, Inhabited

/-- A hold of the hold table (R41); `ms` counts the milliseconds of its running second (R44). -/
structure Hold where
  key : Ident
  account : Nat
  granted : Nat
  remaining : Nat
  life : Nat
  ms : Nat
  deriving DecidableEq, Repr, Inhabited

/-- A hold carried by a TRANSFER (R25). -/
structure CarriedHold where
  key : Ident
  remaining : Nat
  life : Nat
  deriving DecidableEq, Repr, Inhabited

/-- A crate item: type 1 to 8, count, deposit in cents (R25). -/
structure CrateItem where
  ctype : Nat
  count : Nat
  deposit : Nat
  deriving DecidableEq, Repr, Inhabited

/-- The transfer part of a TRANSFER (R25, R46). -/
structure TransferPart where
  balance : Int
  floor : Int
  saturated : Bool
  overdrawn : Bool
  unmatched : Nat
  counts : List Nat
  holds : List CarriedHold
  deriving DecidableEq, Repr, Inhabited

/-- A posting (R25). -/
structure Posting where
  id : Ident
  kind : PostKind
  account : Nat
  amount : Nat
  items : List CrateItem
  holdKey : Option (Nat × Nat)
  transfer : Option TransferPart
  deriving DecidableEq, Repr, Inhabited

/-- A lot identity: scale node and lot number (R131). -/
structure LotId where
  scale : Nat
  number : Nat
  deriving DecidableEq, Repr, Inhabited

/-- The description of a lot, as its LOT notice and its GRANTED answer carry it (R132, R134, R142). -/
structure LotDesc where
  id : LotId
  boat : Nat
  boatHome : Nat
  species : Nat
  grade : Nat
  net : Nat
  ctype : Nat
  count : Nat
  ring : Nat
  unsold : Nat
  deriving DecidableEq, Repr, Inhabited

/-! ### Line messages (chapters 4 and 5) -/

/-- Message classes, lowest first (section 4.1). -/
inductive MsgClass where | urgent | answer | request | notice
  deriving DecidableEq, Repr, Inhabited

/-- The answer codes of R98, values 1 to 13 in this order. -/
inductive AnsCode where
  | done | doneAlready | lapsed | clamped | granted | grantedLess | refusedFunds | refusedNoRoom | taken | unknown
  | defer | moved | malformed
  deriving DecidableEq, Repr, Inhabited

/-- The data of an answer (R97, R134). `wait` counts tens of milliseconds. -/
inductive AnsData where
  | none
  | amount (n : Nat)
  | counts (cs : List (Nat × Nat))
  | dropped (n : Nat)
  | newHome (n : Nat)
  | wait (tens : Nat)
  | lot (d : LotDesc)
  | holder (n : Nat)
  deriving DecidableEq, Repr, Inhabited

/-- The subject of an answer (R97). -/
inductive Subject where
  | account (n : Nat)
  | lot (id : LotId)
  deriving DecidableEq, Repr, Inhabited

/-- The blocks that place messages (R76). -/
inductive Block where | lif | exc | book | wgu
  deriving DecidableEq, Repr, Inhabited

/-- The body of a request of the EXC, as it is sent (R89). The identity of a POST stands in its posting. -/
inductive ReqBody where
  | locate
  | hold (key : Ident) (amount : Nat) (acceptLess : Bool) (life : Nat)
  | release (key : Ident)
  | post (p : Posting)
  | claim (lot : LotId)
  | lotReport (lot : LotId) (sold : Bool)
  deriving DecidableEq, Repr, Inhabited

/-- The body of a line message this node sends (section 4.1 and the owners' chapters). -/
inductive MsgBody where
  | join (role : Option Role) (ring serial epoch : Nat)
  | present (role : Option Role) (ring : Nat)
  | clash (number joinSerial ownSerial : Nat)
  | opened (acct : Nat)
  | home (acct : Nat)
  | answer (kind : ReqKind) (subject : Subject) (code : AnsCode) (data : AnsData)
  | request (acct : Option Nat) (body : ReqBody)
  | lot (d : LotDesc)
  deriving DecidableEq, Repr, Inhabited

/-- A message of the send queue or of the answer reserve (R76, R77): its class, destination, sequence and body, its send
attempts, the block that placed it, the send token of an EXC message, and the stamp of its placing. -/
structure Msg where
  cls : MsgClass
  dst : Nat
  seq : Nat
  body : MsgBody
  block : Block
  attempts : Nat
  tok : Nat
  stamp : Nat
  deriving DecidableEq, Repr, Inhabited

/-- What ends when a waiting message is placed or refused: nothing, the book's entry in hand, or the scale's (R23, R133). -/
inductive Ends where | nothing | bookHand | lotHand
  deriving DecidableEq, Repr, Inhabited

/-- A message that waits in its block for a place in the send queue (R76). -/
structure Waiting where
  msg : Msg
  ends : Ends
  deriving DecidableEq, Repr, Inhabited

/-- A transmission in progress: the stamp of its message, and the bytes that go out on LTX, arbitration code first (section 4.1). -/
structure Transmission where
  stamp : Nat
  bytes : List Byte
  deriving DecidableEq, Repr, Inhabited

/-- The line states (section 4.5). -/
inductive LineState where | offline | listen | announce | active | conflict | lineFault
  deriving DecidableEq, Repr, Inhabited

/-- The last join outcome (R88). -/
inductive JoinOutcome where | none | active | conflict | lineFault | left | storeFull | storeFault
  deriving DecidableEq, Repr, Inhabited

/-- A peer entry (R84): role, none while UNKNOWN; ring; milliseconds since the node was last heard. -/
structure Peer where
  node : Nat
  role : Option Role
  ring : Nat
  age : Nat
  deriving DecidableEq, Repr, Inhabited

/-- The line counters (R88). -/
structure LifCounters where
  sent : Nat := 0
  received : Nat := 0
  checkErrors : Nat := 0
  formatErrors : Nat := 0
  malformed : Nat := 0
  notAddressed : Nat := 0
  notForRole : Nat := 0
  notRouted : Nat := 0
  contentionLosses : Nat := 0
  lineErrors : Nat := 0
  consecErrors : Nat := 0
  dropped : Nat := 0
  deferrals : Nat := 0
  reserveOverflows : Nat := 0
  peersRemoved : Nat := 0
  deriving DecidableEq, Repr, Inhabited

/-- The Line Interface (chapter 4). `queue` is in class order, then in the order of placing (R76); `tx` is the
transmission in progress; `presentT` counts up (R80). -/
structure Lif where
  state : LineState := .offline
  queue : List Msg := []
  reserve : List Msg := []
  wait : List Waiting := []
  tx : Option Transmission := none
  stamp : Nat := 0
  listenT : Timer := none
  clashT : Timer := none
  presentT : Option Nat := none
  leaving : Bool := false
  numbering : Bool := false
  peers : List Peer := []
  serial : Nat := 0
  lastJoin : JoinOutcome := .none
  rate : Option Nat := none
  cnt : LifCounters := {}
  deriving DecidableEq, Repr, Inhabited

/-! ### Port codes and answers (chapter 10) -/

/-- The answer and refusal codes of station port commands. NONE, DONE, ACCEPTED, STAGED have the values 0 to 3; the others follow
in the alphabetical order of their names (section 10.1). -/
inductive PCode where
  | none | done | accepted | staged
  | badValue | batchEmpty | bookFull | busy | calExhausted | defer | deskNotOut | eStop | epochExhausted | homeHere
  | identityFault | listFull | locked | logFull | lotsFull | moved | noAccount | noDraft | noDraftZero | noLot | noReading
  | noSale | notActive | notCalibrated | notClaimed | notConfigured | notEmpty | notFailed | notHalted | notIdle | notListed
  | notOffline | notOpen | notPresented | notRunning | notWithdrawn | numberFixed | queueEmpty | roleFixed | spanTooSmall
  | storeFault | storeFull | unknownCommand | unstable | wrongRole | zeroRange
  deriving DecidableEq, Repr, Inhabited

/-! ### The Exchange Controller (chapter 5) -/

/-- The parts of a sale (R158). -/
inductive SalePart where | draw | sale | report
  deriving DecidableEq, Repr, Inhabited

/-- The reference of a request: the issuing unit's own number for the work (R89). It names the unit and the purpose. -/
inductive Ref where
  | weighLocate
  | orderLocate
  | batchLocate (epoch number : Nat)
  | deskHold (desk : Nat)
  | orderHold
  | cluRelease
  | icmRelease
  | claim (lot : LotId)
  | unsold (lot : LotId)
  | salePosts (sale : Nat)
  | saleEndReport (sale : Nat)
  | saleReissue (sale : Nat)
  | salePart (sale : Nat) (part : SalePart)
  | settle (key : Ident)
  | batchPost (epoch number : Nat)
  | transfer (acct : Nat)
  deriving DecidableEq, Repr, Inhabited

/-- One entry asked for in a creation request (R91). -/
structure NewEntry where
  body : ReqBody
  ref : Ref
  account : Option Nat
  dest : Option Nat
  openIfNone : Bool
  deriving DecidableEq, Repr, Inhabited

/-- A creation request of 1 to 3 entries, taken whole or not at all (R91). -/
structure CreateReq where
  ref : Ref
  items : List NewEntry
  deriving DecidableEq, Repr, Inhabited

/-- The entry states of R90. -/
inductive EntryState where | unresolved | queued | sent | deferred | doneToUnit | failed
  deriving DecidableEq, Repr, Inhabited

/-- The search of an UNRESOLVED entry (R103, R104, R106). -/
inductive Search where
  /-- LOCATE placed for window 1 or 2, not yet reported SENT; the HOMEs collected and the longest DEFER so far -/
  | placing (second : Bool) (homes : List Nat) (deferTens : Option Nat)
  /-- a collection window is open -/
  | window (second : Bool) (homes : List Nat) (deferTens : Option Nat) (left : Nat)
  /-- the search is deferred -/
  | waiting (homes : List Nat) (left : Nat)
  /-- waits on the search of another entry -/
  | onOther
  /-- a local opening is asked of the book -/
  | opening
  /-- a local opening answered DEFER is waited out -/
  | openWait (left : Nat)
  deriving DecidableEq, Repr, Inhabited

/-- The last answer of an entry: a code, or NONE after the fourth unanswered send (R89, R96). -/
inductive LastAns where
  | code (c : AnsCode)
  | noAnswer
  deriving DecidableEq, Repr, Inhabited

/-- An outbound entry (R89). `fromMap`: the destination was taken from the home map (R108). `committing`: a re-identification
is under commit (R110). `reident`: the new home of a re-identification that failed. `removing`: the removal of the OUTBOUND
record is placed (R102). `tok` is the token of the entry's last send on the line, 0 when that send no longer counts. -/
structure Entry where
  seq : Nat
  body : ReqBody
  ref : Ref
  account : Option Nat
  dest : Option Nat
  openIfNone : Bool
  sends : Nat
  deferrals : Nat
  moves : Nat
  deadline : Timer
  last : Option LastAns
  state : EntryState
  search : Option Search
  fromMap : Bool
  committing : Bool
  reident : Option Nat
  removing : Bool
  replaced : Option Ident
  tok : Nat
  deriving DecidableEq, Repr, Inhabited

/-- An OUTBOUND record (R93). -/
structure OutRec where
  posting : Posting
  ref : Ref
  dest : Nat
  replaced : Option Ident
  deriving DecidableEq, Repr, Inhabited

/-- A piece of EXC work that needs a commit: a creation request, or the re-identification of an entry (R93, R110). -/
inductive ExcJob where
  | create (r : CreateReq)
  | reident (seq : Nat)
  deriving DecidableEq, Repr, Inhabited

/-- Why a creation request is refused, NO ROOM apart (R91 to R93). -/
inductive AskRefusal where | epochExhausted | storeFull | storeFault | badDestination
  deriving DecidableEq, Repr, Inhabited

/-- An outcome as the EXC hands it to the issuing unit (R100 to R102, R106): a final answer with its data and the node that gave
it, FAILED with the last answer, the home found by a LOCATE, UNKNOWN from a search, the code of a local opening, or DISCARDED. -/
inductive ExcOut where
  | answer (c : AnsCode) (d : AnsData) (node : Nat)
  | failed (last : LastAns)
  | home (n : Nat)
  | noHome
  | opening (c : PCode)
  | discarded
  deriving DecidableEq, Repr

/-- The EXC's commit in flight: an epoch advance before a job (R92), a creation with its numbered postings, or a re-identification
with its fresh identity. -/
inductive ExcWork where
  | advance (j : ExcJob)
  | create (r : CreateReq) (posts : List Posting)
  | reident (seq : Nat) (id : Ident)
  deriving DecidableEq, Repr, Inhabited

/-- The failure capture (R100). -/
structure Capture where
  seq : Nat
  kind : PostKind
  account : Nat
  dest : Nat
  id : Ident
  last : LastAns
  deriving DecidableEq, Repr, Inhabited

/-- The exchange counters (R113). -/
structure ExcCounters where
  sends : Nat := 0
  timeouts : Nat := 0
  unmatched : Nat := 0
  defers : Nat := 0
  failed : Nat := 0
  moved : Nat := 0
  reidents : Nat := 0
  searches : Nat := 0
  noHome : Nat := 0
  replacements : Nat := 0
  deriving DecidableEq, Repr, Inhabited

/-- The Exchange Controller (chapter 5). `free`: the free places, longest free first (R89). `asks`: requests refused NO ROOM, in
the order in which they became pending (R91). `ready`: sequences that may be sent, in the order in which they became ready
(R95). `homeMap`: most recently used first (R107). -/
structure Exc where
  entries : List Entry := []
  free : List Nat := []
  work : Option ExcWork := none
  jobs : List ExcJob := []
  asks : List CreateReq := []
  ready : List Nat := []
  holdNo : Nat := 1
  homeMap : List (Nat × Nat) := []
  capture : Option Capture := none
  tok : Nat := 1
  cnt : ExcCounters := {}
  deriving DecidableEq, Repr, Inhabited

/-! ### The Account Book (chapter 2) -/

/-- A request's fields once checked: the typed value, or malformed with the account bytes as they came (R2). -/
inductive Parsed (α : Type) where
  | ok (a : α)
  | bad (acct : Field)
  deriving DecidableEq, Repr

/-- The fields of a HOLD (R42). -/
structure HoldReq where
  key : Ident
  account : Nat
  amount : Nat
  acceptLess : Bool
  life : Nat
  deriving DecidableEq, Repr, Inhabited

/-- The fields of a RELEASE (R43). -/
structure ReleaseReq where
  key : Ident
  account : Nat
  deriving DecidableEq, Repr, Inhabited

/-- Where an entry of the book's queue comes from (R22): the line, with source node and sequence; the own EXC, with the entry's
sequence; the station port or nobody. -/
inductive Src where
  | line (node seq : Nat)
  | own (seq : Nat)
  | port
  deriving DecidableEq, Repr, Inhabited

/-- What an entry of the incoming request queue asks (R22). -/
inductive BookAsk where
  | post (p : Parsed Posting)
  | hold (h : Parsed HoldReq)
  | release (r : Parsed ReleaseReq)
  | locate (a : Parsed Nat)
  | opened (node : Nat) (a : Parsed Nat)
  | home (node : Nat) (a : Parsed Nat)
  | localOpen (seq acct : Nat)
  | cmdOpen (acct limit : Nat)
  | cmdAdjust (acct : Nat) (amount : Int)
  | cmdRemove (acct : Nat)
  | cmdClear (acct : Nat)
  deriving DecidableEq, Repr

structure BookReq where
  src : Src
  ask : BookAsk
  deriving DecidableEq, Repr

/-- The stages of a yield (R46, R47): the TRANSFER is asked for; the asking or the return to OPEN waits 1,000 ms; the exchange
runs; the record returns to OPEN because the epoch is exhausted; the outcome's commit runs or waits. `fin` is the state the
outcome gives. -/
inductive YieldStage where
  | asking
  | askWait (left : Nat)
  | running
  | reopening
  | reopenWait (left : Nat)
  | finishing (fin : AcctState) (notify : Bool)
  | finishWait (fin : AcctState) (notify : Bool) (left : Nat)
  deriving DecidableEq, Repr, Inhabited

structure Yield where
  acct : Nat
  target : Nat
  stage : YieldStage
  deriving DecidableEq, Repr, Inhabited

/-- The book counters (R50). -/
structure BookCounters where
  duplicates : Nat := 0
  lapsedAnswers : Nat := 0
  lapsedHolds : Nat := 0
  droppedHolds : Nat := 0
  droppedNotices : Nat := 0
  storeRefusals : Nat := 0
  deriving DecidableEq, Repr, Inhabited

/-! ### Book commands (chapter 2) -/

/-- The four book commands of the station port (R36). -/
inductive BookCmd where | openCmd | adjust | remove | clearFlags
  deriving DecidableEq, Repr, Inhabited

/-- The book command result (R36). -/
structure BookResult where
  cmd : BookCmd
  acct : Nat
  code : PCode
  deriving DecidableEq, Repr, Inhabited

/-- The Account Book (chapter 2). `hand` is the entry in hand (R23); `openedWait` the accounts whose OPENED waits for the line
(R49). -/
structure Book where
  accounts : List Account := []
  holds : List Hold := []
  marks : List Mark := []
  queue : List BookReq := []
  wait : List BookReq := []
  hand : Option BookReq := none
  result : Option BookResult := none
  yields : List Yield := []
  openedWait : List Nat := []
  cnt : BookCounters := {}
  deriving DecidableEq, Repr

/-! ### Role records that the store keeps (chapters 6 to 8) -/

/-- Lot states (R131). -/
inductive LotState where
  | offered
  | claimed (clock : Nat)
  | withdrawn
  deriving DecidableEq, Repr, Inhabited

/-- A lot of the lot table (R131). `offer` counts milliseconds since the last LOT notice, none while it does not run. -/
structure Lot where
  number : Nat
  boat : Nat
  boatHome : Nat
  species : Nat
  grade : Nat
  ring : Nat
  net : Nat
  ctype : Nat
  count : Nat
  unsold : Nat
  state : LotState
  noRing : Bool
  offer : Option Nat
  deriving DecidableEq, Repr, Inhabited

/-- Part states (R158). -/
inductive PartState where | pending | done | failed | lapsed
  deriving DecidableEq, Repr, Inhabited

/-- A SALE record (R158). -/
structure SaleRec where
  number : Nat
  lot : LotId
  species : Nat
  grade : Nat
  boat : Nat
  boatHome : Nat
  buyer : Nat
  buyerHome : Nat
  desk : Nat
  key : Ident
  net : Nat
  price : Nat
  amount : Nat
  levy : Nat
  proceeds : Nat
  charge : Nat
  ctype : Nat
  count : Nat
  deposit : Nat
  drawPart : PartState
  salePart : PartState
  reportPart : PartState
  posted : Bool
  movedCrates : Option Nat
  collected : Bool
  deriving DecidableEq, Repr, Inhabited

/-- A change of a SALE record (R160 to R163). A DRAW or SALE part's outcome names the outbound entry whose unit waits to report
the outcome taken (R161). -/
inductive SaleChange where
  | posted
  | part (p : SalePart) (st : PartState) (moved : Option Nat) (report : Option Nat)
  | collected
  deriving DecidableEq, Repr, Inhabited

/-- Why the auger was switched off (R167). -/
inductive StopCause where | target | stopped | eStop | stalled
  deriving DecidableEq, Repr, Inhabited

/-- The order record (R167), also the content of the ICE ORDER record. `metered`: DISPENSING has been reached, from which on auger,
counted pulses and grams and checkpoint pulses are present; the counted grams are the pulses times `gpp` (`OrderRec.shown`). -/
structure OrderRec where
  account : Nat
  kg : Nat
  acceptLess : Bool
  tariff : Nat
  gpp : Nat
  holdAmount : Option Nat := none
  key : Option Ident := none
  home : Option Nat := none
  granted : Option Nat := none
  grantCode : Option AnsCode := none
  targetPulses : Option Nat := none
  targetGrams : Option Nat := none
  metered : Bool := false
  augerOn : Bool := false
  pulses : Nat := 0
  checkpoint : Nat := 0
  cause : Option StopCause := none
  settle : Option Nat := none
  deriving DecidableEq, Repr, Inhabited

/-- The calibration fields of a page (R120). -/
structure CalFields where
  zero : Int
  span : Int
  grams : Nat
  division : Nat
  capacity : Nat
  deriving DecidableEq, Repr, Inhabited

/-! ### The Book Store (chapter 3) -/

/-- The NODE record (R53). A next posting number of 65,536 says that the numbers of the epoch are used up (R92). -/
structure NodeRec where
  number : Nat := 0
  epoch : Nat := 0
  nextPosting : Nat := 1
  nextLot : Nat := 1
  nextSale : Nat := 1
  pool : List Nat := List.replicate 8 0
  deriving DecidableEq, Repr, Inhabited

/-- Record kind and key (R53). OUTBOUND is keyed by epoch and number. -/
inductive RecKey where
  | account (n : Nat)
  | origin
  | node
  | outbound (epoch number : Nat)
  | lot (n : Nat)
  | queue
  | sale (n : Nat)
  | iceOrder
  deriving DecidableEq, Repr, Inhabited

/-- The body of a record (R53). -/
inductive RecBody where
  | account (a : Account)
  | origin (ms : List Mark)
  | node (n : NodeRec)
  | outbound (o : OutRec)
  | lot (l : Lot)
  | queue (q : List LotDesc)
  | sale (r : SaleRec)
  | iceOrder (o : OrderRec)
  deriving DecidableEq, Repr, Inhabited

/-- One copy of a record in a slot (R51). -/
structure Copy where
  key : RecKey
  wc : Nat
  stamp : Nat
  body : RecBody
  deriving DecidableEq, Repr, Inhabited

/-- What a slot holds (R51, R65): the erased pattern; nothing readable (header uncorrectable); or a copy, with its body readable
or not, and whether its last read needed a correction. -/
inductive SlotData where
  | erased
  | torn
  | copy (c : Copy) (bodyOk : Bool) (corrected : Bool)
  deriving DecidableEq, Repr, Inhabited

/-- The slot map's states (R52). -/
inductive SlotState where | free | current | dirty | retired
  deriving DecidableEq, Repr, Inhabited

/-- A slot: its contents, its state in the slot map, and its entry of the retire map (R52). -/
structure Slot where
  data : SlotData
  state : SlotState
  retired : Bool
  deriving DecidableEq, Repr, Inhabited

/-- Changes of an account record (R29 to R40, R46, R47). -/
inductive AcctChange where
  | create (floor : Int)
  | post (p : Posting)
  | adjust (amount : Int)
  | clearFlags
  | setState (st : AcctState)
  deriving DecidableEq, Repr, Inhabited

/-- Changes of the NODE record (R68, R78, R92, R129, R159, R182). -/
inductive NodeChange where
  | startEpoch (epoch : Nat)
  | number (n : Nat)
  | nextPosting (n : Nat)
  | epochNext (epoch n : Nat)
  | nextLot (n : Nat)
  | nextSale (n : Nat)
  | pool (p : List Nat)
  deriving DecidableEq, Repr, Inhabited

/-- Changes of the QUEUE record (R141, R148, R164). -/
inductive QueueChange where
  | append (d : LotDesc)
  | drop (id : LotId)
  deriving DecidableEq, Repr, Inhabited

/-- One record write of a commit group. Updates name the change, and the copy is composed when the STORE makes the write
(R56). `refresh` writes a CURRENT copy again (R60). -/
inductive RecWrite where
  | account (n : Nat) (c : AcctChange)
  | origin (id : Ident)
  | node (c : NodeChange)
  | outbound (o : OutRec)
  | lotCreate (l : Lot)
  | lotUpdate (n : Nat) (st : LotState) (unsold : Nat)
  | queue (c : QueueChange)
  | saleCreate (r : SaleRec)
  | saleUpdate (n : Nat) (c : SaleChange)
  | iceCreate (o : OrderRec)
  | iceCheckpoint (key : Option Ident) (pulses : Nat)
  | refresh (c : Copy)
  deriving DecidableEq, Repr, Inhabited

/-- A request's work (R54). -/
inductive StoreWork where
  | group (ws : List RecWrite)
  | removal (k : RecKey)
  | calPage (f : CalFields)
  deriving DecidableEq, Repr, Inhabited

/-- A lot request of the WGU's queue (R133). -/
inductive LotReq where
  | claim (src seq : Nat) (lot : LotId) (ok : Bool)
  | report (src seq : Nat) (lot : LotId) (ok : Bool) (sold : Bool)
  | releaseLot (n : Nat)
  | reoffer (n : Nat)
  | delete (n : Nat)
  deriving DecidableEq, Repr, Inhabited

/-- The unit that placed a request, and what it does with the outcome. -/
inductive Owner where
  | startEpoch (epoch : Nat)
  | refresh
  | number
  | excWork
  | outRemoval (id : Ident)
  | bookPost
  | bookOpen (floor : Int)
  | bookAdjust
  | bookRemove
  | bookClear
  | bookYield (acct target : Nat)
  | bookState (acct : Nat)
  | cal (f : CalFields)
  | lotCreate
  | lotHand
  | claim (lot : LotId)
  | lotEnd (lot : LotId)
  | queueClean (lot : LotId)
  | saleLog
  | sale (n : Nat) (c : SaleChange)
  | saleRemove (n : Nat)
  | iceCreate (o : OrderRec)
  | iceCheckpoint (key : Option Ident) (pulses : Nat)
  | iceRemove
  | pool (carried : List Int)
  deriving DecidableEq, Repr, Inhabited

structure Request where
  owner : Owner
  work : StoreWork
  deriving DecidableEq, Repr, Inhabited

/-- The outcome of a request; a failed group names the first write that did not complete (R54). -/
inductive StoreRes where
  | done
  | full (idx : Nat)
  | fault (idx : Nat)
  deriving DecidableEq, Repr, Inhabited

/-- Why a slot is being erased (R55, R59, R60, R70). -/
inductive EraseFor where | room | older | last | background | erasure
  deriving DecidableEq, Repr, Inhabited

/-- The operation in progress (R54). -/
inductive StoreOp where
  | write (slot : Nat) (c : Copy) (attempt : Nat)
  | erase (slot : Nat) (why : EraseFor) (attempt : Nat)
  | calPage (f : CalFields)
  deriving DecidableEq, Repr, Inhabited

/-- A calibration page (R62): the fields written to it, none while nothing has been; whether its bad mark is written; and whether the last
start-up scan could correct what it read. -/
structure CalPage where
  fields : Option CalFields := none
  marked : Bool := false
  readable : Bool := true
  deriving DecidableEq, Repr, Inhabited

/-- A damaged list entry (R66): the account, the write count of the newest damaged copy, and for RECOVERED that of the copy
restored (none: LOST). -/
structure Damaged where
  acct : Nat
  newest : Nat
  restored : Option Nat
  deriving DecidableEq, Repr, Inhabited

/-- The store counters (R61). -/
structure StoreCounters where
  corrected : Nat := 0
  unreadable : Nat := 0
  recovered : Nat := 0
  lost : Nat := 0
  writeRetries : Nat := 0
  eraseFailures : Nat := 0
  storeFull : Nat := 0
  storeFaults : Nat := 0
  refreshes : Nat := 0
  deriving DecidableEq, Repr, Inhabited

/-- The Book Store (chapter 3). `list` is the request list, `pend` the requests that wait in their units (R54); `cur` is the
request in progress, `listed` whether it stands on the list (a refresh does not), `idx` its current write. `erasing`: ERASE
STORE under way, with the next slot (R70). `pages`: the four calibration pages, page 1 first. -/
structure Store where
  slots : List Slot
  list : List Request := []
  pend : List Request := []
  cur : Option Request := none
  listed : Bool := false
  idx : Nat := 0
  op : Option StoreOp := none
  erasing : Option Nat := none
  refresh : List Nat := []
  pages : List CalPage := List.replicate 4 {}
  serial : Nat
  serialOk : Bool := true
  damaged : List Damaged := []
  damagedMore : Nat := 0
  cnt : StoreCounters := {}
  deriving DecidableEq, Repr

/-! ### The Weighing Unit (chapter 6) -/

/-- A reading (R119, R125). `tooHeavy` is the condition OVER. -/
structure Reading where
  ctr : Nat := 0
  noCal : Bool := false
  noReading : Bool := false
  stable : Bool := false
  tooHeavy : Bool := false
  moving : Bool := false
  average : Option Int := none
  gross : Option Int := none
  tare : Option Nat := none
  net : Option Int := none
  deriving DecidableEq, Repr, Inhabited

/-- Weigh result codes (R130). -/
inductive WeighCode where
  | done | noAccountRoom | notConfigured | noHome | notActive | unstable | overload | netNotPositive | storeFull | storeFault
  deriving DecidableEq, Repr, Inhabited

/-- The weigh result (R130). What one without a lot holds besides its code, and the figures of a failure at capture, is log entry 85
(DESIGN CHOICE). -/
structure WeighResult where
  code : WeighCode
  lot : Option Nat := none
  boat : Nat
  boatHome : Option Nat := none
  gross : Option Int := none
  tare : Option Int := none
  net : Option Int := none
  deriving DecidableEq, Repr, Inhabited

/-- The weighing under way (R126 to R129). -/
inductive WeighStage where
  | resolving (locSeq : Option Nat)
  | settling (home : Nat) (left : Nat)
  | recording (home : Nat) (gross tare net : Int) (number : Nat)
  deriving DecidableEq, Repr, Inhabited

structure Weigh where
  boat : Nat
  species : Nat
  grade : Nat
  ctype : Nat
  count : Nat
  ring : Nat
  stage : WeighStage
  deriving DecidableEq, Repr, Inhabited

/-- The commands that write the scale command result (R122, R133). -/
inductive ScaleCmd where
  | calWrite
  | releaseLot (n : Nat)
  | reoffer (n : Nat)
  | delete (n : Nat)
  deriving DecidableEq, Repr, Inhabited

/-- The lot events of a scale (R138). -/
inductive LotEvent where | claimed | sold | unsold | withdrawn | noRing | ringFound | released | reoffered | deleted
  deriving DecidableEq, Repr, Inhabited

structure LotEventRec where
  lot : Nat
  event : LotEvent
  clock : Option Nat
  deriving DecidableEq, Repr, Inhabited

/-- The calibration draft (R121). -/
structure Draft where
  zero : Option Int := none
  span : Option (Int × Nat) := none
  deriving DecidableEq, Repr, Inhabited

/-- The scale counters (R138). -/
structure WguCounters where
  sampleErrors : Nat := 0
  sampleLosses : Nat := 0
  missed : Nat := 0
  weighsDone : Nat := 0
  weighsFailed : Nat := 0
  droppedReqs : Nat := 0
  claimsGranted : Nat := 0
  claimsTaken : Nat := 0
  staleReports : Nat := 0
  deriving DecidableEq, Repr, Inhabited

/-- The Weighing Unit (chapter 6). `window` and `history` are oldest first. -/
structure Wgu where
  window : List Int := []
  history : List Int := []
  lossT : Timer := none
  ctr : Nat := 0
  zero : Int := 0
  manualTare : Nat := 0
  crateTare : Option (Nat × Nat) := none
  offered : Reading := {}
  waiting : Option Reading := none
  reading : Bool := false
  draft : Draft := {}
  calBusy : Bool := false
  weigh : Option Weigh := none
  result : Option WeighResult := none
  lots : List Lot := []
  lotQ : List LotReq := []
  lotHand : Option LotReq := none
  cmdResult : Option (ScaleCmd × PCode) := none
  lotEvent : Option LotEventRec := none
  cnt : WguCounters := {}
  deriving DecidableEq, Repr, Inhabited

/-! ### The Clock Unit (chapter 7) -/

/-- Clock states (R143). -/
inductive ClockState where | idle | presented | running | halted | noSale | settling
  deriving DecidableEq, Repr, Inhabited

/-- The START figures (R145). -/
structure Figures where
  start : Nat
  floor : Nat
  step : Nat
  tick : Nat
  deriving DecidableEq, Repr, Inhabited

/-- A claim in flight (R140, R141): once GRANTED, the description whose QUEUE commit is placed, and the retry timer after a
failed commit. -/
structure Claim where
  lot : LotId
  granted : Option LotDesc := none
  retry : Timer := none
  deriving DecidableEq, Repr, Inhabited

/-- A queued lot that start-up found sold, whose update of the QUEUE record has not ended DONE (R164); `retry` runs after a failed
one (log entry 28). -/
structure Cleaning where
  lot : LotId
  retry : Timer := none
  deriving DecidableEq, Repr, Inhabited

/-- Desk states (R149). -/
inductive DeskState where | out | asking | inn | suspended | lapsed
  deriving DecidableEq, Repr, Inhabited

/-- The last desk event: NONE, the code of an outcome, or a change (R149, R150, R153, R157). -/
inductive DeskEvent where
  | none
  | answer (c : AnsCode)
  | failed
  | refused (c : PCode)
  | suspended
  | won
  deriving DecidableEq, Repr, Inhabited

/-- A desk (R149). -/
structure Desk where
  state : DeskState := .out
  buyer : Option Nat := none
  home : Option Nat := none
  key : Option Ident := none
  granted : Nat := 0
  allowance : Nat := 0
  purchases : Nat := 0
  last : DeskEvent := .none
  deriving DecidableEq, Repr, Inhabited

/-- The settling of an accepted stop (R158 to R160). -/
structure Settling where
  sale : SaleRec
  logRetry : Timer := none
  deriving DecidableEq, Repr, Inhabited

/-- A request of a sale's postings that waits 1,000 ms after a store refusal (R160, R164): the sale, and one part or all. -/
structure SaleReqWait where
  sale : Nat
  part : Option SalePart
  left : Nat
  deriving DecidableEq, Repr, Inhabited

/-- A failed update of a SALE record and the milliseconds until it is placed again (R160, R161). -/
structure SaleRedo where
  change : SaleChange
  left : Nat
  deriving DecidableEq, Repr, Inhabited

/-- An entry of the sale log: the record; whether its `posted` update has been placed, so that every later one carries posted set
(R160); the state that the newest update of each part gives, placed or waiting (R161); the updates that failed and wait to be placed
again (R160, R161); the reissue timer of its report (R162); and whether its removal is placed (R163). -/
structure Sale where
  entry : SaleRec
  postedPlaced : Bool := false
  newest : List (SalePart × PartState) := []
  redo : List SaleRedo := []
  reissue : Timer := none
  removing : Bool := false
  deriving DecidableEq, Repr, Inhabited

/-- What a clock lot event says (R165). -/
inductive ClockEvent where
  | queued
  | claimFailed
  | reportFailed
  | state (c : ClockState)
  deriving DecidableEq, Repr, Inhabited

/-- What a sale event says (R165). -/
inductive SaleEvent where
  | logged
  | waitingStore
  | removed
  | part (p : SalePart) (st : PartState)
  | updateFailed
  deriving DecidableEq, Repr, Inhabited

/-- The clock counters (R165). -/
structure CluCounters where
  otherRing : Nat := 0
  claimsMade : Nat := 0
  claimsGranted : Nat := 0
  claimsTaken : Nat := 0
  claimsFailed : Nat := 0
  ticks : Nat := 0
  noSales : Nat := 0
  withdrawals : Nat := 0
  presses : Nat := 0
  idlePresses : Nat := 0
  latePresses : Nat := 0
  refusedStops : Nat := 0
  sales : Nat := 0
  lapsedDesks : Nat := 0
  releaseFailures : Nat := 0
  reissued : Nat := 0
  unsettled : Nat := 0
  deriving DecidableEq, Repr, Inhabited

/-- The Clock Unit (chapter 7). `tickT` counts up while RUNNING. `released` counts, for each desk, the last scans in a row that
found it released, up to 21 (R154). `lotEndT` runs after a failed QUEUE update at the end of a lot (R148). `cleaning` names the
queued lots that were sold before start-up, until the update without them ends DONE (R164). -/
structure Clu where
  queue : List LotDesc := []
  cleaning : List Cleaning := []
  claims : List Claim := []
  state : ClockState := .idle
  price : Option Nat := none
  figs : Option Figures := none
  tickT : Option Nat := none
  desks : List Desk := []
  released : List Nat := []
  lastWin : Nat := 32
  settling : Option Settling := none
  reqWait : List SaleReqWait := []
  lotEndT : Timer := none
  sales : List Sale := []
  lotEvent : Option (ClockEvent × Option LotId) := none
  saleEvent : Option (Nat × SaleEvent) := none
  cnt : CluCounters := {}
  deriving DecidableEq, Repr, Inhabited

/-! ### The Ice Meter (chapter 8) -/

/-- Order states (R167). -/
inductive OrderState where | idle | resolving | holding | dispensing | settling
  deriving DecidableEq, Repr, Inhabited

/-- Order result codes (R177 and the rules that end an order). -/
inductive OrderCode where
  | done | lapsed | settleFailed | unknown | failed | refusedFunds | refusedNoRoom | zeroTarget | cancelled | epochExhausted
  | storeFull | storeFault
  deriving DecidableEq, Repr, Inhabited

/-- The outcome a late batch record or a late settle shows. -/
inductive LateCode where
  | answer (c : AnsCode)
  | failed
  | discarded
  deriving DecidableEq, Repr, Inhabited

/-- The late settle record (R177). -/
structure LateSettle where
  key : Ident
  account : Nat
  settle : Nat
  code : LateCode
  deriving DecidableEq, Repr, Inhabited

/-- The ice counters (R180). -/
structure IcmCounters where
  accepted : Nat := 0
  cancelled : Nat := 0
  done : Nat := 0
  failed : Nat := 0
  stops : Nat := 0
  emergencies : Nat := 0
  stalls : Nat := 0
  noise : Nat := 0
  stray : Nat := 0
  overRange : Nat := 0
  failedCkpts : Nat := 0
  releaseFailures : Nat := 0
  lateSettles : Nat := 0
  restored : Nat := 0
  deriving DecidableEq, Repr, Inhabited

/-- The Ice Meter (chapter 8). `locSeq`: the order's LOCATE entry; `closed`: counting has closed (R174); `restoring`: the order
is settled after start-up (R179); `ckPlaced`: the pulses of the newest checkpoint placed (R175); `edgeMs`: milliseconds since
the last APULSE edge, up to 5 (R166). -/
structure Icm where
  state : OrderState := .idle
  order : Option OrderRec := none
  locSeq : Option Nat := none
  closed : Bool := false
  restoring : Bool := false
  stallT : Timer := none
  coastT : Timer := none
  settleT : Timer := none
  ckPlaced : Nat := 0
  adrive : Bool := false
  edgeMs : Nat := 0
  result : Option (OrderCode × OrderRec) := none
  late : Option LateSettle := none
  cnt : IcmCounters := {}
  deriving DecidableEq, Repr, Inhabited

/-! ### The Crate Gate (chapter 9) -/

/-- Batch states (R184). -/
inductive BatchState where | idle | resolving | opened | closing | posting
  deriving DecidableEq, Repr, Inhabited

/-- Batch result codes (R192). -/
inductive BatchCode where | unknown | failed | cancelled | epochExhausted | done | clamped | refusedFunds
  deriving DecidableEq, Repr, Inhabited

/-- The batch record (R184). -/
structure Batch where
  number : Nat
  kind : BatchKind
  account : Nat
  deposits : List Nat
  home : Option Nat := none
  tags : List (Nat × Nat) := []
  counts : List Nat := List.replicate 8 0
  duplicates : Nat := 0
  rejected : Nat := 0
  refusedFull : Nat := 0
  amount : Option Nat := none
  id : Option Ident := none
  deriving DecidableEq, Repr, Inhabited

/-- The batch result (R192): the refunded count and the refund in cents of each item, by crate type, and the sum of the refunds (R191). -/
structure BatchResult where
  code : BatchCode
  batch : Batch
  refunded : Option (List (Nat × Nat)) := none
  refunds : Option (List (Nat × Nat)) := none
  refund : Option Nat := none
  deriving DecidableEq, Repr, Inhabited

/-- The late batch record (R193). -/
structure LateBatch where
  epoch : Nat
  number : Nat
  kind : BatchKind
  account : Nat
  id : Ident
  code : LateCode
  refunded : Option (List (Nat × Nat))
  deriving DecidableEq, Repr, Inhabited

/-- The gate counters (R195). -/
structure CgtCounters where
  tagErrors : Nat := 0
  unbatched : Nat := 0
  duplicates : Nat := 0
  rejected : Nat := 0
  refusedFull : Nat := 0
  excess : Nat := 0
  shortfall : Nat := 0
  done : Nat := 0
  failed : Nat := 0
  cancelled : Nat := 0
  late : Nat := 0
  deriving DecidableEq, Repr, Inhabited

/-- The Crate Gate (chapter 9). `poolBusy`: a pool update stands on the list, is under way or waits for the list; `poolT` runs
after a failed one; `riseWaits`: a RETURN's posting waits for its pool update to stand on the list (R189). -/
structure Cgt where
  state : BatchState := .idle
  batch : Option Batch := none
  nextBatch : Nat := 1
  blocked : List Nat := []
  pend : List Int := List.replicate 8 0
  poolBusy : Bool := false
  poolT : Timer := none
  riseWaits : Bool := false
  postT : Timer := none
  result : Option BatchResult := none
  late : Option LateBatch := none
  startEpoch : Nat := 0
  cnt : CgtCounters := {}
  deriving DecidableEq, Repr, Inhabited

/-! ### The Station Port (chapter 10) -/

/-- The attention flags, in status word order (section 10.3). -/
inductive Flag where
  | weighDone | lotEvent | saleEvent | deskEvent | iceDone | batchDone | postingFailed | lineState | storeEvent | conflict
  | holdDropped | damaged
  deriving DecidableEq, Repr, Inhabited

/-- A crate table row: tare grams and deposit (R204). -/
structure CrateRow where
  tare : Nat
  deposit : Nat
  deriving DecidableEq, Repr, Inhabited

/-- The configuration record, and the staged fields (R204, R205); none is unset, or not staged. -/
structure Cfg where
  nodeNumber : Option Nat := none
  role : Option Role := none
  ring : Option Nat := none
  levy : Option Nat := none
  boatFloor : Option Int := none
  tariff : Option Nat := none
  gpp : Option Nat := none
  crates : Option (List CrateRow) := none
  lineRate : Option Nat := none
  deriving DecidableEq, Repr, Inhabited

/-- Start causes (R207). -/
inductive StartCause where | power | pin | restart | erase
  deriving DecidableEq, Repr, Inhabited

/-- The communication fault shown with an answer (R197). -/
inductive PortFault where | none | check | length | timeout
  deriving DecidableEq, Repr, Inhabited

/-- Epoch states (R68). -/
inductive EpochState where | inUse | notTaken | exhausted
  deriving DecidableEq, Repr, Inhabited

/-- Power and start-up phases (R64 to R69). -/
inductive Phase where
  | off
  | held
  | scanning
  | epochCommit
  | running
  deriving DecidableEq, Repr, Inhabited

/-- The port counters (R207). -/
structure PortCounters where
  check : Nat := 0
  length : Nat := 0
  timeout : Nat := 0
  deriving DecidableEq, Repr, Inhabited

/-- The order record as READ READING and the order result show it (R167, R177): the fields of the meter are present from DISPENSING on. -/
structure OrderShown where
  account : Nat
  kg : Nat
  acceptLess : Bool
  tariff : Nat
  gpp : Nat
  holdAmount : Option Nat
  key : Option Ident
  home : Option Nat
  granted : Option Nat
  grantCode : Option AnsCode
  targetPulses : Option Nat
  targetGrams : Option Nat
  auger : Option Bool
  pulses : Option Nat
  grams : Option Nat
  checkpoint : Option Nat
  cause : Option StopCause
  settle : Option Nat
  deriving DecidableEq, Repr

/-- Entries of a READ LIST answer (R203). -/
inductive ListData where
  | accounts (l : List Account)
  | holds (l : List Hold)
  | lots (l : List Lot)
  | claims (l : List LotId)
  | sales (l : List SaleRec)
  | desks (l : List Desk)
  | outbound (l : List Entry)
  | homeMap (l : List (Nat × Nat))
  | peers (l : List (Nat × Option Role × Nat × Nat))
  | blocked (l : List Nat)
  | tags (l : List (Nat × Nat))
  deriving DecidableEq, Repr

/-- The data of a port answer, as named fields (R203 and the owners' chapters; log entry 6). -/
inductive PData where
  | none
  | account (a : Account)
  | hold (h : Hold)
  | lot (l : Lot)
  | lotDesc (d : LotDesc)
  | lotEvent (e : Option LotEventRec)
  | clock (st : ClockState) (price : Option Nat) (head : Option LotDesc) (figs : Option Figures) (queue : List LotDesc)
      (inFlight : Nat)
  | clockEvent (e : Option (ClockEvent × Option LotId))
  | sale (r : SaleRec)
  | saleEvent (e : Option (Nat × SaleEvent))
  | entry (e : Entry)
  | capture (c : Option Capture)
  | damaged (l : List Damaged) (more : Nat)
  | peers (l : List (Nat × Option Role × Nat × Nat))
  | reading (r : Reading) (page : Nat)
  | weighResult (r : Option WeighResult) (cmd : Option (ScaleCmd × PCode))
  | order (st : OrderState) (o : Option OrderShown)
  | orderResult (r : Option (OrderCode × OrderShown))
  | lateSettle (r : Option LateSettle)
  | batch (st : BatchState) (b : Option Batch)
  | batchResult (r : Option BatchResult)
  | lateBatch (r : Option LateBatch)
  | desk (d : Desk)
  | line (st : LineState) (last : JoinOutcome) (rate : Option Nat) (c : LifCounters)
  | exchange (c : ExcCounters) (states : List Nat) (nextPosting holdNo : Nat)
  | book (c : BookCounters) (r : Option BookResult)
  | store (c : StoreCounters) (slots : List Nat) (calCount serial epoch : Nat) (es : EpochState)
  | scale (c : WguCounters) (ctr calCount : Nat)
  | clockCounters (c : CluCounters)
  | ice (c : IcmCounters)
  | gate (c : CgtCounters) (pool : List Nat) (pend : List Int)
  | port (c : PortCounters) (cause : StartCause) (mask flags : BitVec 12) (lock : Bool)
  | configuration (cfg staged : Cfg) (fixed : Nat) (role : Option Role)
  | list (d : ListData) (next : Option Nat)
  deriving DecidableEq, Repr

/-- An answer in the answer buffer: status word, code, data, and whether byte 0 of the data says that more remains (R196, R203). -/
structure PAnswer where
  status : BitVec 32
  code : PCode
  data : PData
  more : Bool
  deriving DecidableEq, Repr

/-- The Station Port (chapter 10). `buf` is the answer buffer, `sent` the answer the last frame carried out; `fresh` the FRESH port
state. -/
structure Port where
  buf : PAnswer
  sent : PAnswer
  fresh : Bool := false
  flags : BitVec 12 := 0
  mask : BitVec 12 := BitVec.allOnes 12
  lock : Bool := false
  cfg : Cfg := {}
  staged : Cfg := {}
  role : Option Role := none
  cause : StartCause := .power
  cnt : PortCounters := {}
  deriving DecidableEq, Repr

/-- Supply, reset pin, start-up phase, epoch, emergency-stop pin, the flags raised during start-up, and the counter of the
free values (log entry 5). -/
structure Sys where
  phase : Phase := .scanning
  resetLow : Bool := false
  estopLow : Bool := false
  epoch : Nat := 0
  epochState : EpochState := .notTaken
  lateFlags : BitVec 12 := 0
  free : Nat := 0
  deriving DecidableEq, Repr, Inhabited

end Sys2Proof.Machine
end

