-- ==== Sys2Proof/Config.lean ====
section
/-! DEFINITION. The values the spec leaves open, as constants without a body: nothing can be proved of them but that they exist.
Each is named in a log entry. -/

namespace Sys2Proof
open Sys2Proof.Machine

/-- What a cut-off write leaves in its slot (R51, R64, R65): the slot as it was, an uncorrectable header, or the whole copy. -/
inductive WriteCut where | untouched | torn | whole
  deriving DecidableEq, Repr, Inhabited

/-- What a cut-off calibration page write leaves (R122): "written and valid, spent, or unwritten". -/
inductive CalCut where | written | spent | unwritten
  deriving DecidableEq, Repr, Inhabited

/-- Free value (log entry 5): the slot left by the cut-off write at this value of the free counter. -/
opaque Config.writeCut : Nat → WriteCut

/-- Free value (log entry 5): the calibration page left by a cut-off page write. -/
opaque Config.calCut : Nat → CalCut

/-- Free value (log entries 6 and 77): the byte that stands for a kind, a state or an indication whose coding the spec does not
give, in a message body or in an answer's data. -/
opaque Config.codeByte {α : Type} : α → Byte

/-- Free value (log entry 78): the account that a MALFORMED or DEFER answer names when the request's account field does not read. -/
opaque Config.badSubject : Field → Nat

/-- Free value (log entry 6): byte 0 of the data of a read, which says whether more remains (R203). -/
opaque Config.moreByte : Bool → Byte

/-- Free value (log entry 94): what the signed nine-digit field shows for a gross or a net that nine digits cannot hold (R118). -/
opaque Config.wideWeight : Int → Int

/-- Free value (log entry 7): the answer code of a READ HOLD whose key is not in the table (R41 states none). -/
opaque Config.readHoldAbsent : PCode

/-- Free value (log entry 7): the answer code of a READ OUTBOUND for a place that holds no entry, or out of range (R89). -/
opaque Config.readOutboundEmpty : Nat → PCode

/-- Free value (log entry 7): the answer code of a READ SALE for a number not in the log (R163 states one for COLLECT SALE). -/
opaque Config.readSaleAbsent : Nat → PCode

end Sys2Proof
end

