-- ==== Sys2Proof/Machine/Operands.lean ====
section
/-! DEFINITION. Operand forms: packed decimal fields (section 4.2, R72), the ranges of R1, and the line's check word and
arbitration code (section 4.1, R74). -/

namespace Sys2Proof.Machine
open Sys2Proof

/-- The nibbles of a field, high nibble of the first byte first. -/
def nibbles : Field → List Nat
  | [] => []
  | b :: bs => b.toNat / 16 :: b.toNat % 16 :: nibbles bs

/-- The value of decimal digits, highest first; none when a digit is one of the six non-decimal codes (R2). -/
def digitsValue : List Nat → Option Nat
  | ds => ds.foldl (fun acc d => match acc with
      | none => none
      | some n => if d ≤ 9 then some (10 * n + d) else none) (some 0)

/-- An unsigned field of `n` digits: with an odd digit count a pad nibble 0000 stands first (R72). -/
def readUnsigned (n : Nat) (f : Field) : Option Nat :=
  let ns := nibbles f
  if ns.length ≠ n + n % 2 then none
  else if n % 2 = 1 then
    match ns with
    | 0 :: ds => digitsValue ds
    | _ => none
  else digitsValue ns

/-- A signed field of nine digits: sign nibble 1010 for plus, 1011 for minus; minus zero is zero (R2, R72). -/
def readSigned (f : Field) : Option Int :=
  let ns := nibbles f
  if ns.length ≠ 10 then none
  else match ns with
    | 10 :: ds => (digitsValue ds).map fun n => (n : Int)
    | 11 :: ds => (digitsValue ds).map fun n => -(n : Int)
    | _ => none

/-- The lowest `n` decimal digits of a number, highest first. -/
def digitsOf : Nat → Nat → List Nat
  | 0, _ => []
  | n + 1, v => digitsOf n (v / 10) ++ [v % 10]

/-- Packs nibbles two to a byte. -/
def packNibbles : List Nat → Field
  | a :: b :: ns => BitVec.ofNat 8 (16 * a + b) :: packNibbles ns
  | _ => []

/-- The unsigned field of `n` digits that a sender writes (R72). -/
def writeUnsigned (n v : Nat) : Field :=
  packNibbles (if n % 2 = 1 then 0 :: digitsOf n v else digitsOf n v)

/-- The signed field of nine digits that a sender writes: 1010 for zero or more, 1011 below zero (R72). -/
def writeSigned (v : Int) : Field :=
  packNibbles ((if v < 0 then 11 else 10) :: digitsOf 9 v.natAbs)

/-- Keeps a value that lies in a range (R1). -/
def inRange (lo hi : Nat) : Option Nat → Option Nat
  | some n => if lo ≤ n ∧ n ≤ hi then some n else none
  | none => none

/-- Keeps a signed value that lies in a range (R1). -/
def inRangeI (lo hi : Int) : Option Int → Option Int
  | some n => if lo ≤ n ∧ n ≤ hi then some n else none
  | none => none

/-- The fields of the table of R1. -/
def readAccountNo (f : Field) : Option Nat := inRange 1 999999 (readUnsigned 6 f)
def readWeight (f : Field) : Option Nat := readUnsigned 7 f
def readPrice (f : Field) : Option Nat := readUnsigned 5 f
def readAmount (f : Field) : Option Nat := readUnsigned 9 f
def readHoldAmount (f : Field) : Option Nat := inRange 1 999999999 (readUnsigned 9 f)
def readBalance (f : Field) : Option Int := readSigned f
def readBoatFloor (f : Field) : Option Int := inRangeI (-99999999) 0 (readSigned f)
def readCarriedFloor (f : Field) : Option Int := inRangeI (-999999999) 0 (readSigned f)
def readLevy (f : Field) : Option Nat := inRange 0 2000 (readUnsigned 4 f)
def readDeposit (f : Field) : Option Nat := readUnsigned 4 f
def readTariff (f : Field) : Option Nat := inRange 1 9999 (readUnsigned 4 f)
def readGramsPerPulse (f : Field) : Option Nat := inRange 100 5000 (readUnsigned 4 f)
def readKg (f : Field) : Option Nat := inRange 1 9999 (readUnsigned 4 f)
def readCount (f : Field) : Option Nat := inRange 0 65535 (readUnsigned 5 f)

/-- Boat accounts are 000001 to 499999, buyers 500000 to 999999 (00 section 5, R20). -/
def isBoat (n : Nat) : Bool := n ≤ 499999
def isBuyer (n : Nat) : Bool := 500000 ≤ n

def readBoat (f : Field) : Option Nat :=
  match readAccountNo f with
  | some n => if isBoat n then some n else none
  | none => none

def readBuyer (f : Field) : Option Nat :=
  match readAccountNo f with
  | some n => if isBuyer n then some n else none
  | none => none

/-- Every element of a list of optional values, or none. -/
def allSome {α : Type} : List (Option α) → Option (List α)
  | [] => some []
  | none :: _ => none
  | some a :: rest =>
    match allSome rest with
    | some as => some (a :: as)
    | none => none

/-! ### Tables in ascending order of a number -/

/-- A row takes its place in ascending order of its number, or the place of the row of its number. -/
def insertKeyed {α : Type} (key : α → Nat) (a : α) : List α → List α
  | [] => [a]
  | x :: xs =>
    if key a < key x then a :: x :: xs
    else if key a = key x then a :: xs
    else x :: insertKeyed key a xs

/-- A row of a table of `size` rows: it takes the place of the row of its number, or, where the table holds none and has room, its place in
number order. -/
def putKeyed {α : Type} (key : α → Nat) (size : Nat) (a : α) (l : List α) : List α :=
  if l.any fun x => key x == key a then l.map fun x => if key x = key a then a else x
  else if l.length < size then insertKeyed key a l else l

/-- Identities compare by epoch first and then by number (R26). -/
def Mark.lt (a b : Mark) : Bool := a.epoch < b.epoch || (a.epoch == b.epoch && a.number < b.number)
def Mark.max (a b : Mark) : Mark := if a.lt b then b else a
def Ident.mark (i : Ident) : Mark := ⟨i.epoch, i.number⟩
def Ident.lt (a b : Ident) : Bool := a.mark.lt b.mark

/-- Node numbers, epochs and numbers of identities, crate types, rings, species and grades, as their chapters bound them. -/
def nodeOk (n : Nat) : Bool := 1 ≤ n && n ≤ 62
def numOk (n : Nat) : Bool := 1 ≤ n && n ≤ 65535
def ctypeOk (n : Nat) : Bool := 1 ≤ n && n ≤ 8
def ringOk (n : Nat) : Bool := 1 ≤ n && n ≤ 8
def speciesOk (n : Nat) : Bool := 1 ≤ n && n ≤ 999
def gradeOk (n : Nat) : Bool := 1 ≤ n && n ≤ 4
def serialOk (n : Nat) : Bool := 1 ≤ n && n ≤ 16777215

/-- Role codes of JOIN, PRESENT and CONFIGURE (section 4.1). -/
def roleOf : Nat → Option Role
  | 1 => some .scale
  | 2 => some .clock
  | 3 => some .ice
  | 4 => some .gate
  | _ => none

def roleCode : Role → Nat
  | .scale => 1
  | .clock => 2
  | .ice => 3
  | .gate => 4

/-! ### Received bodies -/

def readItem (r : RawItem) : Option CrateItem :=
  match ctypeOk r.ctype, readCount r.count, readDeposit r.deposit with
  | true, some c, some d => some ⟨r.ctype, c, d⟩
  | _, _, _ => none

/-- No crate type appears twice among the items, and there are at most 8 (R25). -/
def itemsOk (is : List CrateItem) : Bool := decide (is.length ≤ 8) && decide ((is.map (·.ctype)).Nodup)

def readItems (rs : List RawItem) : Option (List CrateItem) :=
  match allSome (rs.map readItem) with
  | some is => if itemsOk is then some is else none
  | none => none

def readCarried (r : RawCarried) : Option CarriedHold :=
  match readHoldAmount r.remaining with
  | some a => if nodeOk r.node && numOk r.epoch && numOk r.number && numOk r.life then
      some ⟨⟨r.node, r.epoch, r.number⟩, a, r.life⟩ else none
  | none => none

def readTransfer (r : RawTransfer) : Option TransferPart :=
  match readBalance r.balance, readCarriedFloor r.floor, readCount r.unmatched, allSome (r.counts.map readCount),
      allSome (r.holds.map readCarried) with
  | some b, some fl, some u, some cs, some hs =>
    if cs.length = 8 ∧ hs.length ≤ 24 then some ⟨b, fl, r.saturated, r.overdrawn, u, cs, hs⟩ else none
  | _, _, _, _, _ => none

/-- The kinds that carry crate items, a hold key, a transfer part (R25). -/
def postHasItems : PostKind → Bool
  | .sale | .draw | .issue | .ret => true
  | _ => false
def postHasKey : PostKind → Bool
  | .draw | .settle => true
  | _ => false

/-- The account kind that a posting kind admits (R25): SALE and SETTLE boats, DRAW buyers. -/
def postAccountOk (k : PostKind) (a : Nat) : Bool :=
  match k with
  | .sale | .settle => isBoat a
  | .draw => isBuyer a
  | _ => true

/-- The parts of a posting that its kind asks for, each present and valid; parts of other kinds are not looked at (R25). -/
def readPostItems (k : PostKind) (r : RawPost) : Option (List CrateItem) :=
  if postHasItems k then (match r.items with | some is => readItems is | none => none) else some []

def readPostKey (k : PostKind) (r : RawPost) : Option (Option (Nat × Nat)) :=
  if postHasKey k then
    (match r.holdKey with
     | some (e, n) => if numOk e && numOk n then some (some (e, n)) else none
     | none => none)
  else some none

def readPostTransfer (k : PostKind) (r : RawPost) : Option (Option TransferPart) :=
  if k = .transfer then
    (match r.transfer with
     | some t => (readTransfer t).map some
     | none => none)
  else some none

/-- The posting of a received POST of a kind, from a source node, or malformed (R25). The amount of a RETURN or a TRANSFER is 0. -/
def readPostOf (src : Nat) (k : PostKind) (r : RawPost) : Parsed Posting :=
  match readAccountNo r.account, readAmount r.amount, readPostItems k r, readPostKey k r, readPostTransfer k r with
  | some a, some amt, some is, some key, some tr =>
    if nodeOk r.origin && numOk r.epoch && numOk r.number && r.origin == src && postAccountOk k a
        && (amt == 0 || !(k == .ret || k == .transfer)) then
      .ok ⟨⟨r.origin, r.epoch, r.number⟩, k, a, amt, is, key, tr⟩
    else .bad r.account
  | _, _, _, _, _ => .bad r.account

/-- The posting of a received POST, or malformed (R25); a kind that is none of the six is out of its range. -/
def readPost (src : Nat) (r : RawPost) : Parsed Posting :=
  match r.kind with
  | some k => readPostOf src k r
  | none => .bad r.account

def readHoldReq (src : Nat) (r : RawHold) : Parsed HoldReq :=
  match readAccountNo r.account, readHoldAmount r.amount with
  | some a, some amt =>
    if numOk r.epoch && numOk r.number && numOk r.life then .ok ⟨⟨src, r.epoch, r.number⟩, a, amt, r.acceptLess, r.life⟩
    else .bad r.account
  | _, _ => .bad r.account

def readReleaseReq (src : Nat) (r : RawRelease) : Parsed ReleaseReq :=
  match readAccountNo r.account with
  | some a => if numOk r.epoch && numOk r.number then .ok ⟨⟨src, r.epoch, r.number⟩, a⟩ else .bad r.account
  | none => .bad r.account

def readAcctField (f : Field) : Parsed Nat :=
  match readAccountNo f with
  | some a => .ok a
  | none => .bad f

/-- The description of a lot, every field within its range (R126, R131, R132); a net of 0 is none. -/
def readLotDesc (r : RawLot) : Option LotDesc :=
  match readBoat r.boat, readWeight r.net, readCount r.count with
  | some b, some net, some c =>
    if nodeOk r.scale && numOk r.number && nodeOk r.boatHome && speciesOk r.species && gradeOk r.grade && 1 ≤ net
        && ctypeOk r.ctype && c ≤ 99 && ringOk r.ring && r.unsold ≤ 3 then
      some ⟨⟨r.scale, r.number⟩, b, r.boatHome, r.species, r.grade, net, r.ctype, c, r.ring, r.unsold⟩
    else none
  | _, _, _ => none

/-- Answer codes in binary, 1 to 13 (R98). -/
def ansCodeOf : Nat → Option AnsCode
  | 1 => some .done
  | 2 => some .doneAlready
  | 3 => some .lapsed
  | 4 => some .clamped
  | 5 => some .granted
  | 6 => some .grantedLess
  | 7 => some .refusedFunds
  | 8 => some .refusedNoRoom
  | 9 => some .taken
  | 10 => some .unknown
  | 11 => some .defer
  | 12 => some .moved
  | 13 => some .malformed
  | _ => none

/-- The subject of a received answer; none when its account is malformed. -/
def readSubject : RawSubject → Option Subject
  | .account f => (readAccountNo f).map .account
  | .lot s n => some (.lot ⟨s, n⟩)

def readCountPair : Nat × Field → Option (Nat × Nat)
  | (ty, f) => if ctypeOk ty then (readCount f).map fun c => (ty, c) else none

/-- The data of a received answer; none when malformed: a bad packed field, a DEFER of wait 0, a MOVED to a node outside 1 to 62
(R97). R1's table has no row for the granted amount: 0 to 999,999,999 is taken, so 0 is not malformed (log entry 76). -/
def readAnsData : RawData → Option AnsData
  | .none => some .none
  | .amount f => (readAmount f).map .amount
  | .counts cs => (allSome (cs.map readCountPair)).map .counts
  | .dropped n => if n ≤ 24 then some (.dropped n) else none
  | .newHome n => if nodeOk n then some (.newHome n) else none
  | .wait t => if 1 ≤ t ∧ t ≤ 255 then some (.wait t) else none
  | .lot d => (readLotDesc d).map .lot
  | .holder n => if nodeOk n then some (.holder n) else none

/-- Whether the data is of the form that the code asks for (R97, R134): DEFER carries a wait, MOVED a node, a GRANTED HOLD an
amount, a GRANTED CLAIM the lot, TAKEN the holder. -/
def ansDataFits (k : ReqKind) (c : AnsCode) (d : AnsData) : Bool :=
  match c, k, d with
  | .defer, _, .wait _ => true
  | .defer, _, _ => false
  | .moved, _, .newHome _ => true
  | .moved, _, _ => false
  | .granted, .claim, .lot _ => true
  | .granted, .claim, _ => false
  | .granted, _, .amount _ => true
  | .granted, _, _ => false
  | .grantedLess, _, .amount _ => true
  | .grantedLess, _, _ => false
  | .taken, _, .holder _ => true
  | .taken, _, _ => false
  | _, _, _ => true

/-! ### The line's check word and arbitration code (section 4.1, R74) -/

/-- One step of the check register for one data bit: generator x^16 + x^12 + x^5 + 1, most significant bit first. -/
def checkBit (r : BitVec 16) (b : Bool) : BitVec 16 :=
  if (r.msb != b) then (r <<< 1) ^^^ 0x1021 else r <<< 1

def checkByte (r : BitVec 16) (b : Byte) : BitVec 16 :=
  [7, 6, 5, 4, 3, 2, 1, 0].foldl (fun acc i => checkBit acc (b.getLsbD i)) r

/-- The check over some bytes, register seeded with all ones, no inversion at the end. -/
def lineCheck (bs : List Byte) : BitVec 16 := bs.foldl checkByte 0xFFFF

def MsgClass.code : MsgClass → Nat
  | .urgent => 0
  | .answer => 1
  | .request => 2
  | .notice => 3

/-- The arbitration code: the class in the two high bits, the source in the six low bits. -/
def arbitrationCode (c : MsgClass) (src : Nat) : BitVec 8 := BitVec.ofNat 8 (64 * c.code + src % 64)

end Sys2Proof.Machine
end

