-- ==== Sys2Proof/Machine/Amu.lean ====
section
/-! DEFINITION. The Amount Unit (chapter 1): the decimal digit procedures of R4, R5 and R8 as the spec describes them, and the
calculations of R6 to R19 on integers, which the Laws prove to be what the digit procedures give. -/

namespace Sys2Proof.Machine
open Sys2Proof

/-! ### Digit procedures: lists of decimal digits, LOWEST digit first -/

/-- The value of digits, lowest first. -/
def digVal : List Nat → Nat
  | [] => 0
  | d :: ds => d + 10 * digVal ds

/-- The `w` lowest digits of a number, lowest first. -/
def toDigs : Nat → Nat → List Nat
  | 0, _ => []
  | w + 1, n => n % 10 :: toDigs w (n / 10)

/-- R4: digit by digit from the lowest, with the carry; a position sum above 9 has 10 taken from it and passes a carry of 1. The
digits in the working width and the carry out of the highest position. -/
def addDigs : List Nat → List Nat → Nat → List Nat × Nat
  | a :: as, b :: bs, c =>
    let t := a + b + c
    let r := addDigs as bs (if 9 < t then 1 else 0)
    ((if 9 < t then t - 10 else t) :: r.1, r.2)
  | _, _, c => ([], c)

/-- R5: the ten's complement, each digit 9 - d and 1 added at the lowest position. -/
def tensComplement (ds : List Nat) : List Nat :=
  (addDigs (ds.map fun d => 9 - d) (toDigs ds.length 1) 0).1

/-- A sign and a magnitude; a zero magnitude is positive (R4, R5). -/
structure SignMag where
  neg : Bool
  digs : List Nat
  deriving DecidableEq, Repr

def SignMag.value (x : SignMag) : Int := if x.neg then -(digVal x.digs : Int) else digVal x.digs

/-- The sign and magnitude of an integer in `w` digits. -/
def toSignMag (w : Nat) (v : Int) : SignMag := ⟨decide (v < 0), toDigs w v.natAbs⟩

/-- A zero result carries the positive sign (R4, R5). -/
def fixZero (x : SignMag) : SignMag := if digVal x.digs = 0 then { x with neg := false } else x

/-- R4 and R5: addition of signed amounts. With signs differing, the ten's complement of the second magnitude is added, its 1 at the
lowest position coming in as the carry, so that a magnitude of zero carries out as well: a carry out keeps the first sign; no carry
out complements the digits and takes the second sign. -/
def addSigned (x y : SignMag) : SignMag :=
  if x.neg = y.neg then fixZero ⟨x.neg, (addDigs x.digs y.digs 0).1⟩
  else
    let r := addDigs x.digs (y.digs.map fun d => 9 - d) 1
    if r.2 = 1 then fixZero ⟨x.neg, r.1⟩ else fixZero ⟨y.neg, tensComplement r.1⟩

/-- The largest digit `q` up to `fuel` for which the partial remainder `r` less `q` times `d` stays non-negative (R8). -/
def quotDigit (d r : Nat) : Nat → Nat
  | 0 => 0
  | q + 1 => if (q + 1) * d ≤ r then q + 1 else quotDigit d r q

/-- R8: decimal long division, dividend digits highest first; answers the quotient digits highest first and the remainder. -/
def longDiv (d : Nat) : List Nat → Nat → List Nat × Nat
  | [], r => ([], r)
  | x :: xs, r =>
    let p := 10 * r + x
    let q := quotDigit d p 9
    let t := longDiv d xs (p - q * d)
    (q :: t.1, t.2)

/-! ### Rounding (R7) -/

inductive Round where | halfUp | truncate | up
  deriving DecidableEq, Repr

/-- Scaling of an exact product by a power of ten: the dropped digits decide the rounding (R7). -/
def scaleBy (divisor : Nat) (m : Round) (n : Nat) : Nat :=
  match m with
  | .halfUp => n / divisor + (if divisor ≤ 2 * (n % divisor) then 1 else 0)
  | .truncate => n / divisor
  | .up => n / divisor + (if n % divisor = 0 then 0 else 1)

/-! ### Sale figures (R9 to R11) -/

/-- R9: net weight times price, by 1,000, HALF UP. -/
def saleAmount (net price : Nat) : Nat := scaleBy 1000 .halfUp (net * price)

/-- R10: sale amount times levy rate, by 10,000, TRUNCATE. -/
def levyOf (amount rate : Nat) : Nat := scaleBy 10000 .truncate (amount * rate)

/-- R10: the boat proceeds. -/
def proceedsOf (amount rate : Nat) : Nat := amount - levyOf amount rate

/-- R11: the sum over crate items of count times deposit. -/
def depositSum (is : List CrateItem) : Nat := (is.map fun i => i.count * i.deposit).sum

/-- R11: the buyer charge of a lot; a charge above 999,999,999 carries the indication OVER RANGE (`overRange`). -/
def buyerCharge (net price count deposit : Nat) : Nat := saleAmount net price + count * deposit

def overRange (charge : Nat) : Bool := decide (999999999 < charge)

/-! ### Ice figures (R12 to R14) -/

/-- R12: grams times tariff, by 1,000, UP. -/
def iceHoldAmount (kg tariff : Nat) : Nat := scaleBy 1000 .up (kg * 1000 * tariff)

/-- R13, step 1. -/
def gramsPurchasable (granted tariff : Nat) : Nat := granted * 1000 / tariff

/-- R13, step 2: the whole pulses. 0 is the indication ZERO TARGET. -/
def targetPulses (granted tariff gpp : Nat) : Nat := gramsPurchasable granted tariff / gpp

/-- R13, step 3. -/
def targetGrams (granted tariff gpp : Nat) : Nat := targetPulses granted tariff gpp * gpp

/-- R14: counted grams times tariff, by 1,000, HALF UP. -/
def iceSettleAmount (grams tariff : Nat) : Nat := scaleBy 1000 .halfUp (grams * tariff)

/-! ### Balances (R15 to R19) -/

abbrev balanceMax : Int := 999999999

/-- R15: saturation at the ends of the balance range. -/
def saturate (v : Int) : Int := if balanceMax < v then balanceMax else if v < -balanceMax then -balanceMax else v

/-- R15: whether a balance addition saturates. -/
def saturates (v : Int) : Bool := decide (balanceMax < v) || decide (v < -balanceMax)

/-- The remaining amounts of an account's holds (R16). -/
def heldFunds (holds : List Hold) (acct : Nat) : Nat :=
  ((holds.filter fun h => h.account == acct).map (·.remaining)).sum

/-- R16: balance less the remaining amounts of the account's holds. -/
def availableFunds (holds : List Hold) (a : Account) : Int := a.balance - heldFunds holds a.number

/-- R17: a checked debit is allowed when available funds less it are at least the floor. -/
def debitAllowed (holds : List Hold) (a : Account) (d : Nat) : Bool := decide (a.floor ≤ availableFunds holds a - d)

/-- R19: the granted amount and answer, none when refused for funds. -/
def grantAmount (holds : List Hold) (a : Account) (amount : Nat) (acceptLess : Bool) : Option (Nat × AnsCode) :=
  let spare := availableFunds holds a - a.floor
  if (amount : Int) ≤ spare then some (amount, .granted)
  else if acceptLess && decide (1 ≤ spare) then some (spare.toNat, .grantedLess)
  else none

/-! ### Weighing arithmetic (R116 to R118, R123, R124) -/

/-- Rounded to the nearest, halves away from zero, of `num / den` with `den` above 0. -/
def roundDiv (num : Int) (den : Nat) : Int :=
  let q : Nat := (2 * num.natAbs + den) / (2 * den)
  if num < 0 then -(q : Int) else q

/-- R116: the average of 8 samples. -/
def averageOf (w : List Int) : Int := roundDiv w.sum 8

/-- R117: gross grams, held at plus or minus 999,999,999. -/
def grossOf (f : CalFields) (zero avg : Int) : Int :=
  saturate (roundDiv ((avg - zero) * f.grams) (f.span - zero).toNat)

/-- R118: the nearest multiple of the division, halves away from zero. Of a gross at 999,999,999 g it may have ten digits; what the port then
shows is a free value (log entry 94). -/
def toDivision (f : CalFields) (g : Int) : Int := roundDiv g f.division * f.division

/-- R123: the zero offset in grams, measured from the page's zero. -/
def zeroOffset (f : CalFields) (avg : Int) : Int := roundDiv ((avg - f.zero) * f.grams) (f.span - f.zero).toNat

/-- R124: a tare rounded to the nearest multiple of the division, halves up. -/
def tareToDivision (f : CalFields) (t : Nat) : Nat := (2 * t + f.division) / (2 * f.division) * f.division

end Sys2Proof.Machine
end

