-- ==== Sys2Proof/Machine/State.lean ====
section
/-! DEFINITION. The state of one HN20 as plain data, its state right after reset, and the reasons a step can stop. -/

namespace Sys2Proof.Machine
open Sys2Proof

/-- The whole node: the commands that wait, and the state of each block. `node` is the working copy of the NODE record (R53). -/
structure State where
  pending : List Instr
  sys : Sys
  port : Port
  lif : Lif
  exc : Exc
  book : Book
  store : Store
  node : NodeRec
  wgu : Wgu
  clu : Clu
  icm : Icm
  cgt : Cgt
  deriving DecidableEq, Repr

/-- No step of the HN20 stops the part: the spec answers every case with a code, a count or a state. -/
inductive Fault where
  deriving DecidableEq, Repr

/-- Refusals. -/
inductive Refusal where
  /-- Raised by `exec` for a command without a meaning, by its mnemonic; safe. No arm raises it. -/
  | notModelled (mnemonic : String)
  deriving DecidableEq, Repr

/-- The answer buffer while start-up runs: NONE, no fault, status word with port state STARTING and line state OFFLINE
(R64, R208). -/
def startingAnswer : PAnswer :=
  { status := 0x40000000, code := .none, data := .none, more := false }

/-- The port after start-up has begun (R208). -/
def Port.initial (cause : StartCause) (sent : PAnswer) : Port :=
  { buf := startingAnswer, sent := sent, cause := cause }

/-- The EXC with every place free (R112). Places that have been free since start-up are taken in ascending sequence (log entry 93, DESIGN
CHOICE). -/
def Exc.initial : Exc := { free := List.range 32 }

/-- The book with nothing restored and all 62 watermarks zero (R49). -/
def Book.initial : Book := { marks := List.replicate 62 ⟨0, 0⟩ }

/-- The clock unit after start-up: 32 desks OUT, every input counted as pressed (R154, R164). -/
def Clu.initial : Clu := { desks := List.replicate 32 {}, released := List.replicate 32 0 }

/-- The scale unit with no page in force (R125, R137). -/
def Wgu.initial : Wgu := { offered := { noCal := true } }

/-- A book store as this model takes it from the factory: every slot erased, nothing retired, no calibration page written, unit
serial 1 (log entry 3, DESIGN CHOICE). -/
def Store.factory : Store :=
  { slots := List.replicate 256 { data := .erased, state := .free, retired := false }, serial := 1 }

/-- The machine right after reset: power has been applied to a part with a factory book store, start-up has begun (R64, R208) and
the slot scan is still to end. -/
def State.reset : State :=
  { pending := []
    sys := {}
    port := Port.initial .power startingAnswer
    lif := {}
    exc := Exc.initial
    book := Book.initial
    store := Store.factory
    node := {}
    wgu := Wgu.initial
    clu := Clu.initial
    icm := {}
    cgt := {} }

end Sys2Proof.Machine
end

