-- ==== Sys2Proof/Machine/Flags.lean ====
section
/-! DEFINITION. Flags: the account flags SATURATED and OVERDRAWN (R15, R18), the attention flags and ATN (R199 to R201), and
the status word (section 10.1). -/

namespace Sys2Proof.Machine
open Sys2Proof

/-! ### Account flags -/

/-- Which row of R18's table a change falls under: an unchecked debit (a DRAW, a SETTLE, a negative ADJUST or a negative carried
balance), or a credit or a change without an unchecked debit. -/
inductive DebitKind where | unchecked | other
  deriving DecidableEq, Repr

/-- R18: OVERDRAWN after an applied change. -/
def overdrawnAfter (k : DebitKind) (floor balance : Int) (before : Bool) : Bool :=
  if floor ≤ balance then false
  else match k with
    | .unchecked => true
    | .other => before

/-- R15 and R18: one balance addition with the flags it leaves. -/
def addBalance (k : DebitKind) (change : Int) (a : Account) : Account :=
  let b := saturate (a.balance + change)
  { a with
    balance := b
    saturated := a.saturated || saturates (a.balance + change)
    overdrawn := overdrawnAfter k a.floor b a.overdrawn }

/-! ### Attention flags -/

/-- The bit of a flag in status word bytes 2 and 3 (section 10.3). -/
def flagIndex : Flag → Nat
  | .weighDone => 0
  | .lotEvent => 1
  | .saleEvent => 2
  | .deskEvent => 3
  | .iceDone => 4
  | .batchDone => 5
  | .postingFailed => 6
  | .lineState => 7
  | .storeEvent => 8
  | .conflict => 9
  | .holdDropped => 10
  | .damaged => 11

def flagBit (f : Flag) : BitVec 12 := BitVec.twoPow 12 (flagIndex f)

/-- ATN is driven low while a latched flag is enabled (R201). -/
def atnAsserted (p : Port) : Bool := p.flags &&& p.mask != 0

/-! ### Status word -/

def lineStateCode : LineState → Nat
  | .offline => 0
  | .listen => 1
  | .announce => 2
  | .active => 3
  | .conflict => 4
  | .lineFault => 5

def portFaultCode : PortFault → Nat
  | .none => 0
  | .check => 1
  | .length => 2
  | .timeout => 3

def roleServiceCode : Option Role → Nat
  | none => 0
  | some r => roleCode r

/-- STARTING from the beginning of start-up to the hand-over, and from ERASE STORE to the end of its erasure (R64, R208). -/
def portStarting (s : State) : Bool := s.sys.phase != .running || s.store.erasing.isSome

/-- 0 READY, 1 STARTING, 2 FRESH. -/
def portStateCode (s : State) : Nat := if portStarting s then 1 else if s.port.fresh then 2 else 0

/-- The status word as the answer is composed (section 10.1); byte 0 is bits 31 to 24. -/
def statusWord (s : State) (fault : PortFault) : BitVec 32 :=
  BitVec.ofNat 2 (portStateCode s) ++ BitVec.ofNat 2 (portFaultCode fault) ++ BitVec.ofBool s.port.lock
    ++ BitVec.ofBool (s.port.staged != {}) ++ BitVec.ofBool (atnAsserted s.port) ++ 0#1
    ++ BitVec.ofNat 3 (lineStateCode s.lif.state) ++ BitVec.ofNat 3 (roleServiceCode s.port.role) ++ 0#6 ++ s.port.flags

/-- The value of an answer code: NONE, DONE, ACCEPTED, STAGED are 0 to 3, the others from 4 upward in the alphabetical order of
their names (section 10.1). Which names these are is log entry 10 (DEDUCED); the hyphen of E-STOP sorts before the letters, so that E-STOP
stands before EPOCH EXHAUSTED (log entry 116, DESIGN CHOICE). -/
def codeValue : PCode → Nat
  | .none => 0 | .done => 1 | .accepted => 2 | .staged => 3
  | .badValue => 4 | .batchEmpty => 5 | .bookFull => 6 | .busy => 7 | .calExhausted => 8 | .defer => 9 | .deskNotOut => 10
  | .eStop => 11 | .epochExhausted => 12 | .homeHere => 13 | .identityFault => 14 | .listFull => 15 | .locked => 16
  | .logFull => 17 | .lotsFull => 18 | .moved => 19 | .noAccount => 20 | .noDraft => 21 | .noDraftZero => 22 | .noLot => 23
  | .noReading => 24 | .noSale => 25 | .notActive => 26 | .notCalibrated => 27 | .notClaimed => 28 | .notConfigured => 29
  | .notEmpty => 30 | .notFailed => 31 | .notHalted => 32 | .notIdle => 33 | .notListed => 34 | .notOffline => 35
  | .notOpen => 36 | .notPresented => 37 | .notRunning => 38 | .notWithdrawn => 39 | .numberFixed => 40 | .queueEmpty => 41
  | .roleFixed => 42 | .spanTooSmall => 43 | .storeFault => 44 | .storeFull => 45 | .unknownCommand => 46 | .unstable => 47
  | .wrongRole => 48 | .zeroRange => 49

end Sys2Proof.Machine
end

