-- ==== Sys2Proof/Machine/Wire.lean ====
section
/-! DEFINITION. The bytes of the fields and bodies that a node sends: packed decimal quantities (section 4.2, R72), binary fields
high byte first (section 4.1), and the bodies of the line messages. The fields of a body stand in the order of the rule that names
them; the spec gives the bytes of JOIN, PRESENT and CLASH and the order of LOT's, and leaves those of the others, and the codes of
kinds and indications, open (log entry 77). -/

namespace Sys2Proof.Machine
open Sys2Proof

/-- A binary field of `n` bytes, high byte first. -/
def beBytes : Nat → Nat → List Byte
  | 0, _ => []
  | n + 1, v => beBytes n (v / 256) ++ [BitVec.ofNat 8 (v % 256)]

/-! ### Fields -/

/-- A field whose coding the spec does not give: one byte of a free value (log entries 6 and 77). -/
def coded {α : Type} (x : α) : List Byte := [Config.codeByte x]

/-- A field that may be absent: a byte says whether it is present, and its bytes follow when it is. -/
def optional {α : Type} (f : α → List Byte) : Option α → List Byte
  | some a => coded true ++ f a
  | none => coded false

def accountBytes (a : Nat) : List Byte := writeUnsigned 6 a
def weightBytes (g : Nat) : List Byte := writeUnsigned 7 g
def priceBytes (p : Nat) : List Byte := writeUnsigned 5 p
def countBytes (c : Nat) : List Byte := writeUnsigned 5 c
def amountBytes (a : Nat) : List Byte := writeUnsigned 9 a
def rateBytes (r : Nat) : List Byte := writeUnsigned 4 r

/-- Node numbers, crate types, rings, grades and other small numbers take one byte; epochs, numbers, lifetimes, species and counters
two. -/
def smallBytes (n : Nat) : List Byte := beBytes 1 n
def numBytes (n : Nat) : List Byte := beBytes 2 n

/-- A role's code (R75); UNKNOWN has none in the spec, and is a free value (R84, log entry 6). -/
def roleByte : Option Role → List Byte
  | some r => smallBytes (roleCode r)
  | none => coded (none : Option Role)

def identBytes (i : Ident) : List Byte := smallBytes i.node ++ numBytes i.epoch ++ numBytes i.number

def lotIdBytes (l : LotId) : List Byte := smallBytes l.scale ++ numBytes l.number

/-- R132: the fields of a lot's description, in order. -/
def LotDesc.bytes (d : LotDesc) : List Byte :=
  lotIdBytes d.id ++ accountBytes d.boat ++ smallBytes d.boatHome ++ numBytes d.species ++ smallBytes d.grade ++ weightBytes d.net
    ++ smallBytes d.ctype ++ countBytes d.count ++ smallBytes d.ring ++ smallBytes d.unsold

/-- The values of the answer codes (R98). -/
def AnsCode.value : AnsCode → Nat
  | .done => 1 | .doneAlready => 2 | .lapsed => 3 | .clamped => 4 | .granted => 5 | .grantedLess => 6 | .refusedFunds => 7
  | .refusedNoRoom => 8 | .taken => 9 | .unknown => 10 | .defer => 11 | .moved => 12 | .malformed => 13

def ansCodeBytes (c : AnsCode) : List Byte := smallBytes c.value

/-! ### Postings and requests (R25, R42, R43, R104, R134, R135) -/

def itemBytes (i : CrateItem) : List Byte := smallBytes i.ctype ++ countBytes i.count ++ rateBytes i.deposit

def carriedBytes (h : CarriedHold) : List Byte := identBytes h.key ++ amountBytes h.remaining ++ numBytes h.life

/-- The transfer part without its holds (R25). -/
def transferBytes (t : TransferPart) : List Byte :=
  writeSigned t.balance ++ writeSigned t.floor ++ coded t.saturated ++ coded t.overdrawn ++ countBytes t.unmatched
    ++ t.counts.flatMap countBytes ++ smallBytes t.holds.length

/-- A posting by its parts: identity, kind, account and amount; the crate items, the hold key and the transfer part where the kind has
them; and each carried hold (R25). -/
def Posting.parts (p : Posting) : List (List Byte) :=
  [identBytes p.id ++ coded p.kind ++ accountBytes p.account ++ amountBytes p.amount]
    ++ (if postHasItems p.kind then [smallBytes p.items.length ++ p.items.flatMap itemBytes] else [])
    ++ (match p.holdKey with | some k => [numBytes k.1 ++ numBytes k.2] | none => [])
    ++ (match p.transfer with | some t => transferBytes t :: t.holds.map carriedBytes | none => [])

/-- The body of a request, by its parts. The source node of a hold's key is that of the message (R42). -/
def ReqBody.parts (acct : Option Nat) : ReqBody → List (List Byte)
  | .locate => [accountBytes (acct.getD 0)]
  | .hold k amt less life =>
    [numBytes k.epoch ++ numBytes k.number ++ accountBytes (acct.getD 0) ++ amountBytes amt ++ coded less ++ numBytes life]
  | .release k => [numBytes k.epoch ++ numBytes k.number ++ accountBytes (acct.getD 0)]
  | .post p => p.parts
  | .claim lot => [lotIdBytes lot]
  | .lotReport lot sold => [lotIdBytes lot ++ coded sold]

/-! ### Weights beyond their field -/

/-- The nine digits that show a gross or a net. For one beyond them they show a free value (R118, log entry 94). -/
def shownWeight (v : Int) : Int := if v.natAbs ≤ 999999999 then v else Config.wideWeight v

def signedWeightBytes (v : Int) : List Byte := writeSigned (shownWeight v)

/-- A tare of up to 19,899,900 g (R124) takes eight digits (log entry 6). -/
def tareBytes (g : Nat) : List Byte := writeUnsigned 8 g

/-! ### Answers (R97, R134) -/

def requestCode : ReqKind → Nat
  | .hold => 1
  | .release => 2
  | .post => 3
  | .locate => 4
  | .claim => 5
  | .lotReport => 6

def ReqBody.kind : ReqBody → ReqKind
  | .locate => .locate
  | .hold .. => .hold
  | .release _ => .release
  | .post _ => .post
  | .claim _ => .claim
  | .lotReport .. => .lotReport

def Subject.bytes : Subject → List Byte
  | .account a => accountBytes a
  | .lot id => lotIdBytes id

def AnsData.bytes : AnsData → List Byte
  | .none => []
  | .amount n => amountBytes n
  | .counts cs => cs.flatMap fun c => smallBytes c.1 ++ countBytes c.2
  | .dropped n => smallBytes n
  | .newHome n => smallBytes n
  | .wait tens => smallBytes tens
  | .lot d => d.bytes
  | .holder n => smallBytes n

/-! ### Messages (section 4.1) -/

/-- The kind code of a message (table of section 4.1). -/
def MsgBody.kindCode : MsgBody → Nat
  | .clash .. => 1
  | .answer .. => 1
  | .home _ => 2
  | .request _ b => requestCode b.kind
  | .join .. => 1
  | .present .. => 2
  | .opened _ => 3
  | .lot _ => 4

/-- The body of a message from node `src`. -/
def MsgBody.bytes (src : Nat) : MsgBody → List Byte
  | .join role ring serial epoch => smallBytes src ++ roleByte role ++ smallBytes ring ++ beBytes 6 serial ++ numBytes epoch
  | .present role ring => roleByte role ++ smallBytes ring
  | .clash n j o => smallBytes n ++ beBytes 6 j ++ beBytes 6 o
  | .opened a => accountBytes a
  | .home a => accountBytes a
  | .answer k sub c d => smallBytes (requestCode k) ++ sub.bytes ++ ansCodeBytes c ++ d.bytes
  | .request acct b => (b.parts acct).flatten
  | .lot d => d.bytes

/-- The message proper, check included (section 4.1). -/
def wireMessage (cls : MsgClass) (kind src dst seq : Nat) (body : List Byte) : List Byte :=
  let bs := [BitVec.ofNat 8 (64 * cls.code + kind % 64), BitVec.ofNat 8 (src % 64), BitVec.ofNat 8 (dst % 64),
    BitVec.ofNat 8 (seq % 32), BitVec.ofNat 8 body.length] ++ body
  bs ++ beBytes 2 (lineCheck bs).toNat

/-- What a node `src` puts on LTX for a message: the arbitration code, then the message proper (section 4.1). -/
def Msg.onLine (src : Nat) (m : Msg) : List Byte :=
  arbitrationCode m.cls src :: wireMessage m.cls m.body.kindCode src m.dst m.seq (m.body.bytes src)

/-- The account that an answer to a request with a malformed account field names: the number that its digits spell, and where they
spell none a free value, since a node writes decimal digits only (R72, log entry 78). -/
def badAccount (f : Field) : Nat := (readUnsigned 6 f).getD (Config.badSubject f)

end Sys2Proof.Machine
end

