-- ==== Sys2Proof/Machine/Layout.lean ====
section
/-! DEFINITION. The data of a port answer as bytes (section 10.1, R196, R203). Quantities of R1 travel packed as section 4.2 has them,
and a reading's gross and net in the signed nine-digit layout (R125); numbers travel in binary, high byte first. The fields stand in
the order of the rule that lists them, in whole field groups: a record or a collection's entry is one group. That order, the widths of
binary numbers and the codes of states are the model's choice (log entry 6). -/

namespace Sys2Proof.Machine
open Sys2Proof

/-! ### Fields -/

def optNode : Option Nat → List Byte := optional smallBytes
def optAmount : Option Nat → List Byte := optional amountBytes
def optIdent : Option Ident → List Byte := optional identBytes
def optWeight : Option Int → List Byte := optional signedWeightBytes

/-- A signed binary number in two's complement. -/
def intBytes (n : Nat) (v : Int) : List Byte := beBytes n (v % (256 : Int) ^ n).toNat

/-- Which of its constructors a state is, apart from what the state carries. -/
def AcctState.bytes : AcctState → List Byte
  | .moved n => coded (AcctState.moved 0) ++ smallBytes n
  | x => coded x

def LotState.bytes : LotState → List Byte
  | .claimed n => coded (LotState.claimed 0) ++ smallBytes n
  | x => coded x

/-- A last answer: NONE has no code in the spec, and is a free value (R96, log entry 6). -/
def LastAns.bytes : LastAns → List Byte
  | .code c => ansCodeBytes c
  | .noAnswer => coded LastAns.noAnswer

def PCode.bytes (c : PCode) : List Byte := smallBytes (codeValue c)

/-! ### Records of the book, the EXC and the LIF -/

/-- R20: the kind follows from the account number. -/
def Account.kind (a : Account) : AcctKind := if isBuyer a.number then .buyer else .boat

/-- R20: all fields of the record in the order of the rule's table; the new home stands with the state MOVED. -/
def Account.bytes (a : Account) : List Byte :=
  accountBytes a.number ++ coded a.kind ++ a.state.bytes ++ writeSigned a.balance ++ writeSigned a.floor ++ a.crates.flatMap countBytes
    ++ countBytes a.unmatched ++ coded a.saturated ++ coded a.overdrawn ++ optIdent a.last ++ beBytes 4 a.writes

/-- R41. -/
def Hold.bytes (h : Hold) : List Byte :=
  identBytes h.key ++ accountBytes h.account ++ amountBytes h.granted ++ amountBytes h.remaining ++ numBytes h.life

/-- The issuing unit and its reference (R89). -/
def Ref.bytes (r : Ref) : List Byte :=
  coded r ++ match r with
    | .batchLocate e n | .batchPost e n => numBytes e ++ numBytes n
    | .deskHold d => smallBytes d
    | .claim lot | .unsold lot => lotIdBytes lot
    | .salePosts n | .saleEndReport n | .saleReissue n => numBytes n
    | .salePart n p => numBytes n ++ coded p
    | .settle k => identBytes k
    | .transfer a => accountBytes a
    | .weighLocate | .orderLocate | .orderHold | .cluRelease | .icmRelease => []

/-- The milliseconds left on an entry's running timer (R89): of its answer or its wait, or of its search. -/
def Entry.timeLeft (e : Entry) : Option Nat :=
  match e.deadline, e.search with
  | some n, _ => some n
  | none, some (.window _ _ _ n) | none, some (.waiting _ n) | none, some (.openWait n) => some n
  | none, _ => none

/-- R89: the fields of an entry, then its body by its parts. -/
def Entry.groups (e : Entry) : List (List Byte) :=
  (smallBytes e.seq ++ smallBytes (requestCode e.body.kind) ++ e.ref.bytes ++ optional accountBytes e.account ++ optNode e.dest
    ++ coded e.openIfNone ++ smallBytes e.sends ++ smallBytes e.deferrals ++ smallBytes e.moves ++ optional numBytes e.timeLeft
    ++ optional LastAns.bytes e.last ++ coded e.state ++ optIdent e.replaced) :: e.body.parts e.account

/-- R100. -/
def Capture.bytes (c : Capture) : List Byte :=
  smallBytes c.seq ++ coded c.kind ++ accountBytes c.account ++ smallBytes c.dest ++ identBytes c.id ++ c.last.bytes

/-- R66: the condition is RECOVERED where a copy was restored. -/
def Damaged.bytes (d : Damaged) : List Byte := accountBytes d.acct ++ beBytes 4 d.newest ++ optional (beBytes 4) d.restored

/-- R84: node, role, ring and age in seconds. -/
def peerBytes (p : Nat × Option Role × Nat × Nat) : List Byte :=
  smallBytes p.1 ++ roleByte p.2.1 ++ smallBytes p.2.2.1 ++ smallBytes p.2.2.2

/-! ### Records of the role units -/

/-- R131. -/
def Lot.bytes (l : Lot) : List Byte :=
  numBytes l.number ++ accountBytes l.boat ++ smallBytes l.boatHome ++ numBytes l.species ++ smallBytes l.grade ++ smallBytes l.ring
    ++ weightBytes l.net ++ smallBytes l.ctype ++ countBytes l.count ++ smallBytes l.unsold ++ l.state.bytes ++ coded l.noRing
    ++ optional numBytes l.offer

/-- R138. -/
def LotEventRec.bytes (e : LotEventRec) : List Byte := numBytes e.lot ++ coded e.event ++ optNode e.clock

/-- R125: the sample counter, the conditions of R119, the average, the gross, the tare and the net, and the number of the page in force
(R120). Gross and net take the signed nine-digit layout; the tare stands whole (R124). -/
def Reading.bytes (r : Reading) (page : Nat) : List Byte :=
  numBytes r.ctr ++ coded r.noCal ++ coded r.noReading ++ coded r.stable ++ coded r.tooHeavy ++ coded r.moving
    ++ optional (intBytes 3) r.average ++ optWeight r.gross ++ optional tareBytes r.tare ++ optWeight r.net ++ smallBytes page

/-- R130. -/
def WeighResult.bytes (r : WeighResult) : List Byte :=
  coded r.code ++ optional numBytes r.lot ++ accountBytes r.boat ++ optNode r.boatHome ++ optWeight r.gross ++ optWeight r.tare
    ++ optWeight r.net

/-- R122, R133: the command of a scale command result, with its lot. -/
def ScaleCmd.bytes : ScaleCmd → List Byte
  | .calWrite => coded ScaleCmd.calWrite
  | .releaseLot n => coded (ScaleCmd.releaseLot 0) ++ numBytes n
  | .reoffer n => coded (ScaleCmd.reoffer 0) ++ numBytes n
  | .delete n => coded (ScaleCmd.delete 0) ++ numBytes n

def Figures.bytes (f : Figures) : List Byte := priceBytes f.start ++ priceBytes f.floor ++ priceBytes f.step ++ numBytes f.tick

/-- R165. -/
def clockEventBytes (e : ClockEvent × Option LotId) : List Byte := coded e.1 ++ optional lotIdBytes e.2

/-- R158. -/
def SaleRec.bytes (r : SaleRec) : List Byte :=
  numBytes r.number ++ lotIdBytes r.lot ++ numBytes r.species ++ smallBytes r.grade ++ accountBytes r.boat ++ smallBytes r.boatHome
    ++ accountBytes r.buyer ++ smallBytes r.buyerHome ++ smallBytes r.desk ++ identBytes r.key ++ weightBytes r.net
    ++ priceBytes r.price ++ amountBytes r.amount ++ amountBytes r.levy ++ amountBytes r.proceeds ++ amountBytes r.charge
    ++ smallBytes r.ctype ++ countBytes r.count ++ rateBytes r.deposit ++ coded r.drawPart ++ coded r.salePart ++ coded r.reportPart
    ++ coded r.posted ++ optional countBytes r.movedCrates ++ coded r.collected

/-- R165: the sale number and the event. -/
def saleEventBytes (e : Nat × SaleEvent) : List Byte := numBytes e.1 ++ coded e.2

/-- R149, R150: the code of the last desk event. -/
def DeskEvent.bytes : DeskEvent → List Byte
  | .answer c => coded (DeskEvent.answer .done) ++ ansCodeBytes c
  | .refused c => coded (DeskEvent.refused .none) ++ c.bytes
  | x => coded x

/-- R149: whether the desk holds a grant, so that its granted amount and allowance are present. -/
def Desk.hasGrant (d : Desk) : Bool := d.state == .inn || d.state == .suspended || d.state == .lapsed

/-- R149: granted and allowance are absent in OUT and ASKING. -/
def Desk.bytes (d : Desk) : List Byte :=
  coded d.state ++ optional accountBytes d.buyer ++ optNode d.home ++ optIdent d.key
    ++ optAmount (if d.hasGrant then some d.granted else none) ++ optAmount (if d.hasGrant then some d.allowance else none)
    ++ numBytes d.purchases ++ d.last.bytes

/-- R167. -/
def OrderShown.bytes (o : OrderShown) : List Byte :=
  accountBytes o.account ++ rateBytes o.kg ++ coded o.acceptLess ++ rateBytes o.tariff ++ rateBytes o.gpp ++ optAmount o.holdAmount
    ++ optIdent o.key ++ optNode o.home ++ optAmount o.granted ++ optional ansCodeBytes o.grantCode
    ++ optional (beBytes 4) o.targetPulses ++ optional weightBytes o.targetGrams ++ optional coded o.auger
    ++ optional (beBytes 4) o.pulses ++ optional weightBytes o.grams ++ optional (beBytes 4) o.checkpoint ++ optional coded o.cause
    ++ optAmount o.settle

/-- The outcome shown by a late record (R177, R193). -/
def LateCode.bytes : LateCode → List Byte
  | .answer c => ansCodeBytes c
  | x => coded x

def LateSettle.bytes (l : LateSettle) : List Byte :=
  identBytes l.key ++ accountBytes l.account ++ amountBytes l.settle ++ l.code.bytes

def countPairs (cs : List (Nat × Nat)) : List Byte := smallBytes cs.length ++ cs.flatMap fun c => smallBytes c.1 ++ countBytes c.2

/-- R184: the fields that are present from OPEN, when the home stands, besides the tags. -/
def Batch.readBytes (b : Batch) : List Byte :=
  b.counts.flatMap countBytes ++ numBytes b.duplicates ++ numBytes b.rejected ++ numBytes b.refusedFull

/-- The batch's number, kind and account, which R184 and R192 name first. -/
def Batch.headBytes (b : Batch) : List Byte := numBytes b.number ++ coded b.kind ++ accountBytes b.account

/-- Its home, what has been read, its amount and its posting identity, as R184 and R192 go on. -/
def Batch.tailBytes (b : Batch) : List Byte :=
  optNode b.home ++ optional Batch.readBytes (if b.home.isSome then some b else none) ++ optAmount b.amount ++ optIdent b.id

/-- R184: the batch record without its tags. -/
def Batch.bytes (b : Batch) : List Byte := b.headBytes ++ b.deposits.flatMap rateBytes ++ b.tailBytes

/-- A tag: its serial and its crate type (R184). -/
def tagBytes (t : Nat × Nat) : List Byte := beBytes 3 t.1 ++ smallBytes t.2

/-- The tags of a batch in order of reading, after their count (R184). -/
def tagGroups : Option Batch → List (List Byte)
  | some b => smallBytes b.tags.length :: b.tags.map tagBytes
  | Option.none => []

/-- R192: the result shows the fields that the rule lists; the deposits of the batch are not among them. -/
def BatchResult.bytes (r : BatchResult) : List Byte :=
  coded r.code ++ r.batch.headBytes ++ r.batch.tailBytes ++ optional countPairs r.refunded
    ++ optional (fun xs => smallBytes xs.length ++ xs.flatMap fun x => smallBytes x.1 ++ amountBytes x.2) r.refunds
    ++ optAmount r.refund

/-- R193. -/
def LateBatch.bytes (l : LateBatch) : List Byte :=
  numBytes l.epoch ++ numBytes l.number ++ coded l.kind ++ accountBytes l.account ++ identBytes l.id ++ l.code.bytes
    ++ optional countPairs l.refunded

/-! ### Counters and configuration -/

def LifCounters.bytes (c : LifCounters) : List Byte :=
  [c.sent, c.received, c.checkErrors, c.formatErrors, c.malformed, c.notAddressed, c.notForRole, c.notRouted, c.contentionLosses,
    c.lineErrors, c.consecErrors, c.dropped, c.deferrals, c.reserveOverflows, c.peersRemoved].flatMap numBytes

def ExcCounters.bytes (c : ExcCounters) : List Byte :=
  [c.sends, c.timeouts, c.unmatched, c.defers, c.failed, c.moved, c.reidents, c.searches, c.noHome, c.replacements].flatMap numBytes

def BookCounters.bytes (c : BookCounters) : List Byte :=
  [c.duplicates, c.lapsedAnswers, c.lapsedHolds, c.droppedHolds, c.droppedNotices, c.storeRefusals].flatMap numBytes

def StoreCounters.bytes (c : StoreCounters) : List Byte :=
  beBytes 4 c.corrected ++ [c.unreadable, c.recovered, c.lost, c.writeRetries, c.eraseFailures, c.storeFull, c.storeFaults, c.refreshes].flatMap
    numBytes

def WguCounters.bytes (c : WguCounters) : List Byte :=
  [c.sampleErrors, c.sampleLosses, c.missed, c.weighsDone, c.weighsFailed, c.droppedReqs, c.claimsGranted, c.claimsTaken,
    c.staleReports].flatMap numBytes

def CluCounters.bytes (c : CluCounters) : List Byte :=
  [c.otherRing, c.claimsMade, c.claimsGranted, c.claimsTaken, c.claimsFailed, c.ticks, c.noSales, c.withdrawals, c.presses,
    c.idlePresses, c.latePresses, c.refusedStops, c.sales, c.lapsedDesks, c.releaseFailures, c.reissued, c.unsettled].flatMap numBytes

def IcmCounters.bytes (c : IcmCounters) : List Byte :=
  [c.accepted, c.cancelled, c.done, c.failed, c.stops, c.emergencies, c.stalls, c.noise, c.stray, c.overRange, c.failedCkpts,
    c.releaseFailures, c.lateSettles, c.restored].flatMap numBytes

def CgtCounters.bytes (c : CgtCounters) : List Byte :=
  [c.tagErrors, c.unbatched, c.duplicates, c.rejected, c.refusedFull, c.excess, c.shortfall, c.done, c.failed, c.cancelled,
    c.late].flatMap numBytes

/-- R36: the book command result. -/
def BookResult.bytes (r : BookResult) : List Byte := coded r.cmd ++ accountBytes r.acct ++ r.code.bytes

/-- R204: the fields of a configuration record, each where it is set. -/
def Cfg.bytes (c : Cfg) : List Byte :=
  optNode c.nodeNumber ++ optional (fun r => smallBytes (roleCode r)) c.role ++ optNode c.ring ++ optional rateBytes c.levy
    ++ optional writeSigned c.boatFloor ++ optional rateBytes c.tariff ++ optional rateBytes c.gpp
    ++ optional (fun rows => rows.flatMap fun (r : CrateRow) => weightBytes r.tare ++ rateBytes r.deposit) c.crates ++ optNode c.lineRate

/-! ### Answers -/

/-- R203: the entries of a collection, each whole. -/
def ListData.entries : ListData → List (List Byte)
  | .accounts l => l.map Account.bytes
  | .holds l => l.map Hold.bytes
  | .lots l => l.map Lot.bytes
  | .claims l => l.map lotIdBytes
  | .sales l => l.map SaleRec.bytes
  | .desks l => l.map Desk.bytes
  | .outbound l => l.map fun e => e.groups.flatten
  | .homeMap l => l.map fun e => accountBytes e.1 ++ smallBytes e.2
  | .peers l => l.map peerBytes
  | .blocked l => l.map (beBytes 3)
  | .tags l => l.map tagBytes

/-- The position after the last entry of a READ LIST, or END, in three bytes (R203). -/
def nextBytes : Option Nat → List Byte
  | some n => coded true ++ numBytes n
  | none => coded false ++ numBytes 0

/-- The whole field groups of an answer's data, byte 0 of a read apart. The next posting number and the hold-number counter, which run to
65,536, take three bytes each (log entry 6, DESIGN CHOICE). -/
def PData.groups : PData → List (List Byte)
  | .none => []
  | .account a => [a.bytes]
  | .hold h => [h.bytes]
  | .lot l => [l.bytes]
  | .lotDesc d => [d.bytes]
  | .lotEvent e => [optional LotEventRec.bytes e]
  | .clock st price head figs queue inFlight =>
    [coded st ++ optional priceBytes price, optional LotDesc.bytes head ++ optional Figures.bytes figs, smallBytes queue.length]
      ++ queue.map LotDesc.bytes ++ [smallBytes inFlight]
  | .clockEvent e => [optional clockEventBytes e]
  | .sale r => [r.bytes]
  | .saleEvent e => [optional saleEventBytes e]
  | .entry e => e.groups
  | .capture c => [optional Capture.bytes c]
  | .damaged l more => smallBytes l.length :: l.map Damaged.bytes ++ [numBytes more]
  | .peers l => smallBytes l.length :: l.map peerBytes
  | .reading r page => [r.bytes page]
  | .weighResult r cmd =>
    [optional WeighResult.bytes r, optional (fun (c : ScaleCmd × PCode) => c.1.bytes ++ c.2.bytes) cmd]
  | .order st o => [coded st, optional OrderShown.bytes o]
  | .orderResult r => [optional (fun (r : OrderCode × OrderShown) => coded r.1 ++ r.2.bytes) r]
  | .lateSettle r => [optional LateSettle.bytes r]
  | .batch st b => [coded st, optional Batch.bytes b] ++ tagGroups b
  | .batchResult r => [optional BatchResult.bytes r]
  | .lateBatch r => [optional LateBatch.bytes r]
  | .desk d => [d.bytes]
  | .line st last rate c => [smallBytes (lineStateCode st), coded last, optNode rate, c.bytes]
  | .exchange c states nextPosting holdNo => [c.bytes, states.flatMap smallBytes, beBytes 3 nextPosting, beBytes 3 holdNo]
  | .book c r => [c.bytes, optional BookResult.bytes r]
  | .store c slots calCount serial epoch es =>
    [c.bytes, slots.flatMap numBytes, smallBytes calCount, beBytes 6 serial, numBytes epoch ++ coded es]
  | .scale c ctr calCount => [c.bytes, numBytes ctr, smallBytes calCount]
  | .clockCounters c => [c.bytes]
  | .ice c => [c.bytes]
  | .gate c pool pend => [c.bytes, pool.flatMap countBytes, pend.flatMap (intBytes 4)]
  | .port c cause mask flags lock =>
    [[c.check, c.length, c.timeout].flatMap numBytes, coded cause, numBytes mask.toNat, coded lock, numBytes flags.toNat]
  | .configuration cfg staged fixed role => [cfg.bytes, staged.bytes, smallBytes fixed, roleByte role]
  | .list d next => d.entries ++ [nextBytes next]

/-- As many whole field groups as fit in `n` bytes. -/
def fitGroups : Nat → List (List Byte) → List (List Byte)
  | _, [] => []
  | n, g :: gs => if g.length ≤ n then g :: fitGroups (n - g.length) gs else []

/-- R203: how many of a collection's entries fit whole in one answer, beside the position that follows them. -/
def ListData.fit (d : ListData) : Nat := (fitGroups 247 d.entries).length

/-- The data of a read, whose byte 0 says whether more remains (R203). SHOW, DESK IN and DESK OUT are no reads, and READ LIST answers
with whole entries that fit. -/
def PData.isRead : PData → Bool
  | .none | .lotDesc _ | .desk _ | .list .. => false
  | _ => true

/-- R203: whether the data of a read is cut at its last whole field group, so that more remains. -/
def PData.more (d : PData) : Bool := d.isRead && (fitGroups 249 d.groups).length != d.groups.length

/-- The data bytes of an answer, 250 at most (section 10.1, R203). -/
def PData.bytes (d : PData) : List Byte :=
  if d.isRead then Config.moreByte d.more :: (fitGroups 249 d.groups).flatten else (fitGroups 250 d.groups).flatten

/-- Bytes 0 to 5 + M of PDO: status word, answer code, data length, data. -/
def PAnswer.head (a : PAnswer) : List Byte :=
  beBytes 4 a.status.toNat ++ [BitVec.ofNat 8 (codeValue a.code), BitVec.ofNat 8 a.data.bytes.length] ++ a.data.bytes

/-- The answer buffer as PDO sends it: bytes 0 to 5 + M and the check over them, high byte first. -/
def PAnswer.bytes (a : PAnswer) : List Byte := a.head ++ beBytes 2 (lineCheck a.head).toNat

/-- R196: what a frame of `n` bytes carries out: the answer buffer from byte 0, and bytes of 0 after its last check byte. -/
def PAnswer.sent (a : PAnswer) (n : Nat) : List Byte := (a.bytes ++ List.replicate n 0).take n

end Sys2Proof.Machine
end

