-- ==== Sys2Proof/Machine/Ops.lean ====
section
/-! DEFINITION. The named operations over the state that the blocks share: one block's update, counters, timers, attention flags,
placing a message with the Line Interface (R76, R77), placing a request with the Book Store (R54), and the frame of a station
port command (R196 to R199). -/

namespace Sys2Proof.Machine
open Sys2Proof

/-! ### Updates of one block -/

def State.onSys (f : Sys → Sys) (s : State) : State := { s with sys := f s.sys }
def State.onPort (f : Port → Port) (s : State) : State := { s with port := f s.port }
def State.onLif (f : Lif → Lif) (s : State) : State := { s with lif := f s.lif }
def State.onExc (f : Exc → Exc) (s : State) : State := { s with exc := f s.exc }
def State.onBook (f : Book → Book) (s : State) : State := { s with book := f s.book }
def State.onStore (f : Store → Store) (s : State) : State := { s with store := f s.store }
def State.onNode (f : NodeRec → NodeRec) (s : State) : State := { s with node := f s.node }
def State.onWgu (f : Wgu → Wgu) (s : State) : State := { s with wgu := f s.wgu }
def State.onClu (f : Clu → Clu) (s : State) : State := { s with clu := f s.clu }
def State.onIcm (f : Icm → Icm) (s : State) : State := { s with icm := f s.icm }
def State.onCgt (f : Cgt → Cgt) (s : State) : State := { s with cgt := f s.cgt }

/-- This node's number, the NODE record's; 0 until a JOIN fixes it (R206). -/
def State.self (s : State) : Nat := s.node.number

def State.lineActive (s : State) : Bool := s.lif.state == .active

def State.inService (s : State) (r : Role) : Bool := s.port.role == some r

/-! ### Counters, numbers and timers -/

/-- A counter of 0 to 65,535 that stays at 65,535 when reached (R50, R61, R88, R113, R138, R165, R180, R195, R207). -/
def bumpBy (k n : Nat) : Nat := min 65535 (n + k)
def bump (n : Nat) : Nat := bumpBy 1 n

/-- A number of 1 to 65,535 that passes from 65,535 to 1 (R129, R159, R184). -/
def nextNumber (n : Nat) : Nat := if n = 65535 then 1 else n + 1

/-- The first number from `n` on, passing from 65,535 to 1, that is not in use (R129, R158); `fuel` bounds the search by the
count of numbers in use. -/
def freeNumber (used : List Nat) : Nat → Nat → Nat
  | 0, n => n
  | fuel + 1, n => if used.contains n then freeNumber used fuel (nextNumber n) else n

/-- One millisecond of a timer (00 section 3, TMB). -/
def tickTimer (t : Timer) : Timer := t.map (· - 1)

/-- A timer that has run out, its event not yet taken. -/
def due (t : Timer) : Bool := t == some 0

/-! ### Attention flags -/

/-- A block raises a flag and the STP latches it (R199). During start-up no flag is latched (R201): what start-up raises is latched
at the hand-over. -/
def raise (f : Flag) (s : State) : State :=
  if s.sys.phase = .running then s.onPort fun p => { p with flags := p.flags ||| flagBit f }
  else s.onSys fun y => { y with lateFlags := y.lateFlags ||| flagBit f }

/-! ### Placing a message (R76, R77) -/

def MsgClass.le (a b : MsgClass) : Bool := a.code ≤ b.code

/-- A message takes its place behind those of its class and of lower classes (R76). -/
def insertMsg (m : Msg) : List Msg → List Msg
  | [] => [m]
  | x :: xs => if x.cls.le m.cls then x :: insertMsg m xs else m :: x :: xs

/-- The fate of a placing (R76). -/
inductive Placed where | taken | waits | lineDown
  deriving DecidableEq, Repr

/-- A message takes its place in the send queue, with the stamp of its placing. -/
def enqueueMsg (m : Msg) (s : State) : State :=
  s.onLif fun l => { l with queue := insertMsg { m with stamp := l.stamp } l.queue, stamp := l.stamp + 1 }

/-- Room for one more message: waiting messages come first (R76: the earliest block to have begun waiting). -/
def sendRoom (s : State) : Bool := s.lif.queue.length + s.lif.wait.length < 24

/-- R76: what a placing meets. ACTIVE takes it while there is room, and the block waits otherwise; in ANNOUNCE only the LIF's
JOIN is taken; in every other line state it is refused LINE DOWN. -/
def placingOf (m : Msg) (s : State) : Placed :=
  match s.lif.state with
  | .active => if sendRoom s then .taken else .waits
  | .announce => (match m.body with | .join .. => .taken | _ => .lineDown)
  | _ => .lineDown

/-- R76: a placing. `ends` says what the block has in hand until the message is placed or refused. -/
def placeMsg (ends : Ends) (m : Msg) (s : State) : State :=
  match placingOf m s with
  | .taken => enqueueMsg m s
  | .waits => s.onLif fun l => { l with wait := l.wait ++ [⟨m, ends⟩] }
  | .lineDown => s

def newMsg (cls : MsgClass) (dst seq : Nat) (body : MsgBody) (block : Block) (tok : Nat) : Msg :=
  ⟨cls, dst, seq, body, block, 0, tok, 0⟩

/-- The OPENED notice for an account, to all nodes (R37, R45). -/
def openedMsg (acct : Nat) : Msg := newMsg .notice 0 0 (.opened acct) .book 0

/-- An ANSWER to the source of a request, echoing its sequence (R23, R71). -/
def answerMsg (block : Block) (dst seq : Nat) (k : ReqKind) (sub : Subject) (c : AnsCode) (d : AnsData) : Msg :=
  newMsg .answer dst seq (.answer k sub c d) block 0

def isClash (m : Msg) : Bool := match m.body with | .clash .. => true | _ => false

/-- The newest message of the reserve that is no CLASH. -/
def newestNonClash (ms : List Msg) : Option Msg :=
  (ms.filter fun m => !isClash m).foldl (fun acc m => match acc with
    | none => some m
    | some x => if x.stamp < m.stamp then some m else some x) none

/-- R77: a message joins the answer reserve. A DEFER or UNKNOWN is not composed when the reserve holds 4; a CLASH takes the place
of the newest DEFER or UNKNOWN, and is not composed when the reserve holds 4 CLASH messages. `isDefer` raises the deferral
count of a DEFER composed. -/
def reserveMsg (isDefer : Bool) (m : Msg) (s : State) : State :=
  let l := s.lif
  let put (res : List Msg) (extra : Nat) : Lif :=
    { l with reserve := res ++ [{ m with stamp := l.stamp }], stamp := l.stamp + 1
             cnt := { l.cnt with reserveOverflows := bumpBy extra l.cnt.reserveOverflows
                                 deferrals := if isDefer then bump l.cnt.deferrals else l.cnt.deferrals } }
  if l.reserve.length < 4 then { s with lif := put l.reserve 0 }
  else if isClash m then
    match newestNonClash l.reserve with
    | some x => { s with lif := put (l.reserve.filter fun y => y.stamp != x.stamp) 1 }
    | none => s.onLif fun l => { l with cnt := { l.cnt with reserveOverflows := bump l.cnt.reserveOverflows } }
  else s.onLif fun l => { l with cnt := { l.cnt with reserveOverflows := bump l.cnt.reserveOverflows } }

/-- The reserve's DEFER(50 ms) to a request that meets a full incoming queue (R77). -/
def reserveDefer (h : Hdr) (k : ReqKind) (sub : Subject) : State → State :=
  reserveMsg true (answerMsg .lif h.src h.seq k sub .defer (.wait 5))

/-- A malformed notice or answer is dropped and counted (R2, R88). -/
def countMalformed (s : State) : State :=
  s.onLif fun l => { l with cnt := { l.cnt with malformed := bump l.cnt.malformed } }

/-! ### Placing a store request (R54) -/

/-- R182: the pool update that is placed now: working counts plus pending change, clamped, with the change it carries after
clamping; the clamped crates are counted and the pending change returns to zero. -/
def poolClamp (v : Int) : Nat := if 65535 < v then 65535 else v.toNat

def poolNew (s : State) : List Nat := List.zipWith (fun (p : Nat) (c : Int) => poolClamp (p + c)) s.node.pool s.cgt.pend

def poolCarried (s : State) : List Int :=
  List.zipWith (fun (p : Nat) (c : Int) => (poolClamp (p + c) : Int) - p) s.node.pool s.cgt.pend

def poolExcess (s : State) : Nat := (List.zipWith (fun (p : Nat) (c : Int) => ((p : Int) + c - 65535).toNat) s.node.pool s.cgt.pend).sum

def poolShortfall (s : State) : Nat := (List.zipWith (fun (p : Nat) (c : Int) => (-((p : Int) + c)).toNat) s.node.pool s.cgt.pend).sum

/-- A request takes its place on the request list. A pool update is decided here (R182). -/
def listRequest (r : Request) (s : State) : State :=
  match r.owner with
  | .pool _ =>
    let r' : Request := ⟨.pool (poolCarried s), .group [.node (.pool (poolNew s))]⟩
    { s with
      store := { s.store with list := s.store.list ++ [r'] }
      cgt := { s.cgt with
        pend := List.replicate 8 0
        cnt := { s.cgt.cnt with excess := bumpBy (poolExcess s) s.cgt.cnt.excess
                                shortfall := bumpBy (poolShortfall s) s.cgt.cnt.shortfall } } }
  | _ => s.onStore fun st => { st with list := st.list ++ [r] }

/-- Room on the request list for one more: requests that became pending earlier come first (R54). -/
def listRoom (s : State) : Bool := s.store.list.length + s.store.pend.length < 8

/-- R54: a unit places a request; at a full list it stays pending in the unit. After an accepted ERASE STORE it is discarded
(R70). -/
def placeStore (r : Request) (s : State) : State :=
  if s.store.erasing.isSome then s
  else if listRoom s then listRequest r s
  else s.onStore fun st => { st with pend := st.pend ++ [r] }

/-- A commit group of some writes. -/
def placeGroup (o : Owner) (ws : List RecWrite) : State → State := placeStore ⟨o, .group ws⟩

/-- A removal of one record. -/
def placeRemoval (o : Owner) (k : RecKey) : State → State := placeStore ⟨o, .removal k⟩

/-! ### Station port frames (R196 to R199) -/

/-- Composes the answer to a frame into the answer buffer, with the status word as it stands (section 10.1, R196). -/
def compose (code : PCode) (data : PData) (s : State) : State :=
  { s with port := { s.port with
      buf := { status := statusWord s .none, code := code, data := data, more := data.more }
      fresh := false } }

/-- The waiting reading becomes the offered reading when a read ends (R125). -/
def releaseRead (s : State) : State :=
  if s.wgu.reading then
    s.onWgu fun w => { w with
      reading := false
      offered := match w.waiting with | some r => r | none => w.offered
      waiting := none }
  else s

/-- A frame carries out the answer buffer as it stands when the frame starts, and a READ READING answer carried ends its read
(R125, R196). -/
def carryAnswer (s : State) : State := releaseRead (s.onPort fun p => { p with sent := p.buf })

/-- What a command's owner answers: a code and the data it carries. -/
structure Reply where
  code : PCode
  data : PData := .none

/-- The answer NONE without data (R197, R198). -/
def bareAnswer (s : State) (f : PortFault) : PAnswer := { status := statusWord s f, code := .none, data := .none, more := false }

/-- A frame taken as a command (R196, R198). The port's own checks come in the order of R198: STARTING, argument length, role unit
in service; then the owner. Without supply no frame reaches the part. -/
def frame (ok : Bool) (role : Option Role) (owner : State → State × Reply) (s : State) : State :=
  if s.sys.phase = .off then s
  else
    let s := carryAnswer s
    if portStarting s then s.onPort fun p => { p with buf := bareAnswer s .none }
    else if !ok then compose .badValue .none s
    else if role.isSome && role != s.port.role then compose .wrongRole .none s
    else
      let r := owner s
      compose r.2.code r.2.data r.1

/-- An owner that only answers. -/
def replyOnly (f : State → Reply) (s : State) : State × Reply := (s, f s)

/-- An owner's refusal: no state changes. -/
def refuse (c : PCode) (s : State) : State × Reply := (s, ⟨c, .none⟩)

/-- An owner that changes the state and answers a bare code. -/
def finish (c : PCode) (s : State) : State × Reply := (s, ⟨c, .none⟩)

/-- A frame that is not taken as a command: its command is not executed, the buffer becomes NONE with the fault, and the port
counts the fault (R197, R207). Its answer may be the first composed after the hand-over, which carries FRESH (R208). -/
def faultedFrame (f : PortFault) (s : State) : State :=
  if s.sys.phase = .off then s
  else
    let s := carryAnswer s
    let s := s.onPort fun p => { p with cnt := match f with
      | .check => { p.cnt with check := bump p.cnt.check }
      | .length => { p.cnt with length := bump p.cnt.length }
      | .timeout => { p.cnt with timeout := bump p.cnt.timeout }
      | .none => p.cnt }
    s.onPort fun p => { p with buf := bareAnswer s f, fresh := false }

end Sys2Proof.Machine
end

