-- ==== Sys2Proof/Machine/Postings.lean ====
section
/-! DEFINITION. What each change does to an account record and to the hold table (chapter 2, sections 2.4 to 2.6), as functions on
plain records: the BOOK applies them to its working copies and the STORE composes the records from them (R56). -/

namespace Sys2Proof.Machine
open Sys2Proof

/-! ### Crate counts -/

/-- The crates of a type that a record holds; types 1 to 8. -/
def crateCount (cs : List Nat) (ty : Nat) : Nat := cs.getD (ty - 1) 0

def setCrates (cs : List Nat) (ty n : Nat) : List Nat := cs.set (ty - 1) n

/-- An addition of crates that would pass 65,535 leaves 65,535 (R20). -/
def addCrates (a b : Nat) : Nat := min 65535 (a + b)

/-- The crates of an item that the record holds: the smaller of the item's count and the count held (R29, R33). -/
def cratesMet (cs : List Nat) (i : CrateItem) : Nat := min i.count (crateCount cs i.ctype)

/-- The crates met of each item, as the answers carry them (R28). -/
def metCounts (cs : List Nat) (is : List CrateItem) : List (Nat × Nat) := is.map fun i => (i.ctype, cratesMet cs i)

/-- The deposits of the crates met (R29, R33). -/
def metDeposits (cs : List Nat) (is : List CrateItem) : Nat := (is.map fun i => cratesMet cs i * i.deposit).sum

/-- Lowers each item's count by the crates met. -/
def takeCrates (cs : List Nat) (is : List CrateItem) : List Nat :=
  is.foldl (fun acc i => setCrates acc i.ctype (crateCount acc i.ctype - cratesMet cs i)) cs

/-- Adds each item's count, clamped (R30, R32). -/
def giveCrates (cs : List Nat) (is : List CrateItem) : List Nat :=
  is.foldl (fun acc i => setCrates acc i.ctype (addCrates (crateCount acc i.ctype) i.count)) cs

/-! ### The posting kinds (R29 to R34) -/

/-- R29. -/
def applySale (p : Posting) (a : Account) : Account :=
  { addBalance .other (p.amount + metDeposits a.crates p.items : Nat) a with
    crates := takeCrates a.crates p.items
    unmatched := p.items.foldl (fun u i => addCrates u (i.count - cratesMet a.crates i)) a.unmatched }

/-- R30. -/
def applyDraw (p : Posting) (a : Account) : Account :=
  { addBalance .unchecked (-(p.amount : Int)) a with crates := giveCrates a.crates p.items }

/-- R31. A SETTLE of 0 cents leaves the record unchanged. -/
def applySettle (p : Posting) (a : Account) : Account :=
  if p.amount = 0 then a else addBalance .unchecked (-(p.amount : Int)) a

/-- R32: the debit was checked when the posting was decided (R17). -/
def applyIssue (p : Posting) (a : Account) : Account :=
  { addBalance .other (-(p.amount : Int)) a with crates := giveCrates a.crates p.items }

/-- R33. -/
def applyReturn (p : Posting) (a : Account) : Account :=
  { addBalance .other (metDeposits a.crates p.items : Nat) a with crates := takeCrates a.crates p.items }

/-- R34: the carried flags are combined first, then R15 and R18. A negative carried balance is an unchecked debit. -/
def applyTransfer (t : TransferPart) (a : Account) : Account :=
  { addBalance (if t.balance < 0 then .unchecked else .other) t.balance
      { a with saturated := a.saturated || t.saturated, overdrawn := a.overdrawn || t.overdrawn } with
    crates := List.zipWith addCrates a.crates t.counts
    unmatched := addCrates a.unmatched t.unmatched }

/-- A posting's effect on its account, with the identity it leaves (R27). -/
def applyPosting (p : Posting) (a : Account) : Account :=
  let b := match p.kind with
    | .sale => applySale p a
    | .draw => applyDraw p a
    | .settle => applySettle p a
    | .issue => applyIssue p a
    | .ret => applyReturn p a
    | .transfer => (match p.transfer with | some t => applyTransfer t a | none => a)
  { b with last := some p.id }

/-- R33: whether every item of a RETURN is refunded in full. One with no items, or with every count 0, is (log entry 64). -/
def refundedInFull (a : Account) (is : List CrateItem) : Bool := is.all fun i => cratesMet a.crates i == i.count

/-! ### The other changes -/

/-- R37: the new record. -/
def newAccount (n : Nat) (floor : Int) : Account :=
  { number := n, state := .opened, balance := 0, floor := floor, crates := List.replicate 8 0, unmatched := 0,
    saturated := false, overdrawn := false, last := none, writes := 0 }

/-- R38. -/
def applyAdjust (amount : Int) (a : Account) : Account :=
  addBalance (if amount < 0 then .unchecked else .other) amount a

/-- R48: a stub keeps the number, the last posting identity and the write count. -/
def toStub (home : Nat) (a : Account) : Account :=
  { a with state := .moved home, balance := 0, floor := 0, crates := List.replicate 8 0, unmatched := 0, saturated := false,
           overdrawn := false }

/-- R46 to R48: a change of the record's state. -/
def applyState (st : AcctState) (a : Account) : Account :=
  match st with
  | .moved h => toStub h a
  | _ => { a with state := st }

/-- A change of an account record, as the write of its commit carries it. -/
def applyAcct (c : AcctChange) (a : Account) : Account :=
  match c with
  | .create floor => newAccount a.number floor
  | .post p => applyPosting p a
  | .adjust amt => applyAdjust amt a
  | .clearFlags => { a with saturated := false }
  | .setState st => applyState st a

/-! ### The account table (R21) -/

def findAccount (as : List Account) (n : Nat) : Option Account := as.find? fun a => a.number == n

/-- R20: a record in the account table of 128. -/
def putAccount (a : Account) (as : List Account) : List Account := putKeyed (·.number) 128 a as

def dropAccount (n : Nat) (as : List Account) : List Account := as.filter fun a => a.number != n

/-! ### The hold table (R35, R41) -/

def findHold (hs : List Hold) (k : Ident) : Option Hold := hs.find? fun h => h.key == k

def dropHold (k : Ident) (hs : List Hold) : List Hold := hs.filter fun h => h.key != k

/-- R30: a DRAW that finds its hold lowers it, and removes it at 0. -/
def drawHold (k : Ident) (amount : Nat) (hs : List Hold) : List Hold :=
  hs.filterMap fun h =>
    if h.key = k then
      (if h.remaining ≤ amount then none else some { h with remaining := h.remaining - amount })
    else some h

/-- R35: the carried holds are adopted in the order carried; the table, and how many are dropped. A key that stands already is
neither adopted nor counted; once the table is full every later hold with a new key is dropped. -/
def adoptHolds (acct : Nat) : List CarriedHold → List Hold → List Hold × Nat
  | [], hs => (hs, 0)
  | c :: cs, hs =>
    if (findHold hs c.key).isSome then adoptHolds acct cs hs
    else if hs.length < 24 then adoptHolds acct cs (hs ++ [⟨c.key, acct, c.remaining, c.remaining, c.life, 0⟩])
    else
      let r := adoptHolds acct cs hs
      (r.1, r.2 + 1)

/-- The holds of an account, as a TRANSFER carries them (R46). -/
def carryHolds (acct : Nat) (hs : List Hold) : List CarriedHold :=
  (hs.filter fun h => h.account == acct).map fun h => ⟨h.key, h.remaining, h.life⟩

/-- The hold key that a DRAW or SETTLE names: the posting's origin node with the carried epoch and number (R30). -/
def postHoldKey (p : Posting) : Option Ident := p.holdKey.map fun k => ⟨p.id.node, k.1, k.2⟩

/-- The transfer part that carries an account's record and holds (R46). -/
def transferPart (a : Account) (hs : List Hold) : TransferPart :=
  { balance := a.balance, floor := a.floor, saturated := a.saturated, overdrawn := a.overdrawn, unmatched := a.unmatched,
    counts := a.crates, holds := carryHolds a.number hs }

/-! ### Watermarks (R26) -/

def markOf (ms : List Mark) (node : Nat) : Mark := ms.getD (node - 1) ⟨0, 0⟩

/-- Applying a posting raises its origin's watermark to the identity. -/
def raiseMark (id : Ident) (ms : List Mark) : List Mark := ms.set (id.node - 1) id.mark

end Sys2Proof.Machine
end

