-- ==== Sys2Proof/Machine/Store.lean ====
section
/-! DEFINITION. The Book Store (chapter 3): slots and the slot map, the composing of records, the operations of a request and of
the background work, and the beginning of start-up. What a request's outcome does in its unit stands in Outcomes.lean. -/

namespace Sys2Proof.Machine
open Sys2Proof

/-! ### Slots (R51, R52) -/

/-- The index of the first slot from `i` on that satisfies `p`. -/
def findSlot (p : Slot → Bool) : List Slot → Nat → Option Nat
  | [], _ => none
  | x :: xs, i => if p x then some i else findSlot p xs (i + 1)

def lowest (p : Slot → Bool) (st : Store) : Option Nat := findSlot p st.slots 0

/-- Whether a slot's header names a record. -/
def headerNames (k : RecKey) (x : Slot) : Bool :=
  match x.data with
  | .copy c _ _ => c.key == k
  | _ => false

def isFree (x : Slot) : Bool := x.state == .free
def isDirty (x : Slot) : Bool := x.state == .dirty
def isCurrentOf (k : RecKey) (x : Slot) : Bool := x.state == .current && headerNames k x

/-- The CURRENT slot of a record. -/
def currentSlot (st : Store) (k : RecKey) : Option Nat := lowest (isCurrentOf k) st

/-- The CURRENT copy of a record. -/
def currentCopy (st : Store) (k : RecKey) : Option Copy :=
  match st.slots.find? (isCurrentOf k) with
  | some ⟨.copy c _ _, _, _⟩ => some c
  | _ => none

/-- The write count of the CURRENT copy, 0 when there is none. -/
def currentCount (st : Store) (k : RecKey) : Nat :=
  match currentCopy st k with
  | some c => c.wc
  | none => 0

def countState (x : SlotState) (st : Store) : Nat := (st.slots.filter fun y => y.state == x).length

/-- FREE + DIRTY (R57). -/
def spareSlots (st : Store) : Nat := countState .free st + countState .dirty st

def Store.onSlot (i : Nat) (f : Slot → Slot) (st : Store) : Store := { st with slots := st.slots.modify i f }

/-- The bodies of the CURRENT copies. -/
def currentBodies (st : Store) : List RecBody :=
  st.slots.filterMap fun x => match x.state, x.data with
    | .current, .copy c _ _ => some c.body
    | _, _ => none

/-- R61: STORE_EVENT when FREE + DIRTY falls from 9 to 8. -/
def noteFall (before : Nat) (s : State) : State :=
  if before = 9 ∧ spareSlots s.store = 8 then raise .storeEvent s else s

/-- R52, R61: a slot is retired, with its entry in the retire map. -/
def retireSlot (i : Nat) (s : State) : State :=
  raise .storeEvent (s.onStore fun st => st.onSlot i fun x => { x with state := .retired, retired := true })

/-! ### Composing a record (R53, R55, R56) -/

/-- R160 to R163: a change of a SALE record. -/
def applySaleChange (c : SaleChange) (r : SaleRec) : SaleRec :=
  match c with
  | .posted => { r with posted := true }
  | .part .draw st _ _ => { r with drawPart := st }
  | .part .sale st moved _ => { r with salePart := st, movedCrates := match moved with | some m => some m | none => r.movedCrates }
  | .part .report st _ _ => { r with reportPart := st }
  | .collected => { r with collected := true }

/-- R160: once the update of `posted` has been placed, any later update of the record carries posted set. -/
def withPosted (e : Sale) : SaleRec := if e.postedPlaced then { e.entry with posted := true } else e.entry

/-- The NODE record with a change (R53). -/
def applyNodeChange (c : NodeChange) (n : NodeRec) : NodeRec :=
  match c with
  | .startEpoch e => { n with epoch := e, nextPosting := 1 }
  | .number k => { n with number := k }
  | .nextPosting k => { n with nextPosting := k }
  | .epochNext e k => { n with epoch := e, nextPosting := k }
  | .nextLot k => { n with nextLot := k }
  | .nextSale k => { n with nextSale := k }
  | .pool p => { n with pool := p }

/-- The QUEUE record's lots with a change. -/
def applyQueueChange (c : QueueChange) (q : List LotDesc) : List LotDesc :=
  match c with
  | .append d => q ++ [d]
  | .drop id => q.filter fun d => d.id != id

/-- The lot of the lot table as its record keeps it (R131): NO RING and the offer timer are working states. -/
def lotRecord (l : Lot) : Lot := { l with noRing := false, offer := none }

/-- The key of the record that a write makes. -/
def writeKey : RecWrite → RecKey
  | .account n _ => .account n
  | .origin _ => .origin
  | .node _ => .node
  | .outbound o => .outbound o.posting.id.epoch o.posting.id.number
  | .lotCreate l => .lot l.number
  | .lotUpdate n _ _ => .lot n
  | .queue _ => .queue
  | .saleCreate r => .sale r.number
  | .saleUpdate n _ => .sale n
  | .iceCreate _ | .iceCheckpoint .. => .iceOrder
  | .refresh c => c.key

/-- A new TRANSFER carries its account's record and holds as they stand when its OUTBOUND write is composed (R46, log entry
67); a re-identified one carries what it carried (R110). -/
def fillTransfer (s : State) (p : Posting) : Posting :=
  match p.kind, p.transfer with
  | .transfer, none =>
    (match findAccount s.book.accounts p.account with
     | some a => { p with transfer := some (transferPart a s.book.holds) }
     | none => p)
  | _, _ => p

/-- The working copy of the ICE ORDER record of the order with a hold key; once that order has ended, what the store holds of it
(R175). -/
def orderCopy (s : State) (key : Option Ident) : OrderRec :=
  match s.icm.order.filter (·.key == key), currentCopy s.store .iceOrder with
  | some o, _ => o
  | none, some ⟨_, _, _, .iceOrder o⟩ => o
  | none, _ => default

/-- The body that a write carries: the working copy as it stands, with the changed fields at their new values (R56). A refresh carries the contents
of the copy that it repeats (R60), for the ORIGIN record too, whose working copy may stand higher (log entry 104, DEDUCED). -/
def composeBody (s : State) (wc : Nat) : RecWrite → RecBody
  | .account n c =>
    let a := (findAccount s.book.accounts n).getD (newAccount n 0)
    .account { applyAcct c a with writes := wc }
  | .origin id => .origin (raiseMark id s.book.marks)
  | .node c => .node (applyNodeChange c s.node)
  | .outbound o => .outbound { o with posting := fillTransfer s o.posting }
  | .lotCreate l => .lot (lotRecord l)
  | .lotUpdate n st u =>
    .lot (lotRecord { ((s.wgu.lots.find? fun l => l.number == n).getD default) with state := st, unsold := u })
  | .queue c => .queue (applyQueueChange c s.clu.queue)
  | .saleCreate r => .sale r
  | .saleUpdate n c =>
    .sale (match s.clu.sales.find? fun e => e.entry.number == n with
      | some e => applySaleChange c (withPosted e)
      | none => default)
  | .iceCreate o => .iceOrder o
  | .iceCheckpoint key p => .iceOrder { orderCopy s key with checkpoint := p }
  | .refresh c =>
    (match c.body with
     | .account a => .account { a with writes := wc }
     | b => b)

/-- The copy that a write puts in its slot: a write count one above that of the CURRENT copy, or 1 for a creation, and the epoch
in force (R55). -/
def composeCopy (s : State) (w : RecWrite) : Copy :=
  let wc := currentCount s.store (writeKey w) + 1
  ⟨writeKey w, wc, s.sys.epoch, composeBody s wc w⟩

/-- R57: whether a write is a creation subject to the reserve: no CURRENT copy, and neither ORIGIN nor NODE. -/
def reservedCreation (st : Store) (w : RecWrite) : Bool :=
  (currentSlot st (writeKey w)).isNone && !(writeKey w == .origin || writeKey w == .node)

/-- R57: whether the reserve refuses a group. -/
def reserveRefuses (st : Store) (ws : List RecWrite) : Bool :=
  let n := (ws.filter (reservedCreation st)).length
  decide (0 < n) && decide (spareSlots st < 8 + n)

/-! ### Ending a request (R54, R58, R61) -/

/-- What a step of the STORE leaves, and the outcome it delivers. -/
abbrev StoreEnd := State × Option (Owner × StoreRes)

/-- R58, R61: the count and the STORE_EVENT of a request that ends STORE FULL or STORE FAULT. -/
def countResult (r : StoreRes) (s : State) : State :=
  match r with
  | .done => s
  | .full _ => raise .storeEvent (s.onStore fun st => { st with cnt := { st.cnt with storeFull := bump st.cnt.storeFull } })
  | .fault _ => raise .storeEvent (s.onStore fun st => { st with cnt := { st.cnt with storeFaults := bump st.cnt.storeFaults } })

/-- The request in progress ends and leaves the list; a refresh is no request and delivers nothing (R54, R60). -/
def endRequest (r : StoreRes) (s : State) : StoreEnd :=
  let st := s.store
  if st.listed then
    (countResult r (s.onStore fun st => { st with cur := none, listed := false, idx := 0, op := none, list := st.list.tail }),
      st.cur.map fun q => (q.owner, r))
  else
    (s.onStore fun st => { st with cur := none, idx := 0, op := none, cnt := { st.cnt with
        refreshes := match r with | .done => bump st.cnt.refreshes | _ => st.cnt.refreshes } }, none)

def setOp (o : StoreOp) (s : State) : State := s.onStore fun st => { st with op := some o }

/-! ### One record write (R55) -/

/-- The write in hand. -/
def currentWrite (s : State) : Option RecWrite :=
  match s.store.cur with
  | some ⟨_, .group ws⟩ => ws[s.store.idx]?
  | _ => none

/-- R55: an attempt takes the lowest-numbered FREE slot; without one the lowest-numbered DIRTY slot is erased first; without
either the write ends STORE FULL. An update past the last write count ends STORE FAULT without an attempt. -/
def beginWrite (attempt : Nat) (w : RecWrite) (s : State) : StoreEnd :=
  let st := s.store
  if 4294967295 ≤ currentCount st (writeKey w) then endRequest (.fault st.idx) s
  else match lowest isFree st with
    | some i => (setOp (.write i (composeCopy s w) attempt) s, none)
    | none =>
      match lowest isDirty st with
      | some i => (setOp (.erase i .room attempt) s, none)
      | none => endRequest (.full st.idx) s

/-- Goes on with the write at the group's index, or ends the group DONE. -/
def nextWrite (attempt : Nat) (s : State) : StoreEnd :=
  match currentWrite s with
  | some w => beginWrite attempt w s
  | none => endRequest .done s

/-- R110: a posting's entry takes the fresh identity of a re-identification, with sends and deferrals at 0; one that has it keeps it. -/
def Entry.renamed (id : Ident) (e : Entry) : Entry :=
  match e.body with
  | .post p =>
    if p.id = id then e
    else { e with body := .post { p with id := id }, replaced := some p.id, sends := 0, deferrals := 0 }
  | _ => e

/-- R56, R110: the OUTBOUND write of a re-identification has ended DONE. The EXC acts on it when the outcome of the group reaches it. -/
def noteRenamed (s : State) : State :=
  match s.exc.work with
  | some (.reident seq id) =>
    s.onExc fun x => { x with entries := x.entries.map fun e => if e.seq = seq then e.renamed id else e }
  | _ => s

/-- The working copies that change with the write itself (R56): the NODE record, an updated SALE record, the OUTBOUND record of a
re-identification, and a refreshed account's write count. -/
def noteWritten (w : RecWrite) (c : Copy) (s : State) : State :=
  match w, c.body with
  | .node _, .node n => { s with node := n }
  | .saleUpdate n _, .sale r =>
    s.onClu fun c => { c with sales := c.sales.map fun e => if e.entry.number = n then { e with entry := r } else e }
  | .outbound _, _ => noteRenamed s
  | .refresh _, .account a =>
    s.onBook fun b => { b with accounts := b.accounts.map fun x => if x.number = a.number then { x with writes := c.wc } else x }
  | _, _ => s

/-- R55: a verify that passes. The new slot becomes CURRENT and the record's previous CURRENT slot DIRTY. -/
def slotWritten (i : Nat) (c : Copy) (s : State) : State :=
  noteFall (spareSlots s.store) <| s.onStore fun st =>
    let st := match currentSlot st c.key with
      | some j => st.onSlot j fun x => { x with state := .dirty }
      | none => st
    st.onSlot i fun x => { x with data := .copy c true false, state := .current }

/-- R55: a verify that fails retires the slot and counts a write retry. -/
def slotFailed (i : Nat) (s : State) : State :=
  retireSlot i (s.onStore fun st => { st with cnt := { st.cnt with writeRetries := bump st.cnt.writeRetries } })

/-! ### Removal (R59) -/

/-- R59: the DIRTY slots of the record in slot order, then its CURRENT slot, which is DIRTY from the beginning of its erase. -/
def nextRemoval (k : RecKey) (s : State) : StoreEnd :=
  match lowest (fun x => isDirty x && headerNames k x) s.store with
  | some i => (setOp (.erase i .older 1) s, none)
  | none =>
    match currentSlot s.store k with
    | some i =>
      (setOp (.erase i .last 1) (s.onStore fun st => st.onSlot i fun x => { x with state := .dirty }), none)
    | none => endRequest .done s

/-- R52, R59, R61: the end of an erase: FREE, or RETIRED with the erase failure counted. -/
def slotErased (i : Nat) (verified : Bool) (s : State) : State :=
  if verified then s.onStore fun st => st.onSlot i fun x => { x with data := .erased, state := .free }
  else retireSlot i (s.onStore fun st => { st with cnt := { st.cnt with eraseFailures := bump st.cnt.eraseFailures } })

/-! ### Calibration pages (R62) -/

/-- A bad page is spent: its mark is written, or the last scan could not correct it (R62; whether that scan writes the mark is log entry 102,
DESIGN CHOICE). -/
def CalPage.spent (p : CalPage) : Bool := p.marked || !p.readable

/-- Whether a page counts as written (R62): it is written or spent. -/
def CalPage.taken (p : CalPage) : Bool := p.fields.isSome || p.spent

/-- A page written and valid (R62). -/
def CalPage.good (p : CalPage) : Bool := p.fields.isSome && !p.spent

/-- R62: the calibration count, the number of pages written or spent. -/
def calCount (st : Store) : Nat := (st.pages.filter (·.taken)).length

/-- R122, R62: the calibration in force: the highest-numbered page that is written and valid. -/
def calInForce (st : Store) : Option CalFields := ((st.pages.filter (·.good)).getLast?).bind (·.fields)

/-- R62: the lowest-numbered unwritten page becomes `p`. -/
def writePage (p : CalPage) : List CalPage → List CalPage
  | [] => []
  | x :: xs => if x.taken then x :: writePage p xs else p :: xs

/-! ### Start-up begins (R64, R83, R208) -/

/-- What a write cut off leaves in its slot: the free value of log entry 5. -/
def cutWrite (n : Nat) (c : Copy) (x : Slot) : Slot :=
  match Config.writeCut n with
  | .untouched => x
  | .torn => { x with data := .torn }
  | .whole => { x with data := .copy c true false }

/-- An erase cut off leaves a slot that does not read as a valid copy (R59). -/
def cutErase (x : Slot) : Slot :=
  match x.data with
  | .copy c _ k => { x with data := .copy c false k }
  | _ => x

/-- What a cut-off write of the lowest-numbered unwritten page leaves (R122): the free value of log entry 5. -/
def cutPage (n : Nat) (f : CalFields) (ps : List CalPage) : List CalPage :=
  match Config.calCut n with
  | .written => writePage { fields := some f } ps
  | .spent => writePage { fields := some f, marked := true } ps
  | .unwritten => ps

/-- The operation in progress is abandoned part-way (R64). -/
def cutOperation (s : State) : State :=
  let next := s.onSys fun y => { y with free := y.free + 1 }
  match s.store.op with
  | none => s
  | some (.write i c _) => next.onStore fun st => { st.onSlot i (cutWrite s.sys.free c) with op := none }
  | some (.erase i _ _) => next.onStore fun st => { st.onSlot i cutErase with op := none }
  | some (.calPage f) => next.onStore fun st => { st with op := none, pages := cutPage s.sys.free f st.pages }

/-- Everything held outside the store at its value of start-up; the store's slots, pages, serial and damaged list stand, and the
pins keep their levels (R64, R83, R208). -/
def clearWorking (cause : StartCause) (phase : Phase) (s : State) : State :=
  { State.reset with
    pending := s.pending
    sys := { s.sys with phase := phase, epoch := 0, epochState := .notTaken, lateFlags := 0 }
    port := Port.initial cause s.port.sent
    store := { slots := s.store.slots, pages := s.store.pages, serial := s.store.serial, serialOk := s.store.serialOk
               damaged := s.store.damaged, damagedMore := s.store.damagedMore } }

/-- R64: start-up begins, and is held at its beginning while RESETN stays low. -/
def beginStartUp (cause : StartCause) (s : State) : State :=
  clearWorking cause (if s.sys.resetLow then .held else .scanning) (cutOperation s)

/-! ### ERASE STORE (R70) -/

/-- The erasure goes on at slot `i`, which counts as DIRTY under its erase (R52), or, past the last slot, start-up follows with start
cause ERASE. -/
def eraseFrom (i : Nat) (s : State) : State :=
  match findSlot (fun x => x.state != .retired) (s.store.slots.drop i) i with
  | some j => s.onStore fun st =>
    { st.onSlot j fun x => { x with state := .dirty } with erasing := some j, op := some (.erase j .erasure 1) }
  | none => beginStartUp .erase (s.onStore fun st => { st with op := none })

/-- R70: an accepted ERASE STORE discards the requests; from then on the port is STARTING (R208). -/
def markErasure (s : State) : State :=
  s.onStore fun st =>
    { st with list := [], pend := [], cur := none, listed := false, idx := 0, refresh := [], erasing := some 0 }

/-- R70: the operation in progress is let end; without one the erasure begins. -/
def goErase (s : State) : State :=
  match s.store.op with
  | some _ => s
  | none => eraseFrom 0 s

/-! ### The STORE's steps -/

/-- Whether the STORE works: with power, after the scan, and not held. -/
def storeRuns (s : State) : Bool := s.sys.phase == .running || s.sys.phase == .epochCommit

/-- R54, R57: with no operation in progress the STORE takes the oldest request and starts its first operation. -/
def takeRequest (s : State) : StoreEnd :=
  if !storeRuns s || s.store.erasing.isSome || s.store.op.isSome || s.store.cur.isSome then (s, none)
  else match s.store.list with
    | [] => (s, none)
    | r :: _ =>
      let s := s.onStore fun st => { st with cur := some r, listed := true, idx := 0 }
      match r.work with
      | .group ws => if reserveRefuses s.store ws then endRequest (.full 0) s else nextWrite 1 s
      | .removal k => nextRemoval k s
      | .calPage f => if calCount s.store < 4 then (setOp (.calPage f) s, none) else endRequest (.fault 0) s

/-- R55, R58, R70: a write's verify ends. -/
def writeEnd (verified : Bool) (s : State) : StoreEnd :=
  match s.store.op with
  | some (.write i c attempt) =>
    if s.store.erasing.isSome then
      (eraseFrom 0 (if verified then slotWritten i c s else slotFailed i s), none)
    else if verified then
      let w := currentWrite s
      let s := slotWritten i c s
      let s := match w with | some w => noteWritten w c s | none => s
      nextWrite 1 (s.onStore fun st => { st with idx := st.idx + 1, op := none })
    else
      let s := slotFailed i s
      if attempt < 3 then nextWrite (attempt + 1) (s.onStore fun st => { st with op := none })
      else endRequest (.fault s.store.idx) s
  | _ => (s, none)

/-- R55, R59, R60, R70: an erase's verify ends. -/
def eraseEnd (verified : Bool) (s : State) : StoreEnd :=
  match s.store.op with
  | some (.erase i why attempt) =>
    let s := slotErased i verified s
    if s.store.erasing.isSome then (eraseFrom (if why = .erasure then i + 1 else 0) s, none)
    else
      let s := s.onStore fun st => { st with op := none }
      match why, s.store.cur with
      | .room, _ => nextWrite attempt s
      | .older, some ⟨_, .removal k⟩ => nextRemoval k s
      | .last, _ => endRequest .done s
      | _, _ => (s, none)
  | _ => (s, none)

/-- R62: the verify of the lowest-numbered unwritten page ends. It counts as written in both cases; a failed verify writes its bad mark. -/
def calPageEnd (verified : Bool) (s : State) : StoreEnd :=
  match s.store.op with
  | some (.calPage f) =>
    let s := s.onStore fun st => { st with op := none, pages := writePage { fields := some f, marked := !verified } st.pages }
    if s.store.erasing.isSome then
      (eraseFrom 0 (if verified then s else raise .storeEvent s), none)
    else endRequest (if verified then .done else .fault 0) s
  | _ => (s, none)

/-- R60: the CURRENT copies that the last scan corrected and that no newer copy has superseded. -/
def dueRefresh (st : Store) : List Nat :=
  st.refresh.filter fun i => match st.slots[i]? with
    | some ⟨.copy _ _ true, .current, _⟩ => true
    | _ => false

/-- R60: background work, with an empty request list and no operation in progress: a refresh first, else one erase. Of
several copies the one in the lowest-numbered slot is refreshed first (log entry 103, DESIGN CHOICE). -/
def backgroundStart (s : State) : State :=
  let st := s.store
  if s.sys.phase != .running || st.erasing.isSome || st.op.isSome || st.cur.isSome || !st.list.isEmpty then s
  else match dueRefresh st with
    | i :: rest =>
      (match st.slots[i]? with
       | some ⟨.copy c _ _, _, _⟩ =>
         (nextWrite 1 (s.onStore fun st => { st with refresh := rest, cur := some ⟨.refresh, .group [.refresh c]⟩
                                                     listed := false, idx := 0 })).1
       | _ => s)
    | [] =>
      match lowest isDirty st with
      | some i => setOp (.erase i .background 1) s
      | none => s

end Sys2Proof.Machine
end

