-- ==== Sys2Proof/Machine/Exc.lean ====
section
/-! DEFINITION. The Exchange Controller below the units (chapter 5): the outbound table, the order of sending, the home map, the
resolution of a destination and the creation of entries. What an outcome does in its unit, and the taking of answers, timeouts and
the ends of searches, stand in Outcomes.lean and Answers.lean. -/

namespace Sys2Proof.Machine
open Sys2Proof

/-! ### Entries -/

def ReqBody.isPost : ReqBody → Bool
  | .post _ => true
  | _ => false

def ReqBody.posting : ReqBody → Option Posting
  | .post p => some p
  | _ => none

/-- A LOCATE, HOLD or RELEASE is resolved by the EXC (R91). -/
def ReqBody.resolves : ReqBody → Bool
  | .locate | .hold .. | .release _ => true
  | _ => false

def Entry.isPost (e : Entry) : Bool := e.body.isPost
def Entry.ident (e : Entry) : Option Ident := e.body.posting.map (·.id)

/-- The role whose unit issued a request; none for the BOOK (R89). -/
def Ref.role : Ref → Option Role
  | .weighLocate => some .scale
  | .orderLocate | .orderHold | .icmRelease | .settle _ => some .ice
  | .batchLocate .. | .batchPost .. => some .gate
  | .deskHold _ | .cluRelease | .claim _ | .unsold _ | .salePosts _ | .saleEndReport _ | .saleReissue _ | .salePart .. => some .clock
  | .transfer _ => none

/-- Whether the issuing unit of a request is in service (R102). -/
def unitInService (s : State) (r : Ref) : Bool :=
  match r.role with
  | some x => s.inService x
  | none => true

def findEntry (s : State) (seq : Nat) : Option Entry := s.exc.entries.find? fun e => e.seq == seq

/-- R89: a new entry takes its place in sequence order. -/
def putEntryIn (e : Entry) (es : List Entry) : List Entry := insertKeyed (·.seq) e es

/-- The entry of a sequence takes new fields. -/
def setEntryIn (e : Entry) (es : List Entry) : List Entry := es.map fun x => if x.seq = e.seq then e else x

/-! ### The order of sending (R94, R95) -/

/-- A POST that holds back another of its destination: SENT, DEFERRED or FAILED, or QUEUED with a smaller identity (R94). -/
def holdsBack (e x : Entry) : Bool :=
  x.isPost && x.seq != e.seq && x.dest == e.dest &&
    (x.state == .sent || x.state == .deferred || x.state == .failed ||
      (x.state == .queued && !x.committing &&
        (match x.ident, e.ident with | some a, some b => a.lt b | _, _ => false)))

/-- R94: whether an entry may be sent. A posting under re-identification is not sent (R110). -/
def mayBeSent (es : List Entry) (e : Entry) : Bool :=
  e.state == .queued && !e.committing && (!e.isPost || es.all fun x => !holdsBack e x)

/-- R95: entries that became ready earlier stand first, those that became ready together in sequence order. -/
def refreshReady (s : State) : State :=
  s.onExc fun x =>
    let now := if s.lineActive then (x.entries.filter (mayBeSent x.entries)).map (·.seq) else []
    { x with ready := x.ready.filter (now.contains ·) ++ now.filter fun q => !x.ready.contains q }

/-- An entry of the table takes new fields. -/
def putEntry (e : Entry) (s : State) : State :=
  refreshReady (s.onExc fun x => { x with entries := setEntryIn e x.entries })

/-- An entry's place is freed and is the last to be taken again (R89). -/
def freePlace (seq : Nat) (s : State) : State :=
  if (findEntry s seq).isSome then
    refreshReady (s.onExc fun x => { x with entries := x.entries.filter fun e => e.seq != seq, free := x.free ++ [seq] })
  else s

/-! ### The home map (R107) -/

def mapFind (m : List (Nat × Nat)) (acct : Nat) : Option Nat := (m.find? fun p => p.1 == acct).map (·.2)

/-- An account's entry takes a node and becomes the most recently used; in a full map the least recently used goes. -/
def mapEnter (acct node : Nat) (s : State) : State :=
  if node = s.self then s
  else s.onExc fun x =>
    let rest := x.homeMap.filter fun p => p.1 != acct
    if rest.length < 16 then { x with homeMap := (acct, node) :: rest }
    else { x with homeMap := (acct, node) :: rest.take 15, cnt := { x.cnt with replacements := bump x.cnt.replacements } }

def mapRemove (acct : Nat) (s : State) : State :=
  s.onExc fun x => { x with homeMap := x.homeMap.filter fun p => p.1 != acct }

/-- A MOVED(n) is followed: to another node, the map's entry takes it; to this node, the map's entry is removed. -/
def mapMoved (acct node : Nat) (s : State) : State :=
  if node = s.self then mapRemove acct s else mapEnter acct node s

/-! ### The BOOK's incoming queue, as the EXC reaches it (R22) -/

/-- Room in the incoming request queue: waiting requests of the own EXC come first. -/
def bookRoom (s : State) : Bool := s.book.queue.length + s.book.wait.length < 16

def bookEnter (r : BookReq) (s : State) : State := s.onBook fun b => { b with queue := b.queue ++ [r] }

/-- A request of the own EXC, or a local opening: it enters the queue or waits for it. -/
def bookEnterOwn (r : BookReq) (s : State) : State :=
  if bookRoom s then bookEnter r s else s.onBook fun b => { b with wait := b.wait ++ [r] }

/-- What an entry asks of the own book; none for the kinds the book does not take. -/
def ownAsk (e : Entry) : Option BookAsk :=
  match e.body, e.account with
  | .post p, _ => some (.post (.ok p))
  | .hold k amt less life, some a => some (.hold (.ok ⟨k, a, amt, less, life⟩))
  | .release k, some a => some (.release (.ok ⟨k, a⟩))
  | _, _ => none

/-! ### Sending (R95, R104) -/

/-- R113: a request has been placed with the LIF or handed to the own book. -/
def countSend (s : State) : State := s.onExc fun x => { x with cnt := { x.cnt with sends := bump x.cnt.sends } }

/-- The next send takes a token of its own. -/
def takeToken (s : State) : State := s.onExc fun x => { x with tok := x.tok + 1 }

/-- A request of the EXC is placed with the LIF; one that waits for a slot counts as a send when it is placed (R76, R95, R113). -/
def placeRequest (m : Msg) (s : State) : State :=
  match placingOf m s with
  | .taken => countSend (enqueueMsg m s)
  | _ => placeMsg .nothing m s

/-- A request is handed to the own book; one that waits for the book's queue counts as a send when it enters (R95, R113). -/
def handToBook (r : BookReq) (s : State) : State := bookEnterOwn r (if bookRoom s then countSend s else s)

/-- R95: a send. The entry is SENT, its sends rise by 1, and the request goes to the LIF or to the own book. A placing refused
LINE DOWN returns the entry to QUEUED with sends 0. A CLAIM or LOTREPORT addressed to this node, which the BOOK does not take (R22), is SENT with
nothing placed and no timer (log entry 105, DESIGN CHOICE). -/
def sendEntry (e : Entry) (s : State) : State :=
  let tok := s.exc.tok
  let e' := { e with state := .sent, sends := e.sends + 1, deadline := none, tok := tok }
  match e.dest with
  | none => s
  | some d =>
    if d = s.self then
      (match ownAsk e with
       | some a => handToBook ⟨.own e.seq, a⟩ (putEntry e' (takeToken s))
       | none => putEntry e' (takeToken s))
    else
      let m := newMsg .request d e.seq (.request e.account e.body) .exc tok
      match placingOf m s with
      | .lineDown => putEntry { e with state := .queued, sends := 0, deadline := none, tok := 0 } s
      | _ => placeRequest m (putEntry e' (takeToken s))

/-- R104: LOCATE is placed, addressed to 0 under the entry's own sequence. -/
def placeLocate (e : Entry) (second : Bool) (homes : List Nat) (tens : Option Nat) (s : State) : State :=
  let tok := s.exc.tok
  placeRequest (newMsg .request 0 e.seq (.request e.account .locate) .exc tok)
    (putEntry { e with search := some (.placing second homes tens), tok := tok } (takeToken s))

def countSearch (s : State) : State := s.onExc fun x => { x with cnt := { x.cnt with searches := bump x.cnt.searches } }

/-- R104: a search begins, with a first window. -/
def beginSearch (e : Entry) (homes : List Nat) (s : State) : State := placeLocate e false homes none (countSearch s)

/-- A search begins whose LOCATE is still to be placed, in its turn (R95): it has no send token yet. -/
def markSearch (e : Entry) (s : State) : State :=
  putEntry { e with search := some (.placing false [] none), tok := 0 } (countSearch s)

/-! ### Resolution (R103) -/

inductive Found where
  | node (n : Nat) (moved fromMap : Bool)
  | waits
  | searches
  deriving DecidableEq, Repr

/-- Whether another UNRESOLVED entry is searching for the account. -/
def searching (e : Entry) : Bool :=
  e.state == .unresolved && match e.search with
    | none | some .onOther => false
    | some _ => true

/-- R103: the first of the sources that applies. -/
def lookFor (s : State) (e : Entry) (acct : Nat) : Found :=
  match findAccount s.book.accounts acct with
  | some a => (match a.state with | .moved h => .node h true false | _ => .node s.self false false)
  | none =>
    match mapFind s.exc.homeMap acct with
    | some n => .node n false true
    | none =>
      if s.exc.entries.any fun x => x.seq != e.seq && x.account == some acct && searching x then .waits else .searches

/-- Whether a local opening of an entry is asked of the book or waited out (R106). -/
def opens (e : Entry) : Bool :=
  match e.search with
  | some .opening | some (.openWait _) => true
  | _ => false

/-- R103: resolves an UNRESOLVED entry. The home of a LOCATE found at once is answered, and its place is freed; while the LIF is not
ACTIVE a LOCATE waits unresolved (R169, R185). An entry whose local opening is with the book takes that opening's outcome (R106).
`start` begins a search. -/
def resolveWith (start : Entry → State → State) (seq : Nat) (s : State) : State × Option Nat :=
  match findEntry s seq with
  | some e =>
    if opens e then (s, none)
    else if e.body.kind = .locate ∧ s.lineActive = false then (putEntry { e with search := none } s, none)
    else match e.state, e.account with
    | .unresolved, some acct =>
      (match lookFor s e acct with
       | .node n moved fromMap =>
         let s := if fromMap then mapEnter acct n s else s
         if e.body.kind = .locate then (freePlace seq s, some n)
         else (putEntry { e with state := .queued, dest := some n, fromMap := fromMap, search := none
                                 moves := if moved then e.moves + 1 else e.moves } s, none)
       | .waits => (putEntry { e with search := some .onOther } s, none)
       | .searches =>
         if s.lineActive then (start e s, none) else (putEntry { e with search := none } s, none))
    | _, _ => (s, none)
  | none => (s, none)

/-- R103, R104: resolves an entry, with the LOCATE of a search placed at once. -/
def resolveEntry : Nat → State → State × Option Nat := resolveWith fun e => beginSearch e []

/-! ### Creation (R91 to R93) -/

/-- What becomes of a creation request. -/
inductive Take where
  /-- created, with the sequences, and the home of a LOCATE resolved at once -/
  | created (seqs : List Nat) (home : Option Nat)
  /-- refused NO ROOM: it waits in the unit -/
  | noRoom
  /-- its commit is under way or waits for another -/
  | working
  | refused (c : AskRefusal)
  deriving DecidableEq, Repr

def CreateReq.posts (r : CreateReq) : List Posting := r.items.filterMap fun i => i.body.posting
def CreateReq.numbered (r : CreateReq) : Bool := r.items.any fun i => match i.body with | .post _ | .hold .. => true | _ => false
def CreateReq.hasHold (r : CreateReq) : Bool := r.items.any fun i => match i.body with | .hold .. => true | _ => false
def CreateReq.badDest (r : CreateReq) : Bool :=
  r.items.any fun i => i.dest.isNone && !i.body.resolves

/-- R92: the identities of the postings of a request, in creation order. -/
def numberPosts (node epoch : Nat) : Nat → List Posting → List Posting
  | _, [] => []
  | n, p :: ps => { p with id := ⟨node, epoch, n⟩ } :: numberPosts node epoch (n + 1) ps

/-- The bodies of a request's entries: postings with their identities, a HOLD with its key. -/
def fillBodies (key : Ident) : List NewEntry → List Posting → List NewEntry
  | [], _ => []
  | i :: is, ps =>
    match i.body, ps with
    | .post _, p :: ps => { i with body := .post p } :: fillBodies key is ps
    | .hold _ amt less life, ps => { i with body := .hold key amt less life } :: fillBodies key is ps
    | _, ps => i :: fillBodies key is ps

/-- A new entry (R91): UNRESOLVED for a LOCATE, and for a HOLD or RELEASE without a destination; QUEUED otherwise. -/
def makeEntry (seq : Nat) (i : NewEntry) : Entry :=
  { seq := seq, body := i.body, ref := i.ref, account := i.account, dest := i.dest, openIfNone := i.openIfNone
    sends := 0, deferrals := 0, moves := 0, deadline := none, last := none
    state := if i.body.kind = .locate || i.dest.isNone then .unresolved else .queued
    search := none, fromMap := false, committing := false, reident := none, removing := false, replaced := none, tok := 0 }

/-- R89: the places that a request's entries take: those that have been free longest. -/
def nextPlaces (r : CreateReq) (s : State) : List Nat := s.exc.free.take r.items.length

/-- The entries stand in the table in the places that have been free longest, and those without a destination are resolved (R89, R91,
R103). -/
def standEntries (r : CreateReq) (posts : List Posting) (s : State) : State × Option Nat :=
  let items := fillBodies ⟨s.self, s.sys.epoch, s.exc.holdNo⟩ r.items posts
  let es := List.zipWith makeEntry (nextPlaces r s) items
  let s := refreshReady (s.onExc fun x =>
    { x with entries := es.foldl (fun acc e => putEntryIn e acc) x.entries
             free := x.free.drop r.items.length
             holdNo := if r.hasHold then x.holdNo + 1 else x.holdNo })
  (es.filter fun e => e.state == .unresolved).foldl
    (fun acc e => let t := resolveEntry e.seq acc.1; (t.1, match acc.2 with | some h => some h | none => t.2)) (s, none)

/-- R92: whether a request with `k` postings needs an epoch advance first. -/
def needsAdvance (s : State) (hold : Bool) (k : Nat) : Bool :=
  decide (65536 < s.node.nextPosting + max k 1) || (hold && decide (65535 < s.exc.holdNo))

/-- R92, R93: the NODE write of a commit that gives `k` numbers from `n` on. -/
def nodeAfter (epoch n k : Nat) : NodeChange :=
  if n + k ≤ 65535 then .nextPosting (n + k)
  else if epoch < 65534 then .epochNext (epoch + 1) 1
  else .nextPosting 65536

/-- What becomes of a job when the EXC takes it up. -/
inductive JobRes where
  | started
  | created (seqs : List Nat) (home : Option Nat)
  | refused (c : AskRefusal)
  deriving DecidableEq, Repr

/-- R92: the NODE commit of an epoch advance before a job; in the last epoch the state becomes EXHAUSTED instead. -/
def advanceFor (j : ExcJob) (s : State) : State × JobRes :=
  if s.sys.epoch < 65534 then
    (placeGroup .excWork [.node (.epochNext (s.sys.epoch + 1) 1)] (s.onExc fun x => { x with work := some (.advance j) }), .started)
  else (s.onSys fun y => { y with epochState := .exhausted }, .refused .epochExhausted)

def outRecord (p : Posting) (ref : Ref) (dest : Nat) (replaced : Option Ident) : OutRec := ⟨p, ref, dest, replaced⟩

/-- The OUTBOUND writes of a request's postings, in creation order (R93). -/
def outWrites (items : List NewEntry) : List RecWrite :=
  items.filterMap fun i => match i.body with
    | .post p => some (.outbound (outRecord p i.ref (i.dest.getD 0) none))
    | _ => none

/-- The EXC takes up a job: an advance if the numbers ask for one, else the commit (R92, R93, R110). -/
def startJob (j : ExcJob) (s : State) : State × JobRes :=
  if s.sys.epochState = .exhausted then (s, .refused .epochExhausted)
  else if s.sys.epochState = .notTaken then (s, .refused .storeFault)
  else match j with
    | .create r =>
      let k := r.posts.length
      if r.items.isEmpty then (s, .created [] none)
      else if needsAdvance s r.hasHold k then advanceFor j s
      else if k = 0 then
        let t := standEntries r [] s
        (t.1, .created (nextPlaces r s) t.2)
      else
        let posts := numberPosts s.self s.sys.epoch s.node.nextPosting r.posts
        let items := fillBodies default r.items posts
        (placeGroup .excWork (outWrites items ++ [.node (nodeAfter s.sys.epoch s.node.nextPosting k)])
          (s.onExc fun x => { x with work := some (.create r posts) }), .started)
    | .reident seq =>
      if needsAdvance s false 1 then advanceFor j s
      else match findEntry s seq with
        | some e =>
          (match e.body with
           | .post p =>
             let id : Ident := ⟨s.self, s.sys.epoch, s.node.nextPosting⟩
             (placeGroup .excWork [.outbound (outRecord { p with id := id } e.ref (e.dest.getD 0) (some p.id)),
                 .node (nodeAfter s.sys.epoch s.node.nextPosting 1)]
               (s.onExc fun x => { x with work := some (.reident seq id) }), .started)
           | _ => (s, .refused .badDestination))
        | none => (s, .refused .badDestination)

/-- How many places a job keeps until its entries stand or it is refused. -/
def ExcJob.places : ExcJob → Nat
  | .create r => r.items.length
  | .reident _ => 0

def ExcWork.places : ExcWork → Nat
  | .advance j => j.places
  | .create r _ => r.items.length
  | .reident .. => 0

/-- The free places that no request taken by the EXC counts on: an accepted request is whole (R91). Which of the free places its entries
take is settled as they are created (R89; log entry 91, DESIGN CHOICE). -/
def openPlaces (x : Exc) : Nat :=
  x.free.length - ((match x.work with | some w => w.places | none => 0) + (x.jobs.map ExcJob.places).sum)

/-- R91: the EXC takes a creation request whole or not at all. -/
def takeCreate (r : CreateReq) (s : State) : State × Take :=
  let n := r.items.length
  if openPlaces s.exc < n then (s.onExc fun x => { x with asks := x.asks ++ [r] }, .noRoom)
  else if r.numbered && s.sys.epochState == .exhausted then (s, .refused .epochExhausted)
  else if r.numbered && s.sys.epochState == .notTaken then (s, .refused .storeFault)
  else if r.badDest then (s, .refused .badDestination)
  else
    if r.posts.isEmpty && !(r.hasHold && needsAdvance s true 0) then
      let t := standEntries r [] s
      (t.1, .created (nextPlaces r s) t.2)
    else if s.exc.work.isSome || !s.exc.jobs.isEmpty then
      (s.onExc fun x => { x with jobs := x.jobs ++ [.create r] }, .working)
    else
      let t := startJob (.create r) s
      match t.2 with
      | .started => (t.1, .working)
      | .created qs h => (t.1, .created qs h)
      | .refused c => (t.1, .refused c)

def jobOf (ref : Ref) : ExcJob → Bool
  | .create r => r.ref == ref
  | .reident _ => false

/-- A unit gives up a creation request that has not been made: it waits for a place, for another commit, or for the epoch advance
under way, which then makes no entry (R152, R178). -/
def dropAsk (ref : Ref) (s : State) : State :=
  s.onExc fun x => { x with
    asks := x.asks.filter fun r => r.ref != ref
    jobs := x.jobs.filter fun j => !jobOf ref j
    work := match x.work with
      | some (.advance (.create r)) =>
        if r.ref = ref then some (.advance (.create { r with items := [] })) else x.work
      | w => w }

/-! ### Ends of entries that need no unit (R102) -/

/-- R102: the removal of a POST entry's OUTBOUND record is placed. -/
def placeOutRemoval (seq : Nat) (s : State) : State :=
  match findEntry s seq with
  | some e =>
    (match e.state, e.body with
     | .doneToUnit, .post p =>
       if e.removing then s
       else placeRemoval (.outRemoval p.id) (.outbound p.id.epoch p.id.number) (putEntry { e with removing := true } s)
     | _, _ => s)
  | none => s

/-- R101: an entry given up goes to DONE-to-unit. -/
def giveUpEntry (e : Entry) (s : State) : State :=
  putEntry { e with state := .doneToUnit, deadline := none, tok := 0 } s

/-- R47, R101: the BOOK withdraws its FAILED TRANSFER; the removal is placed at once. -/
def withdrawTransfer (acct : Nat) (s : State) : State :=
  match s.exc.entries.find? fun e => e.ref == .transfer acct && e.state == .failed with
  | some e => placeOutRemoval e.seq (giveUpEntry e s)
  | none => s

/-- The removal of an OUTBOUND record ends and the place is freed (R102); a removal that belongs to no ended entry frees none. -/
def outRemoved (id : Ident) (s : State) : State :=
  match s.exc.entries.find? fun e => e.removing && e.ident == some id with
  | some e => freePlace e.seq s
  | none => s

/-! ### The line (R111) -/

/-- Whether an entry waits on another whose local opening is with the book: its search has ended already (R103, R106). -/
def waitsOnOpening (es : List Entry) (e : Entry) : Bool :=
  e.search == some .onOther && es.any fun x => x.seq != e.seq && x.account == e.account && opens x

/-- R111: an entry when the line goes down or is left. Searches stop; a local opening goes on at the book and ends there (R106). -/
def entryLineDown (es : List Entry) (e : Entry) : Entry :=
  match e.state with
  | .sent | .deferred => { e with state := .queued, sends := 0, deadline := none, tok := 0 }
  | .unresolved => if opens e || waitsOnOpening es e then e else { e with search := none, deadline := none, tok := 0 }
  | _ => e

/-- An entry of the EXC handed to the own book, as against a local opening (R95, R106). -/
def isHandOver (r : BookReq) : Bool :=
  match r.src, r.ask with
  | .own _, .localOpen .. => false
  | .own _, _ => true
  | _, _ => false

/-- R111: the line goes down. Entries that wait for the own book's queue are withdrawn with their sends. -/
def excLineDown (s : State) : State :=
  refreshReady ((s.onBook fun b => { b with wait := b.wait.filter fun r => !isHandOver r }).onExc fun x =>
    { x with entries := x.entries.map (entryLineDown x.entries) })

end Sys2Proof.Machine
end

