-- ==== Sys2Proof/Machine/Wgu.lean ====
section
/-! DEFINITION. The Weighing Unit (chapter 6): readings, the weighing, the lot table and the lot request queue. -/

namespace Sys2Proof.Machine
open Sys2Proof

/-! ### Readings (R114 to R119, R124, R125) -/

/-- Whether the 24 count bits and the parity bit hold an even number of ones (R114). -/
def parityGood (count : BitVec 24) (parity : Bool) : Bool :=
  (List.range 24).foldl (fun acc i => acc != count.getLsbD i) parity == false

/-- The tare grams of a crate type in the configuration's crate table (R124, R204). -/
def crateTareOf (c : Cfg) (ty : Nat) : Nat :=
  match c.crates with
  | some rows => (rows[ty - 1]?.map (·.tare)).getD 0
  | none => 0

/-- R124: the tare in force. -/
def tareInForce (s : State) : Nat :=
  (match s.wgu.crateTare with
   | some (ty, n) => n * crateTareOf s.port.cfg ty
   | none => 0) + s.wgu.manualTare

/-- R116: the average, formed when the window holds 8 samples. -/
def currentAverage (w : Wgu) : Option Int := if w.window.length = 8 then some (averageOf w.window) else none

/-- The span of the reading history. -/
def historySpread : List Int → Int
  | [] => 0
  | x :: xs => xs.foldl max x - xs.foldl min x

/-- R118: a full history within one division. -/
def isStable (f : CalFields) (h : List Int) : Bool := h.length == 16 && decide (historySpread h ≤ f.division)

/-- R119. -/
def isTooHeavy (f : CalFields) (gross : Int) : Bool := decide ((f.capacity : Int) + 9 * f.division < gross)

/-- R117 to R119: the current reading, from the window, the history and the calibration in force. -/
def liveReading (s : State) : Reading :=
  let w := s.wgu
  match calInForce s.store with
  | none => { ctr := w.ctr, noCal := true, average := currentAverage w }
  | some f =>
    match currentAverage w with
    | none => { ctr := w.ctr, noReading := true }
    | some avg =>
      let gross := toDivision f (grossOf f w.zero avg)
      let stable := isStable f w.history
      let heavy := isTooHeavy f gross
      { ctr := w.ctr, stable := stable, tooHeavy := heavy, moving := !stable && !heavy, average := some avg, gross := some gross
        tare := some (tareInForce s), net := some (gross - tareInForce s) }

/-- R125: a reading is offered to the buffers. -/
def offerReading (r : Reading) (s : State) : State :=
  s.onWgu fun w =>
    if !w.reading then { w with offered := r }
    else match w.waiting with
      | none => { w with waiting := some r }
      | some _ => { w with waiting := some r, cnt := { w.cnt with missed := bump w.cnt.missed } }

/-- The newest `n` of a list kept oldest first, with one more. -/
def pushNewest (n : Nat) (l : List Int) (x : Int) : List Int := (l ++ [x]).drop (l.length + 1 - n)

/-- R114, steps 1 to 3, and R118: the sample joins the window, and a gross formed joins the history. -/
def takeSample (count : BitVec 24) (s : State) : State :=
  let s := s.onWgu fun w =>
    { w with lossT := some 500, ctr := if w.ctr = 65535 then 0 else w.ctr + 1, window := pushNewest 8 w.window count.toInt }
  match calInForce s.store, currentAverage s.wgu with
  | some f, some avg => s.onWgu fun w => { w with history := pushNewest 16 w.history (toDivision f (grossOf f w.zero avg)) }
  | _, _ => s

/-- The window and the history are emptied (R115, R122, R123). -/
def clearSamples (s : State) : State := s.onWgu fun w => { w with window := [], history := [] }

/-! ### The lot table (R131, R132) -/

def findLot (s : State) (n : Nat) : Option Lot := s.wgu.lots.find? fun l => l.number == n

/-- R131: a lot in the lot table of 16. -/
def putLotIn (l : Lot) (ls : List Lot) : List Lot := putKeyed (·.number) 16 l ls

def putLot (l : Lot) (s : State) : State := s.onWgu fun w => { w with lots := putLotIn l w.lots }

/-- The description of a lot (R132). -/
def describeLot (scale : Nat) (l : Lot) : LotDesc :=
  ⟨⟨scale, l.number⟩, l.boat, l.boatHome, l.species, l.grade, l.net, l.ctype, l.count, l.ring, l.unsold⟩

/-- R138: a lot event is recorded and LOT_EVENT raised. -/
def lotEvent (n : Nat) (e : LotEvent) (clock : Option Nat) (s : State) : State :=
  raise .lotEvent (s.onWgu fun w => { w with lotEvent := some ⟨n, e, clock⟩ })

/-- R85: a clock is present for a ring when the peer list holds an entry of role CLOCK with the ring. -/
def clockPresent (s : State) (ring : Nat) : Bool := s.lif.peers.any fun p => p.role == some .clock && p.ring == ring

/-- R132: NO RING of an OFFERED lot is decided afresh; a change raises LOT_EVENT. -/
def decideNoRing (n : Nat) (s : State) : State :=
  match findLot s n with
  | some l =>
    if l.state = .offered then
      let now := !clockPresent s l.ring
      if now = l.noRing then s
      else lotEvent n (if now then .noRing else .ringFound) none (putLot { l with noRing := now } s)
    else s
  | none => s

/-- R132: the WGU places a LOT notice, restarts the lot's offer timer and decides NO RING. -/
def offerLot (n : Nat) (s : State) : State :=
  match findLot s n with
  | some l =>
    if l.state = .offered then
      placeMsg .nothing (newMsg .notice 0 0 (.lot (describeLot s.self l)) .wgu 0)
        (decideNoRing n (putLot { l with offer := some 0 } s))
    else s
  | none => s

/-- The numbers of the OFFERED lots, in lot table order. -/
def offeredLots (s : State) : List Nat := (s.wgu.lots.filter fun l => l.state == .offered).map (·.number)

/-- R132: the line comes up, and a notice is placed for every OFFERED lot. -/
def wguLineUp (s : State) : State := (offeredLots s).foldl (fun acc n => offerLot n acc) s

/-- R85, R132: a peer has been removed. -/
def wguPeerRemoved (s : State) : State :=
  if s.inService .scale then (offeredLots s).foldl (fun acc n => decideNoRing n acc) s else s

/-- The notices of a lot that wait for the send queue are withdrawn when it leaves OFFERED (R132). -/
def withdrawNotices (n : Nat) (s : State) : State :=
  s.onLif fun l => { l with wait := l.wait.filter fun w => match w.msg.body with | .lot d => d.id.number != n | _ => true }

/-- A committed change of a lot's state and unsold count. Outside OFFERED, NO RING is clear and the timer stopped (R132). -/
def setLotState (n : Nat) (st : LotState) (unsold : Nat) (s : State) : State :=
  match findLot s n with
  | some l =>
    if st = .offered then putLot { l with state := st, unsold := unsold } s
    else withdrawNotices n (putLot { l with state := st, unsold := unsold, noRing := false, offer := none } s)
  | none => s

/-- A lot leaves the table as the removal of its record ends (R131). -/
def removeLot (n : Nat) (s : State) : State :=
  withdrawNotices n (s.onWgu fun w => { w with lots := w.lots.filter fun l => l.number != n })

/-! ### WEIGH (R126 to R130) -/

/-- R130: a WEIGH ends with its result. -/
def endWeigh (r : WeighResult) (s : State) : State :=
  raise .weighDone (s.onWgu fun w =>
    { w with weigh := none, result := some r
             cnt := { w.cnt with weighsDone := if r.code = .done then bump w.cnt.weighsDone else w.cnt.weighsDone
                                 weighsFailed := if r.code = .done then w.cnt.weighsFailed else bump w.cnt.weighsFailed } })

/-- R129: the lot number chosen: the next lot number, or the next above it that does not stand in the table. -/
def chooseLotNumber (s : State) : Nat := freeNumber (s.wgu.lots.map (·.number)) 16 s.node.nextLot

/-- R129: RECORDING begins, and the commit group of the lot is placed. -/
def beginRecording (g : Weigh) (home : Nat) (gross tare net : Int) (s : State) : State :=
  let n := chooseLotNumber s
  let lot : Lot :=
    { number := n, boat := g.boat, boatHome := home, species := g.species, grade := g.grade, ring := g.ring, net := net.toNat
      ctype := g.ctype, count := g.count, unsold := 0, state := .offered, noRing := false, offer := none }
  placeGroup .lotCreate [.lotCreate lot, .node (.nextLot (nextNumber n))]
    (s.onWgu fun w => { w with weigh := some { g with stage := .recording home gross tare net n } })

/-- R128: the capture of a STABLE reading. -/
def capture (f : CalFields) (g : Weigh) (home : Nat) (r : Reading) (s : State) : State :=
  let gross := r.gross.getD 0
  let res (c : WeighCode) : WeighResult := { code := c, boat := g.boat, boatHome := some home, gross := some gross }
  if r.tooHeavy then endWeigh (res .overload) s
  else
    let tare : Int := tareToDivision f (tareInForce s)
    let net := gross - tare
    let full (c : WeighCode) : WeighResult := { res c with tare := some tare, net := some net }
    if net < f.division then endWeigh (full .netNotPositive) s
    else if (f.capacity : Int) < net then endWeigh (full .overload) s
    else beginRecording g home gross tare net s

/-- R128: a WEIGH in SETTLING examines the current reading. -/
def examineReading (s : State) : State :=
  match s.wgu.weigh, calInForce s.store with
  | some g, some f =>
    (match g.stage with
     | .settling home _ => let r := liveReading s; if r.stable then capture f g home r s else s
     | _ => s)
  | _, _ => s

/-- R128: the settling limit runs out. -/
def settlingEnds (s : State) : State :=
  match s.wgu.weigh with
  | some g =>
    (match g.stage with
     | .settling home _ =>
       endWeigh { code := if (liveReading s).tooHeavy then .overload else .unstable, boat := g.boat, boatHome := some home } s
     | _ => s)
  | none => s

/-- R127: the outcome of the WEIGH's LOCATE, told by its sequence; any other is discarded. -/
def weighLocated (seq : Nat) (o : ExcOut) (s : State) : State :=
  match s.wgu.weigh with
  | some g =>
    if g.stage = .resolving (some seq) then
      let fail (c : WeighCode) := endWeigh { code := c, boat := g.boat } s
      match o with
      | .home n => examineReading (s.onWgu fun w => { w with weigh := some { g with stage := .settling n 3000 } })
      | .opening .notConfigured => fail .notConfigured
      | .opening .notActive => fail .notActive
      | .opening _ => fail .noAccountRoom
      | _ => fail .noHome
    else s
  | none => s

/-- The LOCATE of the WEIGH has been created (R127). -/
def weighAsked (seq : Nat) (s : State) : State :=
  match s.wgu.weigh with
  | some g => if g.stage = .resolving none then s.onWgu fun w => { w with weigh := some { g with stage := .resolving (some seq) } } else s
  | none => s

/-- R127: the LIF leaves ACTIVE. -/
def wguLineDown (s : State) : State :=
  match s.wgu.weigh with
  | some g =>
    (match g.stage with
     | .resolving _ => endWeigh { code := .notActive, boat := g.boat } (dropAsk .weighLocate s)
     | _ => s)
  | none => s

/-- R129: the outcome of the lot's commit group. -/
def lotCreated (r : StoreRes) (s : State) : State :=
  match s.wgu.weigh with
  | some g =>
    (match g.stage with
     | .recording home gross tare net n =>
       let res (c : WeighCode) : WeighResult :=
         { code := c, boat := g.boat, boatHome := some home, gross := some gross, tare := some tare, net := some net }
       let created (s : State) : State :=
         offerLot n (endWeigh { res .done with lot := some n } (putLot
           { number := n, boat := g.boat, boatHome := home, species := g.species, grade := g.grade, ring := g.ring
             net := net.toNat, ctype := g.ctype, count := g.count, unsold := 0, state := .offered, noRing := false
             offer := some 0 } s))
       (match r with
        | .done => created s
        | .full 0 => endWeigh (res .storeFull) s
        | .fault 0 => endWeigh (res .storeFault) s
        | _ => created (s.onNode fun x => { x with nextLot := nextNumber n }))
     | _ => s)
  | none => s

/-! ### The lot request queue (R133 to R136) -/

/-- An arrival of the line at the lot request queue (R133). -/
def lotArrive (r : LotReq) (s : State) : State :=
  s.onWgu fun w =>
    if w.lotQ.length < 8 then { w with lotQ := w.lotQ ++ [r] }
    else { w with cnt := { w.cnt with droppedReqs := bump w.cnt.droppedReqs } }

def isLotCmd : LotReq → Bool
  | .releaseLot _ | .reoffer _ | .delete _ => true
  | _ => false

def holdLotHand (r : LotReq) (s : State) : State := s.onWgu fun w => { w with lotHand := some r }
def endLotHand (s : State) : State := s.onWgu fun w => { w with lotHand := none }

/-- The answer of the entry in hand: while it waits for the send queue the entry stays in hand; placed or refused LINE DOWN, the
entry ends (R133). -/
def answerLot (r : LotReq) (c : AnsCode) (d : AnsData) (s : State) : State :=
  let m : Option Msg := match r with
    | .claim src seq lot _ => some (answerMsg .wgu src seq .claim (.lot lot) c d)
    | .report src seq lot _ _ => some (answerMsg .wgu src seq .lotReport (.lot lot) c d)
    | _ => none
  match m with
  | some m =>
    (match placingOf m s with
     | .waits => placeMsg .lotHand m (holdLotHand r s)
     | _ => endLotHand (placeMsg .lotHand m s))
  | none => endLotHand s

/-- The outcome of a lot command: the scale command result and LOT_EVENT (R133). One that fails leaves the lot event record as it was (log
entry 83, DESIGN CHOICE). -/
def endLotCmd (c : ScaleCmd) (code : PCode) (s : State) : State :=
  raise .lotEvent (endLotHand (s.onWgu fun w => { w with cmdResult := some (c, code) }))

/-- The entry keeps the hand until its store request ends. -/
def commitLot (r : LotReq) (n : Nat) (st : LotState) (unsold : Nat) (s : State) : State :=
  placeGroup .lotHand [.lotUpdate n st unsold] (holdLotHand r s)

def removeLotFor (r : LotReq) (n : Nat) (s : State) : State := placeRemoval .lotHand (.lot n) (holdLotHand r s)

/-- R134: a CLAIM taken from the queue. -/
def decideClaim (src seq : Nat) (lot : LotId) (ok : Bool) (s : State) : State :=
  let r := LotReq.claim src seq lot ok
  if !ok then answerLot r .malformed .none s
  else if lot.scale ≠ s.self then answerLot r .unknown .none s
  else match findLot s lot.number with
    | some l =>
      (match l.state with
       | .offered => commitLot r l.number (.claimed src) l.unsold s
       | .claimed c =>
         if c = src then answerLot r .granted (.lot (describeLot s.self l)) s
         else answerLot r .taken (.holder c) (s.onWgu fun w => { w with cnt := { w.cnt with claimsTaken := bump w.cnt.claimsTaken } })
       | .withdrawn => answerLot r .unknown .none s)
    | none => answerLot r .unknown .none s

/-- R135: a LOTREPORT taken from the queue. -/
def decideReport (src seq : Nat) (lot : LotId) (ok sold : Bool) (s : State) : State :=
  let r := LotReq.report src seq lot ok sold
  let stale (s : State) : State :=
    answerLot r .done .none (s.onWgu fun w => { w with cnt := { w.cnt with staleReports := bump w.cnt.staleReports } })
  if !ok then answerLot r .malformed .none s
  else if lot.scale ≠ s.self then answerLot r .unknown .none s
  else match findLot s lot.number with
    | some l =>
      if l.state = .claimed src then
        if sold then removeLotFor r l.number s
        else if l.unsold ≤ 1 then commitLot r l.number .offered (l.unsold + 1) s
        else commitLot r l.number .withdrawn 3 s
      else stale s
    | none => stale s

/-- R136: RELEASE LOT taken from the queue. -/
def decideRelease (n : Nat) (s : State) : State :=
  match findLot s n with
  | some l =>
    (match l.state with
     | .claimed _ => commitLot (.releaseLot n) n .offered l.unsold s
     | _ => endLotCmd (.releaseLot n) .notClaimed s)
  | none => endLotCmd (.releaseLot n) .noLot s

/-- R136: REOFFER taken from the queue. -/
def decideReoffer (n : Nat) (s : State) : State :=
  match findLot s n with
  | some l => if l.state = .withdrawn then commitLot (.reoffer n) n .offered 0 s else endLotCmd (.reoffer n) .notWithdrawn s
  | none => endLotCmd (.reoffer n) .noLot s

/-- R136: DELETE taken from the queue. -/
def decideDelete (n : Nat) (s : State) : State :=
  match findLot s n with
  | some l => if l.state = .withdrawn then removeLotFor (.delete n) n s else endLotCmd (.delete n) .notWithdrawn s
  | none => endLotCmd (.delete n) .noLot s

/-- The clock that holds a lot. -/
def lotClaimant (s : State) (n : Nat) : Option Nat :=
  match findLot s n with
  | some l => (match l.state with | .claimed c => some c | _ => none)
  | none => none

/-- The store request of the entry in hand ends DONE (R134 to R136). At an UNSOLD commit the LOT notice and the DONE answer become ready in one
step: the notice is placed first, so that the answer waits where the send queue has one place left (log entry 112, DESIGN CHOICE). -/
def lotHandDone (r : LotReq) (s : State) : State :=
  match r with
  | .claim src _ lot _ =>
    let n := lot.number
    let u := ((findLot s n).map (·.unsold)).getD 0
    let s := lotEvent n .claimed (some src) (setLotState n (.claimed src) u s)
    let s := s.onWgu fun w => { w with cnt := { w.cnt with claimsGranted := bump w.cnt.claimsGranted } }
    (match findLot s n with
     | some l => answerLot r .granted (.lot (describeLot s.self l)) s
     | none => endLotHand s)
  | .report src _ lot _ sold =>
    let n := lot.number
    if sold then answerLot r .done .none (lotEvent n .sold (some src) (removeLot n s))
    else
      let u := ((findLot s n).map (·.unsold)).getD 0
      if u ≤ 1 then answerLot r .done .none (offerLot n (lotEvent n .unsold (some src) (setLotState n .offered (u + 1) s)))
      else answerLot r .done .none (lotEvent n .withdrawn (some src) (setLotState n .withdrawn 3 s))
  | .releaseLot n =>
    let u := ((findLot s n).map (·.unsold)).getD 0
    endLotCmd (.releaseLot n) .done (offerLot n (lotEvent n .released (lotClaimant s n) (setLotState n .offered u s)))
  | .reoffer n => endLotCmd (.reoffer n) .done (offerLot n (lotEvent n .reoffered none (setLotState n .offered 0 s)))
  | .delete n => endLotCmd (.delete n) .done (lotEvent n .deleted none (removeLot n s))

/-- The store request of the entry in hand fails: a line request ends without an answer, a command with the code. -/
def lotHandFailed (r : LotReq) (code : PCode) (s : State) : State :=
  match r with
  | .releaseLot n => endLotCmd (.releaseLot n) code s
  | .reoffer n => endLotCmd (.reoffer n) code s
  | .delete n => endLotCmd (.delete n) code s
  | _ => endLotHand s

/-- The code of a store refusal at the station port. -/
def StoreRes.code : StoreRes → PCode
  | .done => .done
  | .full _ => .storeFull
  | .fault _ => .storeFault

def lotHandEnded (res : StoreRes) (s : State) : State :=
  match s.wgu.lotHand with
  | some r => (match res with | .done => lotHandDone r s | _ => lotHandFailed r res.code s)
  | none => s

/-! ### Calibration (R122) and service (R137) -/

/-- R122: the outcome of CAL WRITE. -/
def calEnded (f : CalFields) (res : StoreRes) (s : State) : State :=
  let s := s.onWgu fun w => { w with calBusy := false, cmdResult := some (.calWrite, res.code) }
  raise .storeEvent (match res with
    | .done => clearSamples (s.onWgu fun w => { w with zero := f.zero, draft := {} })
    | _ => s)

/-- The LOT records of the store, in ascending order of lot number. NO RING, which is not persisted, is clear until the first placing
decides it (log entry 86, DESIGN CHOICE). -/
def restoredLots (s : State) : List Lot :=
  (currentBodies s.store).foldl (fun acc b => match b with
    | .lot l => putLotIn { l with noRing := false, offer := if l.state = .offered then some 0 else none } acc
    | _ => acc) []

/-- R137: the role SCALE comes into service. -/
def wguRestore (s : State) : State := s.onWgu fun w => { w with lots := restoredLots s }

/-- The working zero and the offered reading after start-up (R120, R125). -/
def wguAfterScan (s : State) : State :=
  match calInForce s.store with
  | some f => s.onWgu fun w => { w with zero := f.zero, offered := { noReading := true } }
  | none => s

end Sys2Proof.Machine
end

