-- ==== Sys2Proof/Machine/Clu.lean ====
section
/-! DEFINITION. The Clock Unit (chapter 7): claims and the lot queue, the clock, desks and allowances, the stop arbiter, the settling
of a sale and the sale log. -/

namespace Sys2Proof.Machine
open Sys2Proof

/-! ### Events (R143, R165) -/

def cluLotEvent (e : ClockEvent) (lot : Option LotId) (s : State) : State :=
  raise .lotEvent (s.onClu fun c => { c with lotEvent := some (e, lot) })

/-- R164: whether a queued lot was sold before start-up and still waits for the update that takes it out of the QUEUE record. -/
def isCleaned (c : Clu) (lot : LotId) : Bool := c.cleaning.any fun x => x.lot == lot

/-- R142, R164: the head lot. A lot that start-up found sold is passed over while it still stands in the queue, so that it is not
presented again (log entry 28, DEDUCED). -/
def headOf (c : Clu) : Option LotDesc := c.queue.find? fun d => !isCleaned c d.id

def headLot (s : State) : Option LotDesc := headOf s.clu

/-- R143: a change of clock state raises LOT_EVENT with the head lot's identity. -/
def setClock (st : ClockState) (s : State) : State :=
  cluLotEvent (.state st) ((headLot s).map (·.id)) (s.onClu fun c => { c with state := st })

def saleEvent (n : Nat) (e : SaleEvent) (s : State) : State :=
  raise .saleEvent (s.onClu fun c => { c with saleEvent := some (n, e) })

/-! ### Claims and the lot queue (R140 to R142) -/

def claimOf (s : State) (lot : LotId) : Option Claim := s.clu.claims.find? fun c => c.lot == lot

def dropClaim (lot : LotId) (s : State) : State := s.onClu fun c => { c with claims := c.claims.filter fun x => x.lot != lot }

/-- R140: whether a notice of the clock's ring makes a claim. -/
def mayClaim (s : State) (lot : LotId) : Bool :=
  !(s.clu.queue.any fun d => d.id == lot) && (claimOf s lot).isNone && decide (s.clu.queue.length + s.clu.claims.length < 12)

/-- R140: one CLAIM entry is asked for; refused NO ROOM it is not asked for again. -/
def askClaim (lot : LotId) (s : State) : State :=
  if openPlaces s.exc = 0 then s
  else
    let t := takeCreate ⟨.claim lot, [⟨.claim lot, .claim lot, none, some lot.scale, false⟩]⟩ s
    match t.2 with
    | .created _ _ => t.1.onClu fun c => { c with claims := c.claims ++ [{ lot := lot }]
                                                  cnt := { c.cnt with claimsMade := bump c.cnt.claimsMade } }
    | _ => t.1

/-- R140: a LOT notice handed to the CLU. -/
def cluNotice (d : LotDesc) (s : State) : State :=
  if s.port.cfg.ring ≠ some d.ring then s.onClu fun c => { c with cnt := { c.cnt with otherRing := bump c.cnt.otherRing } }
  else if mayClaim s d.id then askClaim d.id s
  else s

/-- R141: the QUEUE commit of a granted claim is placed. -/
def placeClaim (lot : LotId) (d : LotDesc) : State → State := placeGroup (.claim lot) [.queue (.append d)]

/-- R141: the outcome of a CLAIM. The description of a GRANTED is queued under the identity that was claimed, whatever identity it carries (log
entry 115, DESIGN CHOICE). -/
def claimOutcome (lot : LotId) (o : ExcOut) (s : State) : State :=
  match claimOf s lot with
  | none => s
  | some _ =>
    match o with
    | .answer .granted (.lot d) _ =>
      let d := { d with id := lot }
      placeClaim lot d (s.onClu fun c => { c with claims := c.claims.map fun x => if x.lot = lot then { x with granted := some d } else x })
    | .failed _ =>
      cluLotEvent .claimFailed (some lot) ((dropClaim lot s).onClu fun c =>
        { c with cnt := { c.cnt with claimsFailed := bump c.cnt.claimsFailed } })
    | _ => (dropClaim lot s).onClu fun c => { c with cnt := { c.cnt with claimsTaken := bump c.cnt.claimsTaken } }

/-- R141: the QUEUE commit of a granted claim ends; a failed one is placed again after 1,000 ms. -/
def claimCommitted (lot : LotId) (r : StoreRes) (s : State) : State :=
  match claimOf s lot with
  | some ⟨_, some d, _⟩ =>
    (match r with
     | .done =>
       cluLotEvent .queued (some lot) ((dropClaim lot s).onClu fun c =>
         { c with queue := c.queue ++ [d], cnt := { c.cnt with claimsGranted := bump c.cnt.claimsGranted } })
     | _ => s.onClu fun c => { c with claims := c.claims.map fun x => if x.lot = lot then { x with retry := some 1000 } else x })
  | _ => s

/-- The retry of a failed QUEUE commit of a claim (R141). -/
def claimRetry (lot : LotId) (s : State) : State :=
  match claimOf s lot with
  | some ⟨_, some d, t⟩ =>
    if due t then
      placeClaim lot d (s.onClu fun c => { c with claims := c.claims.map fun x => if x.lot = lot then { x with retry := none } else x })
    else s
  | _ => s

/-! ### The clean-up of the queue after start-up (R164) -/

/-- The update of the QUEUE record without one lot, with the unit's note of who placed it. -/
def placeQueueDrop (o : Owner) (lot : LotId) : State → State := placeGroup o [.queue (.drop lot)]

/-- R56: the working copy of the queue takes an update that drops a lot. -/
def dropQueued (lot : LotId) (c : Clu) : Clu := { c with queue := applyQueueChange (.drop lot) c.queue }

/-- R164: the update that takes a sold lot out of the QUEUE record ends. DONE, the lot leaves the working queue (R56, R142); a failed
one is placed again after 1,000 ms, as R148 has it for the end of a lot (log entry 28, DEDUCED). -/
def queueCleaned (lot : LotId) (r : StoreRes) (s : State) : State :=
  s.onClu fun c => match r with
    | .done => { dropQueued lot c with cleaning := c.cleaning.filter fun x => x.lot != lot }
    | _ => { c with cleaning := c.cleaning.map fun x => if x.lot = lot then { x with retry := some 1000 } else x }

/-- The retry of a failed clean-up (log entry 28). -/
def cleanRetry (lot : LotId) (s : State) : State :=
  if s.clu.cleaning.any fun x => x.lot == lot && due x.retry then
    placeQueueDrop (.queueClean lot) lot (s.onClu fun c =>
      { c with cleaning := c.cleaning.map fun x => if x.lot = lot then { x with retry := none } else x })
  else s

/-- R141, R164: the retry of a failed commit of the QUEUE record for a lot: its claim's, or its clean-up's. -/
def queueRetry (lot : LotId) (s : State) : State := cleanRetry lot (claimRetry lot s)

/-! ### The end of a lot (R147, R148) -/

/-- R148: the update of the QUEUE record without the head lot is placed. -/
def placeLotEnd (s : State) : State :=
  match headLot s with
  | some d => placeQueueDrop (.lotEnd d.id) d.id s
  | none => s

/-- R148, R151: the outcome of that update. A desk that returns from SUSPENDED to IN keeps SUSPENDED as its last desk event, and DESK_EVENT is not
raised (log entry 108, DESIGN CHOICE). -/
def lotEnded (lot : LotId) (r : StoreRes) (s : State) : State :=
  match r with
  | .done =>
    setClock .idle (s.onClu fun c => { dropQueued lot c with
      price := none, figs := none, tickT := none, settling := none
      desks := c.desks.map fun d => if d.state = .suspended then { d with state := .inn } else d })
  | _ => s.onClu fun c => { c with lotEndT := some 1000 }

def lotEndRetry (s : State) : State :=
  if due s.clu.lotEndT then placeLotEnd (s.onClu fun c => { c with lotEndT := none }) else s

/-- A LOTREPORT as one entry of a creation request. -/
def reportItem (lot : LotId) (sold : Bool) (ref : Ref) : NewEntry := ⟨.lotReport lot sold, ref, none, some lot.scale, false⟩

/-- R147: the UNSOLD report is asked for; once created, the lot ends. -/
def askUnsold (lot : LotId) (s : State) : State :=
  let t := takeCreate ⟨.unsold lot, [reportItem lot false (.unsold lot)]⟩ s
  match t.2 with
  | .created _ _ => placeLotEnd t.1
  | _ => t.1

/-- R147: the clock enters NO_SALE. -/
def enterNoSale (s : State) : State :=
  let s := setClock .noSale (s.onClu fun c => { c with tickT := none })
  match headLot s with
  | some d => askUnsold d.id s
  | none => s

/-- R146: the tick. -/
def clockTicks (s : State) : State :=
  match s.clu.state, s.clu.figs, s.clu.price, s.clu.tickT with
  | .running, some f, some p, some t =>
    if t < f.tick then s
    else if f.floor + f.step ≤ p then
      s.onClu fun c => { c with price := some (p - f.step), tickT := some 0, cnt := { c.cnt with ticks := bump c.cnt.ticks } }
    else enterNoSale (s.onClu fun c => { c with cnt := { c.cnt with noSales := bump c.cnt.noSales } })
  | _, _, _, _ => s

/-- R147: the outcome of an UNSOLD report. -/
def unsoldOutcome (lot : LotId) (o : ExcOut) (s : State) : State :=
  match o with
  | .answer .done _ _ => s
  | _ => cluLotEvent .reportFailed (some lot) s

/-! ### Desks (R149 to R153) -/

def deskAt (s : State) (d : Nat) : Desk := s.clu.desks.getD (d - 1) {}

def setDesk (d : Nat) (x : Desk) (s : State) : State := s.onClu fun c => { c with desks := c.desks.set (d - 1) x }

/-- The desk's fields are cleared except purchases and the last desk event (R152). -/
def deskOutOf (x : Desk) : Desk := { purchases := x.purchases, last := x.last }

/-- R151, R152: a RELEASE of a hold key. -/
def askRelease (ref : Ref) (key : Ident) (acct : Nat) (dest : Option Nat) (s : State) : State :=
  (takeCreate ⟨ref, [⟨.release key, ref, some acct, dest, false⟩]⟩ s).1

/-- R150: the HOLD of a desk's allowance. -/
def deskHoldReq (d buyer amount : Nat) : CreateReq :=
  ⟨.deskHold d, [⟨.hold default amount true 14400, .deskHold d, some buyer, none, false⟩]⟩

/-- The key that the EXC gave a HOLD entry. -/
def holdKeyOf (s : State) (seq : Nat) : Option Ident :=
  match findEntry s seq with
  | some e => (match e.body with | .hold k .. => some k | _ => none)
  | none => none

/-- R150: the HOLD entry is created, and the desk takes its key. -/
def deskAsked (d : Nat) (seqs : List Nat) (s : State) : State :=
  let x := deskAt s d
  if x.state = .asking ∧ x.key = none then
    (match seqs with
     | q :: _ => setDesk d { x with key := holdKeyOf s q } s
     | [] => s)
  else s

def AskRefusal.code : AskRefusal → PCode
  | .epochExhausted => .epochExhausted
  | .storeFull => .storeFull
  | .storeFault => .storeFault
  | .badDestination => .badValue

/-- R150: the HOLD's creation is refused. -/
def deskRefused (d : Nat) (c : AskRefusal) (s : State) : State :=
  let x := deskAt s d
  if x.state = .asking ∧ x.key = none then raise .deskEvent (setDesk d { deskOutOf x with last := .refused c.code } s) else s

/-- R150: asks for the HOLD. -/
def askDeskHold (d buyer amount : Nat) (s : State) : State :=
  let t := takeCreate (deskHoldReq d buyer amount) s
  match t.2 with
  | .created seqs _ => deskAsked d seqs t.1
  | .refused c => deskRefused d c t.1
  | _ => t.1

/-- R151: the outcome of a desk's HOLD with this key, from an entry that last addressed `dest`. -/
def deskOutcome (d : Nat) (key : Ident) (buyer : Nat) (dest : Option Nat) (o : ExcOut) (s : State) : State :=
  let x := deskAt s d
  let asking := x.state == .asking && x.key == some key
  let out (e : DeskEvent) (s : State) : State := raise .deskEvent (setDesk d { deskOutOf x with last := e } s)
  let granted (c : AnsCode) (amt node : Nat) : State :=
    if asking then
      raise .deskEvent (setDesk d { x with state := .inn, home := some node, granted := amt, allowance := amt, last := .answer c } s)
    else askRelease .cluRelease key buyer (some node) s
  match o with
  | .answer .granted (.amount amt) node => granted .granted amt node
  | .answer .grantedLess (.amount amt) node => granted .grantedLess amt node
  | .answer c _ _ => if asking then out (.answer c) s else s
  | .noHome => if asking then out (.answer .unknown) s else s
  | .opening c => if asking then out (.refused c) s else s
  | .failed _ => if asking then askRelease .cluRelease key buyer dest (out .failed s) else s
  | _ => s

/-- R152: DESK OUT. -/
def deskSignOut (d : Nat) (s : State) : State :=
  let x := deskAt s d
  match x.state with
  | .out => s
  | .asking =>
    let s := setDesk d (deskOutOf x) s
    if x.key.isNone then dropAsk (.deskHold d) s else s
  | .inn | .suspended =>
    let s := setDesk d (deskOutOf x) s
    (match x.key, x.buyer with
     | some k, some b => if 0 < x.allowance then askRelease .cluRelease k b x.home s else s
     | _, _ => s)
  | .lapsed => setDesk d (deskOutOf x) s

/-- R152: the outcome of a RELEASE of the CLU. One that R151 asks for counts as one of DESK OUT does (log entry 95, DESIGN CHOICE). -/
def cluReleaseOutcome (o : ExcOut) (s : State) : State :=
  match o with
  | .answer .done _ _ => s
  | _ => s.onClu fun c => { c with cnt := { c.cnt with releaseFailures := bump c.cnt.releaseFailures } }

/-- The desk that holds a hold key, 1 to 32. -/
def deskWithKey (s : State) (key : Ident) : Option Nat := (s.clu.desks.findIdx? fun x => x.key == some key).map (· + 1)

/-- R153: a DRAW answered LAPSED. -/
def lapseDesk (key : Ident) (s : State) : State :=
  match deskWithKey s key with
  | some d =>
    let x := deskAt s d
    if x.state = .inn ∨ x.state = .suspended then
      raise .deskEvent ((setDesk d { x with state := .lapsed, allowance := 0, last := .answer .lapsed } s).onClu fun c =>
        { c with cnt := { c.cnt with lapsedDesks := bump c.cnt.lapsedDesks } })
    else s
  | none => s

/-- R153: the desk's buyer home follows the node of a DRAW's final outcome. -/
def followHome (key : Ident) (node : Nat) (s : State) : State :=
  match deskWithKey s key with
  | some d =>
    let x := deskAt s d
    if x.home.isSome then setDesk d { x with home := some node } s else s
  | none => s

/-! ### Settling a sale (R157 to R160) -/

def findSale (s : State) (n : Nat) : Option Sale := s.clu.sales.find? fun e => e.entry.number == n

def onSale (n : Nat) (f : Sale → Sale) (s : State) : State :=
  s.onClu fun c => { c with sales := c.sales.map fun e => if e.entry.number = n then f e else e }

/-- R145, R158: a sale in the sale log of 32. -/
def putSaleIn (e : Sale) (es : List Sale) : List Sale := putKeyed (·.entry.number) 32 e es

/-- What a placed update notes at its sale: `posted` goes with every later update (R160); the newest update of a part says which state
the part is to have, and takes the place of older ones of that part that wait to be placed again (R161, log entry 75). -/
def noteUpdate (c : SaleChange) (e : Sale) : Sale :=
  match c with
  | .posted => { e with postedPlaced := true }
  | .part p st _ _ =>
    { e with newest := (p, st) :: e.newest.filter fun x => x.1 != p
             redo := e.redo.filter fun x => match x.change with | .part q _ _ _ => q != p | _ => true }
  | .collected => e

/-- An update of a SALE record is placed. -/
def placeSaleUpdate (n : Nat) (c : SaleChange) (s : State) : State :=
  placeGroup (.sale n c) [.saleUpdate n c] (onSale n (noteUpdate c) s)

/-- The outcome that an update carries is reported taken (R161). -/
def reportCarried (c : SaleChange) (s : State) : State :=
  match c with
  | .part _ _ _ (some seq) => placeOutRemoval seq s
  | _ => s

/-- An update of the SALE record of a sale that stands in the log. Once the sale is being removed no update is made, and the outcome
that this one would carry is reported taken at once (R163, log entry 47). -/
def updateSale (n : Nat) (c : SaleChange) (s : State) : State :=
  match findSale s n with
  | some e => if e.removing then reportCarried c s else placeSaleUpdate n c s
  | none => reportCarried c s

/-- R158, R160: the crate item of a sale's postings; none when the crate count is 0. -/
def saleItems (r : SaleRec) : List CrateItem := if r.count = 0 then [] else [⟨r.ctype, r.count, r.deposit⟩]

def drawItem (r : SaleRec) : NewEntry :=
  ⟨.post ⟨default, .draw, r.buyer, r.charge, saleItems r, some (r.key.epoch, r.key.number), none⟩,
    .salePart r.number .draw, some r.buyer, some r.buyerHome, false⟩

def saleItem (r : SaleRec) : NewEntry :=
  ⟨.post ⟨default, .sale, r.boat, r.proceeds, saleItems r, none, none⟩, .salePart r.number .sale, some r.boat, some r.boatHome, false⟩

def soldItem (r : SaleRec) : NewEntry := reportItem r.lot true (.salePart r.number .report)

def partItem (r : SaleRec) : SalePart → NewEntry
  | .draw => drawItem r
  | .sale => saleItem r
  | .report => soldItem r

def partState (r : SaleRec) : SalePart → PartState
  | .draw => r.drawPart
  | .sale => r.salePart
  | .report => r.reportPart

/-- The state that a part has once every update of it that is placed or waits has been written (R161). -/
def partToBe (e : Sale) (p : SalePart) : PartState :=
  ((e.newest.find? fun x => x.1 == p).map (·.2)).getD (partState e.entry p)

/-- R160: whether the DRAW and SALE entries stand or are no longer wanted. -/
def partStands (s : State) (r : SaleRec) (p : SalePart) : Bool :=
  partState r p != .pending || s.exc.entries.any fun e => e.ref == .salePart r.number p

/-- R160: all three requests of a sale. -/
def salePostsReq (r : SaleRec) : CreateReq := ⟨.salePosts r.number, [drawItem r, saleItem r, soldItem r]⟩

/-- R160: the requests of a sale have been created. -/
def salePostsCreated (n : Nat) (s : State) : State := placeLotEnd (placeSaleUpdate n .posted s)

/-- R164: a single part has been created; `posted` is set once both postings stand. -/
def salePartCreated (n : Nat) (p : SalePart) (s : State) : State :=
  match findSale s n with
  | some e =>
    if p ≠ .report && partStands s e.entry .draw && partStands s e.entry .sale then placeSaleUpdate n .posted s else s
  | none => s

/-- R160: the LOTREPORT alone, after EPOCH EXHAUSTED. -/
def askSoldReport (r : SaleRec) (s : State) : State :=
  let t := takeCreate ⟨.saleEndReport r.number, [soldItem r]⟩ s
  match t.2 with
  | .created _ _ => placeLotEnd t.1
  | _ => t.1

/-- The request of a sale waits 1,000 ms after a store refusal (R160). -/
def waitSaleReq (n : Nat) (p : Option SalePart) (s : State) : State :=
  saleEvent n .waitingStore (s.onClu fun c => { c with reqWait := c.reqWait ++ [⟨n, p, 1000⟩] })

/-- R160: the requests of a sale are refused. At EPOCH EXHAUSTED the sale event record names the SALE part, FAILED, at once (log entry 106, DESIGN
CHOICE). -/
def salePostsRefused (n : Nat) (c : AskRefusal) (s : State) : State :=
  match c with
  | .epochExhausted =>
    (match findSale s n with
     | some e =>
       askSoldReport e.entry (saleEvent n (.part .sale .failed)
         (placeSaleUpdate n (.part .sale .failed none none) (placeSaleUpdate n (.part .draw .failed none none) s)))
     | none => s)
  | _ => waitSaleReq n none s

/-- R164: the request of a single part is refused. -/
def salePartRefused (n : Nat) (p : SalePart) (c : AskRefusal) (s : State) : State :=
  match c with
  | .epochExhausted => saleEvent n (.part p .failed) (placeSaleUpdate n (.part p .failed none none) s)
  | _ => waitSaleReq n (some p) s

/-- R160: the three requests are asked for. -/
def askSalePosts (r : SaleRec) (s : State) : State :=
  let t := takeCreate (salePostsReq r) s
  match t.2 with
  | .created _ _ => salePostsCreated r.number t.1
  | .refused c => salePostsRefused r.number c t.1
  | _ => t.1

/-- R164: one part is asked for. -/
def askSalePart (r : SaleRec) (p : SalePart) (s : State) : State :=
  let t := takeCreate ⟨.salePart r.number p, [partItem r p]⟩ s
  match t.2 with
  | .created _ _ => salePartCreated r.number p t.1
  | .refused c => salePartRefused r.number p c t.1
  | _ => t.1

/-- R159: the commit group of a sale. -/
def placeSaleLog (r : SaleRec) : State → State := placeGroup .saleLog [.saleCreate r, .node (.nextSale (nextNumber r.number))]

/-- R159: the outcome of the group. -/
def saleLogged (res : StoreRes) (s : State) : State :=
  match s.clu.settling with
  | some x =>
    let n := x.sale.number
    let logged (s : State) : State :=
      askSalePosts x.sale (saleEvent n .logged (s.onClu fun c => { c with sales := putSaleIn { entry := x.sale } c.sales }))
    let waits := saleEvent n .waitingStore (s.onClu fun c => { c with settling := some { x with logRetry := some 1000 } })
    (match res with
     | .done => logged s
     | .full 0 => waits
     | .fault 0 => waits
     | _ => logged (s.onNode fun y => { y with nextSale := nextNumber n }))
  | none => s

def saleLogRetry (s : State) : State :=
  match s.clu.settling with
  | some x =>
    if due x.logRetry then placeSaleLog x.sale (s.onClu fun c => { c with settling := some { x with logRetry := none } }) else s
  | none => s

/-- The wait of a sale's requests that has run out. -/
def dueReqWait (s : State) (n : Nat) : Option SaleReqWait := s.clu.reqWait.find? fun w => w.sale == n && w.left == 0

/-- R160: the requests are made again after 1,000 ms. -/
def saleRequestRetry (n : Nat) (s : State) : State :=
  match dueReqWait s n, findSale s n with
  | some w, some e =>
    let s := s.onClu fun c => { c with reqWait := c.reqWait.filter fun x => !(x.sale == n && x.part == w.part) }
    (match w.part with
     | none => askSalePosts e.entry s
     | some p => askSalePart e.entry p s)
  | _, _ => s

/-! ### The arbiter (R154 to R157) -/

/-- The crate deposit of a type in the configuration's crate table. -/
def depositOf (c : Cfg) (ty : Nat) : Nat :=
  match c.crates with
  | some rows => (rows[ty - 1]?.map (·.deposit)).getD 0
  | none => 0

/-- R156: the buyer charge of a lot at a price. -/
def chargeOf (s : State) (d : LotDesc) (price : Nat) : Nat := buyerCharge d.net price d.count (depositOf s.port.cfg d.ctype)

/-- R154: whether a desk's input is low. -/
def isPressed (bits : BitVec 32) (d : Nat) : Bool := bits.getLsbD (d - 1)

/-- R154: the press set, in desk order. -/
def pressSet (bits : BitVec 32) (released : List Nat) : List Nat :=
  (List.range' 1 32).filter fun d => isPressed bits d && decide (21 ≤ released.getD (d - 1) 0)

/-- R154: the releases seen in a row after a scan, up to 21. -/
def scanReleased (bits : BitVec 32) (released : List Nat) : List Nat :=
  released.mapIdx fun i r => if bits.getLsbD i then 0 else min 21 (r + 1)

/-- R156: the rotating order: from one above the last winning desk to 32, then on from 1. -/
def rotateFrom (last : Nat) (ds : List Nat) : List Nat := ds.filter (last < ·) ++ ds.filter (· ≤ last)

/-- R158: the SALE record of an accepted stop. -/
def saleRecord (s : State) (lot : LotDesc) (price desk : Nat) : SaleRec :=
  let x := deskAt s desk
  let amount := saleAmount lot.net price
  let rate := s.port.cfg.levy.getD 0
  let dep := depositOf s.port.cfg lot.ctype
  { number := freeNumber (s.clu.sales.map (·.entry.number)) 32 s.node.nextSale
    lot := lot.id, species := lot.species, grade := lot.grade, boat := lot.boat, boatHome := lot.boatHome
    buyer := x.buyer.getD 0, buyerHome := x.home.getD 0, desk := desk, key := x.key.getD default
    net := lot.net, price := price, amount := amount, levy := levyOf amount rate, proceeds := proceedsOf amount rate
    charge := buyerCharge lot.net price lot.count dep, ctype := lot.ctype, count := lot.count
    deposit := if lot.count = 0 then 0 else dep
    drawPart := .pending, salePart := .pending, reportPart := .pending, posted := false, movedCrates := none, collected := false }

/-- R157 to R159: the stop of a desk is accepted. Its purchases stay at 65,535 when reached (R149, log entry 96, DESIGN CHOICE). -/
def acceptStop (lot : LotDesc) (price desk : Nat) (s : State) : State :=
  let r := saleRecord s lot price desk
  let x := deskAt s desk
  let s := setDesk desk { x with allowance := x.allowance - r.charge, purchases := bump x.purchases, last := .won } s
  let s := raise .deskEvent (s.onClu fun c => { c with
    lastWin := desk, tickT := none, settling := some { sale := r }, cnt := { c.cnt with sales := bump c.cnt.sales } })
  placeSaleLog r (setClock .settling s)

def countLate (n : Nat) (s : State) : State := s.onClu fun c => { c with cnt := { c.cnt with latePresses := bumpBy n c.cnt.latePresses } }

/-- R156: the desks of the press set are judged in turn. -/
def judgeDesks (lot : LotDesc) (price : Nat) : List Nat → State → State
  | [], s => s
  | d :: ds, s =>
    let x := deskAt s d
    let charge := chargeOf s lot price
    if x.state = .inn then
      if charge ≤ x.allowance ∧ overRange charge = false then countLate ds.length (acceptStop lot price d s)
      else
        judgeDesks lot price ds (raise .deskEvent ((setDesk d { x with state := .suspended, last := .suspended } s).onClu fun c =>
          { c with cnt := { c.cnt with refusedStops := bump c.cnt.refusedStops } }))
    else judgeDesks lot price ds (s.onClu fun c => { c with cnt := { c.cnt with refusedStops := bump c.cnt.refusedStops } })

/-- R154 to R156: one scan of the 32 desk inputs. -/
def scanDesks (bits : BitVec 32) (s : State) : State :=
  let ps := pressSet bits s.clu.released
  let s := s.onClu fun c => { c with released := scanReleased bits c.released
                                     cnt := { c.cnt with presses := bumpBy ps.length c.cnt.presses } }
  match s.clu.state, headLot s, s.clu.price with
  | .running, some lot, some price => judgeDesks lot price (rotateFrom s.clu.lastWin ps) s
  | .settling, _, _ => countLate ps.length s
  | _, _, _ => s.onClu fun c => { c with cnt := { c.cnt with idlePresses := bumpBy ps.length c.cnt.idlePresses } }

/-! ### Parts of a sale (R161 to R163) -/

/-- R163: a collected sale with no PENDING part has its removal placed. -/
def removeIfCollected (n : Nat) (s : State) : State :=
  match findSale s n with
  | some e =>
    let r := e.entry
    if r.collected && r.drawPart != .pending && r.salePart != .pending && r.reportPart != .pending && !e.removing then
      placeRemoval (.saleRemove n) (.sale n) (onSale n (fun e => { e with removing := true }) s)
    else s
  | none => s

/-- R163: the removal of a SALE record ends; a repeat of its report that waits for a free place is not made (R162). A part update that still waits
its 1,000 ms goes with the sale, and its outcome is not reported taken (log entry 107, DESIGN CHOICE). -/
def saleRemoved (n : Nat) (s : State) : State :=
  saleEvent n .removed ((dropAsk (.saleReissue n) s).onClu fun c => { c with sales := c.sales.filter fun e => e.entry.number != n })

/-- R161: the part state that an outcome gives, with the moved count a DONE of a SALE carries. -/
def partOf (p : SalePart) (o : ExcOut) : PartState × Option Nat :=
  match p, o with
  | .draw, .answer .lapsed _ _ => (.lapsed, none)
  | .sale, .answer .done (.counts cs) _ => (.done, cs.head?.map (·.2))
  | .report, .answer .unknown _ _ => (.failed, none)
  | _, .answer _ _ _ => (.done, none)
  | _, _ => (.failed, none)

/-- R161: a DONE_ALREADY leaves a part that is DONE or LAPSED as it stands. -/
def partKeeps (st : PartState) (o : ExcOut) : Bool :=
  match o with
  | .answer .doneAlready _ _ => st == .done || st == .lapsed
  | _ => false

/-- R153: a final answer to a DRAW: the desk that holds its key follows the home, and lapses on LAPSED. The key is the posting's own, so
that this holds after the sale has left the log too. -/
def deskFollows (post : Posting) (c : AnsCode) (node : Nat) (s : State) : State :=
  match post.kind, postHoldKey post with
  | .draw, some key => let s := followHome key node s; if c = .lapsed then lapseDesk key s else s
  | _, _ => s

/-- R161: the outcome of one part, whose entry carries `post`. `seq` is the entry whose unit reports the outcome taken when the update
ends DONE, or at once when no part state changes. The state that an outcome changes is that of the newest update of the part,
written or not. -/
def salePartOutcome (n : Nat) (p : SalePart) (post : Posting) (seq : Nat) (o : ExcOut) (s : State) : State :=
  let s := match o with
    | .answer c _ node => deskFollows post c node s
    | _ => s
  match findSale s n with
  | none => placeOutRemoval seq s
  | some e =>
    let s := match p, o with
      | .report, .failed _ => onSale n (fun e => { e with reissue := some 15000 }) s
      | _, _ => s
    let t := partOf p o
    if partKeeps (partToBe e p) o || (partToBe e p == t.1 && t.2.isNone) then placeOutRemoval seq s
    else
      let report := match p, o with
        | .report, _ => none
        | _, .failed _ => none
        | _, _ => some seq
      updateSale n (.part p t.1 t.2 report) s

/-- Whether a failed update is placed again: `posted` always, one of a part unless a newer one of that part has been placed, and
`collected` never (R160, R161, R163). -/
def placedAgain (c : SaleChange) (e : Sale) : Bool :=
  match c with
  | .posted => true
  | .part p st _ _ => partToBe e p == st
  | .collected => false

/-- R160, R161, R163: an update of a SALE record ends. The working copy has taken the values written as the write ended (R56). -/
def saleUpdated (n : Nat) (c : SaleChange) (res : StoreRes) (s : State) : State :=
  match res with
  | .done =>
    (match c with
     | .part p st _ report =>
       let s := saleEvent n (.part p st) s
       removeIfCollected n (match report with | some q => placeOutRemoval q s | none => s)
     | _ => removeIfCollected n s)
  | _ => saleEvent n .updateFailed (onSale n (fun e =>
      if placedAgain c e then { e with redo := e.redo ++ [⟨c, 1000⟩] } else e) s)

/-- R160, R161: the failed updates of a SALE record whose 1,000 ms have passed are placed again. -/
def saleUpdateRetry (n : Nat) (s : State) : State :=
  match findSale s n with
  | some e =>
    (e.redo.filter fun x => x.left == 0).foldl (fun acc x => updateSale n x.change acc)
      (onSale n (fun e => { e with redo := e.redo.filter fun x => x.left != 0 }) s)
  | none => s

/-- R162: the repeated report has been created. -/
def reissueCreated (n : Nat) (s : State) : State :=
  updateSale n (.part .report .pending none none) (s.onClu fun c => { c with cnt := { c.cnt with reissued := bump c.cnt.reissued } })

/-- R162: a FAILED report is requested again. -/
def reportReissue (n : Nat) (s : State) : State :=
  match findSale s n with
  | some e =>
    if due e.reissue && !e.removing then
      let t := takeCreate ⟨.saleReissue n, [soldItem e.entry]⟩ (onSale n (fun e => { e with reissue := none }) s)
      match t.2 with
      | .created _ _ => reissueCreated n t.1
      | _ => t.1
    else s
  | none => s

/-- R163: COLLECT SALE commits the record with collected set, unless it was set. -/
def collectSale (n : Nat) (s : State) : State :=
  match findSale s n with
  | some e => if e.entry.collected then s else placeSaleUpdate n .collected s
  | none => s

/-! ### Service (R164) -/

def restoredQueue (s : State) : List LotDesc :=
  ((currentBodies s.store).foldl (fun acc b => match b with | .queue q => q | _ => acc) []).take 12

def restoredSales (s : State) : List Sale :=
  (currentBodies s.store).foldl (fun acc b => match b with | .sale r => putSaleIn { entry := r } acc | _ => acc) []

/-- R164: a PENDING part after start-up. SALE_EVENT for one that becomes FAILED is raised at once, before its update is written, and again as
the update ends DONE (log entry 114, DESIGN CHOICE). -/
def settlePart (r : SaleRec) (p : SalePart) (s : State) : State :=
  if partState r p ≠ .pending then s
  else if s.exc.entries.any fun e => e.ref == .salePart r.number p then s
  else if p = .report ∨ r.posted = false then askSalePart r p s
  else
    saleEvent r.number (.part p .failed) (placeSaleUpdate r.number (.part p .failed none none)
      (s.onClu fun c => { c with cnt := { c.cnt with unsettled := bump c.cnt.unsettled } }))

def settleSale (r : SaleRec) (s : State) : State :=
  removeIfCollected r.number (settlePart r .report (settlePart r .sale (settlePart r .draw s)))

/-- The queued lots that a SALE record names (R164). -/
def soldLots (q : List LotDesc) (es : List Sale) : List LotId :=
  (q.filter fun d => es.any fun e => e.entry.lot == d.id).map (·.id)

/-- R164: the role CLOCK comes into service. The working queue is the CURRENT QUEUE record; for each queued lot that was sold an update
without it is placed, and the lot leaves the queue as that write ends (R56, R142). A report that stands FAILED is not requested again
(log entry 87, DESIGN CHOICE). -/
def cluRestore (s : State) : State :=
  let q := restoredQueue s
  let es := restoredSales s
  let sold := soldLots q es
  let s := s.onClu fun c => { c with
    queue := q, claims := [], cleaning := sold.map fun id => { lot := id }, sales := es, released := List.replicate 32 0 }
  let s := sold.foldl (fun acc id => placeQueueDrop (.queueClean id) id acc) s
  es.foldl (fun acc e => settleSale e.entry acc) s

end Sys2Proof.Machine
end

