-- ==== Sys2Proof/Machine/Icm.lean ====
section
/-! DEFINITION. The Ice Meter (chapter 8): the order, its hold, the metered auger, the settle. -/

namespace Sys2Proof.Machine
open Sys2Proof

def onOrder (f : OrderRec → OrderRec) (s : State) : State := s.onIcm fun m => { m with order := m.order.map f }

/-- The order record as it is read (R167, R177): auger, counted pulses and grams and checkpoint pulses are present from DISPENSING on. -/
def OrderRec.shown (o : OrderRec) : OrderShown :=
  let present {α : Type} (x : α) : Option α := if o.metered then some x else none
  { account := o.account, kg := o.kg, acceptLess := o.acceptLess, tariff := o.tariff, gpp := o.gpp, holdAmount := o.holdAmount
    key := o.key, home := o.home, granted := o.granted, grantCode := o.grantCode, targetPulses := o.targetPulses
    targetGrams := o.targetGrams, auger := present o.augerOn, pulses := present o.pulses, grams := present (o.pulses * o.gpp)
    checkpoint := present o.checkpoint, cause := o.cause, settle := o.settle }

/-- The ICM with no order in hand; result, late settle record, meter edge and counters stand. -/
def idleIcm (m : Icm) : Icm := { result := m.result, late := m.late, edgeMs := m.edgeMs, cnt := m.cnt }

/-- R177, R180: an order ends with its result. -/
def endOrder (c : OrderCode) (s : State) : State :=
  match s.icm.order with
  | some o =>
    raise .iceDone (s.onIcm fun m => { idleIcm m with
      result := some (c, o)
      cnt := { m.cnt with
        done := if c = .done then bump m.cnt.done else m.cnt.done
        failed := if c = .done ∨ c = .cancelled then m.cnt.failed else bump m.cnt.failed
        cancelled := if c = .cancelled then bump m.cnt.cancelled else m.cnt.cancelled } })
  | none => s

def AskRefusal.order : AskRefusal → OrderCode
  | .epochExhausted => .epochExhausted
  | .storeFull => .storeFull
  | .storeFault => .storeFault
  | .badDestination => .failed

/-! ### The hold (R170, R171) -/

/-- R170: the HOLD entry is created, and the order takes its key. -/
def orderAsked (seqs : List Nat) (s : State) : State :=
  match s.icm.state, s.icm.order, seqs with
  | .holding, some o, q :: _ => if o.key = none then s.onIcm fun m => { m with order := some { o with key := holdKeyOf s q } } else s
  | _, _, _ => s

/-- R170: the HOLD's creation is refused. -/
def orderRefused (c : AskRefusal) (s : State) : State :=
  match s.icm.state, s.icm.order with
  | .holding, some o => if o.key = none then endOrder c.order s else s
  | _, _ => s

/-- R170: the HOLD is asked for. -/
def askOrderHold (o : OrderRec) (amount : Nat) (s : State) : State :=
  let t := takeCreate ⟨.orderHold, [⟨.hold default amount o.acceptLess 600, .orderHold, some o.account, none, false⟩]⟩ s
  match t.2 with
  | .created seqs _ => orderAsked seqs t.1
  | .refused c => orderRefused c t.1
  | _ => t.1

/-- R169, R170: HOLDING begins. -/
def beginHolding (s : State) : State :=
  match s.icm.order with
  | some o =>
    let amt := iceHoldAmount o.kg o.tariff
    let o' := { o with holdAmount := some amt }
    askOrderHold o' amt (s.onIcm fun m => { m with state := .holding, order := some o', locSeq := none })
  | none => s

/-- R169: the LOCATE of the order has been created. -/
def orderLocateAsked (seq : Nat) (s : State) : State :=
  if s.icm.state = .resolving ∧ s.icm.locSeq = none then s.onIcm fun m => { m with locSeq := some seq } else s

/-- R169: the outcome of the order's LOCATE, told by its sequence. -/
def orderLocated (seq : Nat) (o : ExcOut) (s : State) : State :=
  if s.icm.state = .resolving ∧ s.icm.locSeq = some seq then
    (match o with
     | .home _ => beginHolding s
     | .noHome => endOrder .unknown s
     | _ => endOrder .failed s)
  else s

/-- R171: the grant is taken. -/
def takeGrant (o : OrderRec) (c : AnsCode) (amt node : Nat) (s : State) : State :=
  let tp := targetPulses amt o.tariff o.gpp
  let o' := { o with home := some node, granted := some amt, grantCode := some c, targetPulses := some tp
                     targetGrams := some (targetGrams amt o.tariff o.gpp), checkpoint := 0 }
  let s := s.onIcm fun m => { m with order := some o' }
  if tp = 0 then
    endOrder .zeroTarget (match o.key with | some k => askRelease .icmRelease k o.account (some node) s | none => s)
  else placeGroup (.iceCreate o') [.iceCreate o'] s

/-- R170, R178: the outcome of a HOLD with this key, from an entry that last addressed `dest`. -/
def orderHoldOutcome (key : Ident) (acct : Nat) (dest : Option Nat) (out : ExcOut) (s : State) : State :=
  let release (node : Option Nat) (s : State) : State := askRelease .icmRelease key acct node s
  match s.icm.state, s.icm.order with
  | .holding, some o =>
    if o.key = some key then
      (match out with
       | .answer .granted (.amount amt) node => takeGrant o .granted amt node s
       | .answer .grantedLess (.amount amt) node => takeGrant o .grantedLess amt node s
       | .answer .refusedFunds _ _ => endOrder .refusedFunds s
       | .answer .refusedNoRoom _ _ => endOrder .refusedNoRoom s
       | .answer .unknown _ _ => endOrder .unknown s
       | .noHome => endOrder .unknown s
       | .failed _ => endOrder .failed (release dest s)
       | _ => endOrder .failed s)
    else leftover out release s
  | _, _ => leftover out release s
where
  /-- R178: a left-over grant is released. -/
  leftover (out : ExcOut) (release : Option Nat → State → State) (s : State) : State :=
    match out with
    | .answer .granted _ node => release (some node) s
    | .answer .grantedLess _ node => release (some node) s
    | _ => s

/-- R171: the outcome of a RELEASE of the ICM. -/
def icmReleaseOutcome (o : ExcOut) (s : State) : State :=
  match o with
  | .answer .done _ _ => s
  | _ => s.onIcm fun m => { m with cnt := { m.cnt with releaseFailures := bump m.cnt.releaseFailures } }

def placeIceRemoval : State → State := placeRemoval .iceRemove .iceOrder

/-- R171, R178: the creation of the ICE ORDER record ends. -/
def iceCreated (o : OrderRec) (res : StoreRes) (s : State) : State :=
  let release (s : State) : State := match o.key with | some k => askRelease .icmRelease k o.account o.home s | none => s
  let inHand := s.icm.state == .holding && s.icm.order.map (·.key) == some o.key
  match res with
  | .done =>
    if inHand then
      s.onIcm fun m => { m with state := .dispensing, order := some { o with metered := true, augerOn := true, pulses := 0, checkpoint := 0 }
                                adrive := true, stallT := some 5000, coastT := none, closed := false, ckPlaced := 0 }
    else release (placeIceRemoval s)
  | .full _ => if inHand then endOrder .storeFull (release s) else release s
  | .fault _ => if inHand then endOrder .storeFault (release s) else release s

/-! ### The auger (R172 to R175) -/

/-- Whether pulses are counted: DISPENSING before the close of counting. -/
def counting (m : Icm) : Bool := m.state == .dispensing && !m.closed

/-- R172, R173: ADRIVE goes inactive with a stop cause, and coasting begins. -/
def switchOff (c : StopCause) (s : State) : State :=
  s.onIcm fun m => { m with
    adrive := false, stallT := none, coastT := some 2000
    order := m.order.map fun o => { o with augerOn := false, cause := some c } }

/-- Whether the order is DISPENSING with the auger ON. -/
def augerRuns (s : State) : Bool :=
  s.icm.state == .dispensing && match s.icm.order with | some o => o.augerOn | none => false

def isCheckpoint (r : Request) : Bool := match r.owner with | .iceCheckpoint .. => true | _ => false

/-- R175: a checkpoint is placed; it takes the place of one that waits. -/
def placeCheckpoint (pulses : Nat) (s : State) : State :=
  let key := s.icm.order.bind (·.key)
  let r : Request := ⟨.iceCheckpoint key pulses, .group [.iceCheckpoint key pulses]⟩
  let s := s.onIcm fun m => { m with ckPlaced := pulses }
  if s.store.pend.any isCheckpoint then
    s.onStore fun st => { st with pend := st.pend.map fun x => if isCheckpoint x then r else x }
  else placeStore r s

/-- R175: a checkpoint's write ends. It belongs to the order with its hold key; an order in hand with another takes nothing of it. -/
def checkpointEnded (key : Option Ident) (pulses : Nat) (res : StoreRes) (s : State) : State :=
  match res with
  | .done => onOrder (fun o => if o.key = key then { o with checkpoint := pulses } else o) s
  | _ => s.onIcm fun m => { m with
      ckPlaced := match m.order with
        | some o => if o.key = key ∧ m.ckPlaced = pulses then o.checkpoint else m.ckPlaced
        | none => m.ckPlaced
      cnt := { m.cnt with failedCkpts := bump m.cnt.failedCkpts } }

/-- R172: a pulse counted for the order. -/
def countPulse (o : OrderRec) (s : State) : State :=
  let n := o.pulses + 1
  let restart (s : State) : State := if o.augerOn then s.onIcm fun m => { m with stallT := some 5000 } else s
  if 9999999 < n * o.gpp then
    restart (s.onIcm fun m => { m with cnt := { m.cnt with overRange := bump m.cnt.overRange } })
  else
    let s := restart (onOrder (fun o => { o with pulses := n }) s)
    let s := if o.augerOn && o.targetPulses == some n then switchOff .target s else s
    if n % 64 = 0 then placeCheckpoint n s else s

/-- R166, R172: a rising edge of APULSE after `lowMs` milliseconds of low level. -/
def augerEdge (lowMs : Nat) (s : State) : State :=
  let low := min lowMs s.icm.edgeMs
  let s := s.onIcm fun m => { m with edgeMs := 0 }
  if low < 5 then s.onIcm fun m => { m with cnt := { m.cnt with noise := bump m.cnt.noise } }
  else match counting s.icm, s.icm.order with
    | true, some o => countPulse o s
    | _, _ => s.onIcm fun m => { m with cnt := { m.cnt with stray := bump m.cnt.stray } }

/-- R178: an order in RESOLVING or HOLDING is cancelled; what it had not yet had created is not asked for. An ICE ORDER creation that
still waits for the request list goes on waiting (log entry 88, DESIGN CHOICE). -/
def cancelOrder (s : State) : State := endOrder .cancelled (dropAsk .orderLocate (dropAsk .orderHold s))

/-- R173, R178: an event that switches the auger off or cancels the order. -/
def stopOrder (c : StopCause) (count : IcmCounters → IcmCounters) (s : State) : State :=
  match s.icm.state with
  | .resolving | .holding => cancelOrder s
  | .dispensing => if augerRuns s then switchOff c (s.onIcm fun m => { m with cnt := count m.cnt }) else s
  | _ => s

/-! ### The settle (R174, R176, R177, R179) -/

/-- R176: the SETTLE of an order. -/
def settleReq (o : OrderRec) (amount : Nat) (key : Ident) : CreateReq :=
  ⟨.settle key, [⟨.post ⟨default, .settle, o.account, amount, [], some (key.epoch, key.number), none⟩, .settle key,
    some o.account, o.home, false⟩]⟩

/-- R176, R179: the SETTLE stands. -/
def settleCreated (key : Ident) (s : State) : State :=
  if s.icm.order.bind (·.key) = some key then
    if s.icm.restoring then
      (placeIceRemoval s).onIcm fun m => { idleIcm m with cnt := { m.cnt with restored := bump m.cnt.restored } }
    else if s.icm.state = .dispensing then (placeIceRemoval s).onIcm fun m => { m with state := .settling }
    else s
  else s

/-- R176: the SETTLE is refused. -/
def settleRefused (key : Ident) (c : AskRefusal) (s : State) : State :=
  if s.icm.order.bind (·.key) = some key then
    (match c with
     | .epochExhausted => endOrder .epochExhausted (placeIceRemoval s)
     | _ => s.onIcm fun m => { m with settleT := some 1000 })
  else s

/-- R176: the SETTLE is asked for. -/
def askSettle (s : State) : State :=
  match s.icm.order with
  | some o =>
    (match o.key, o.settle with
     | some key, some amt =>
       let t := takeCreate (settleReq o amt key) s
       (match t.2 with
        | .created _ _ => settleCreated key t.1
        | .refused c => settleRefused key c t.1
        | _ => t.1)
     | _, _ => s)
  | none => s

/-- R174: counting closes. -/
def closeCounting (s : State) : State :=
  match s.icm.order with
  | some o =>
    let s := s.onIcm fun m => { m with
      closed := true, coastT := none, order := some { o with settle := some (iceSettleAmount (o.pulses * o.gpp) o.tariff) } }
    askSettle (if s.icm.ckPlaced = o.pulses then s else placeCheckpoint o.pulses s)
  | none => s

/-- The code that a late record shows for an outcome (R177, R193). -/
def lateCode : ExcOut → LateCode
  | .answer c _ _ => .answer c
  | .discarded => .discarded
  | _ => .failed

/-- R177: the outcome of a SETTLE whose reference is a hold key. -/
def settleOutcome (key : Ident) (p : Posting) (out : ExcOut) (s : State) : State :=
  if s.icm.state = .settling ∧ s.icm.restoring = false ∧ s.icm.order.bind (·.key) = some key then
    (match out with
     | .answer .done _ _ => endOrder .done s
     | .answer .doneAlready _ _ => endOrder .done s
     | .answer .lapsed _ _ => endOrder .lapsed s
     | _ => endOrder .settleFailed s)
  else
    raise .iceDone (s.onIcm fun m => { m with
      late := some ⟨key, p.account, p.amount, lateCode out⟩, cnt := { m.cnt with lateSettles := bump m.cnt.lateSettles } })

def restoredOrder (s : State) : Option OrderRec :=
  (currentBodies s.store).foldl (fun acc b => match b with | .iceOrder o => some o | _ => acc) none

/-- R179: the role ICE comes into service. The restored order shows its checkpoint pulses as the counted ones, and the auger OFF (log entry
97, DESIGN CHOICE). -/
def icmRestore (s : State) : State :=
  let s := s.onIcm fun m => { m with edgeMs := 0 }
  match restoredOrder s with
  | some o =>
    let o := { o with metered := true, pulses := o.checkpoint, augerOn := false
                      settle := some (iceSettleAmount (o.checkpoint * o.gpp) o.tariff) }
    let s := s.onIcm fun m => { m with state := .settling, restoring := true, closed := true, order := some o, ckPlaced := o.checkpoint }
    (match o.key with
     | some key => if s.exc.entries.any fun e => e.ref == .settle key then settleCreated key s else askSettle s
     | none => s)
  | none => s

end Sys2Proof.Machine
end

