-- ==== Sys2Proof/Machine/Cgt.lean ====
section
/-! DEFINITION. The Crate Gate (chapter 9): tag reads, the crate pool, the batch and its posting. -/

namespace Sys2Proof.Machine
open Sys2Proof

/-! ### The pool (R182) -/

def poolPendingZero (s : State) : Bool := s.cgt.pend.all (· == 0)

/-- R182: a pool update is placed when a change is pending, none stands or is under way, and no failed one is waited out. -/
def placePool (s : State) : State :=
  if poolPendingZero s || s.cgt.poolBusy || s.cgt.poolT.isSome then s
  else placeStore ⟨.pool [], .group []⟩ (s.onCgt fun c => { c with poolBusy := true })

/-- A change joins the pending change, and an update is placed if it can be. -/
def poolChange (d : List Int) (s : State) : State :=
  placePool (s.onCgt fun c => { c with pend := List.zipWith (· + ·) c.pend d })

/-- A batch's counts as a rise or a fall of the pool. -/
def poolRise (counts : List Nat) : List Int := counts.map fun n => (n : Int)
def poolFall (counts : List Nat) : List Int := counts.map fun n => -(n : Int)

/-- The counts per crate type of a posting's items. -/
def itemCounts (is : List CrateItem) : List Nat := is.foldl (fun acc i => setCrates acc i.ctype i.count) (List.replicate 8 0)

/-! ### The batch (R184, R192) -/

def onBatch (f : Batch → Batch) (s : State) : State := s.onCgt fun c => { c with batch := c.batch.map f }

/-- R191, R192: a batch ends with its result; the refund of an item is its refunded count times the deposit carried. -/
def endBatch (code : BatchCode) (refunded : Option (List (Nat × Nat))) (s : State) : State :=
  match s.cgt.batch with
  | some b =>
    let refunds := refunded.map fun l => l.map fun p => (p.1, p.2 * b.deposits.getD (p.1 - 1) 0)
    raise .batchDone (s.onCgt fun c => { c with
      state := .idle, batch := none, riseWaits := false, postT := none
      result := some { code := code, batch := { b with tags := [] }, refunded := refunded, refunds := refunds
                       refund := refunds.map fun l => (l.map (·.2)).sum }
      cnt := { c.cnt with
        done := if code = .done ∨ code = .clamped then bump c.cnt.done else c.cnt.done
        failed := if code = .done ∨ code = .clamped ∨ code = .cancelled then c.cnt.failed else bump c.cnt.failed
        cancelled := if code = .cancelled then bump c.cnt.cancelled else c.cnt.cancelled } })
  | none => s

/-- Whether a reference names the batch in hand. -/
def batchInHand (s : State) (epoch number : Nat) : Bool :=
  epoch == s.cgt.startEpoch && s.cgt.batch.map (·.number) == some number

/-- R185: the outcome of the batch's LOCATE. -/
def batchLocated (epoch number : Nat) (o : ExcOut) (s : State) : State :=
  if s.cgt.state = .resolving ∧ batchInHand s epoch number = true then
    (match o with
     | .home n => raise .batchDone ((onBatch (fun b => { b with home := some n }) s).onCgt fun c => { c with state := .opened })
     | .noHome => endBatch .unknown none s
     | _ => endBatch .failed none s)
  else s

/-! ### Tag reads (R181, R186) -/

/-- R181: the crate type and serial of a good frame of five bytes. A frame of more bytes is discarded whole, as one tag error (log entry 110,
DESIGN CHOICE). -/
def readTag : List Byte → Option (Nat × Nat)
  | [t, a, b, c, x] =>
    let serial := a.toNat * 65536 + b.toNat * 256 + c.toNat
    if x == t ^^^ a ^^^ b ^^^ c && ctypeOk t.toNat && 1 ≤ serial then some (t.toNat, serial) else none
  | _ => none

/-- R186: a good read while the batch is OPEN. The batch's own counts stay at 65,535 as the totals do (R195, log entry 98). -/
def batchRead (ty serial : Nat) (b : Batch) (s : State) : State :=
  if b.tags.any fun p => p.1 == serial then
    (onBatch (fun b => { b with duplicates := bump b.duplicates }) s).onCgt fun c =>
      { c with cnt := { c.cnt with duplicates := bump c.cnt.duplicates } }
  else if s.cgt.blocked.contains serial then
    raise .batchDone ((onBatch (fun b => { b with rejected := bump b.rejected }) s).onCgt fun c =>
      { c with cnt := { c.cnt with rejected := bump c.cnt.rejected } })
  else if 64 ≤ b.tags.length then
    raise .batchDone ((onBatch (fun b => { b with refusedFull := bump b.refusedFull }) s).onCgt fun c =>
      { c with cnt := { c.cnt with refusedFull := bump c.cnt.refusedFull } })
  else
    onBatch (fun b => { b with tags := b.tags ++ [(serial, ty)], counts := setCrates b.counts ty (crateCount b.counts ty + 1) }) s

/-- R181, R186: a frame of the tag reader. -/
def tagFrame (bytes : List Byte) (s : State) : State :=
  match readTag bytes with
  | none => s.onCgt fun c => { c with cnt := { c.cnt with tagErrors := bump c.cnt.tagErrors } }
  | some (ty, serial) =>
    match s.cgt.state, s.cgt.batch with
    | .opened, some b => batchRead ty serial b s
    | _, _ => s.onCgt fun c => { c with cnt := { c.cnt with unbatched := bump c.cnt.unbatched } }

/-! ### Closing a batch (R188 to R190) -/

/-- R188: one item for each crate type with a count of 1 or more, in ascending type order. -/
def batchItems (b : Batch) : List CrateItem :=
  ((List.range' 1 8).filter fun ty => 1 ≤ crateCount b.counts ty).map fun ty =>
    ⟨ty, crateCount b.counts ty, b.deposits.getD (ty - 1) 0⟩

def batchPostKind : BatchKind → PostKind
  | .issue => .issue
  | .ret => .ret

/-- R189, R190: the posting of a batch. -/
def batchPostReq (epoch : Nat) (b : Batch) : CreateReq :=
  ⟨.batchPost epoch b.number, [⟨.post ⟨default, batchPostKind b.kind, b.account, b.amount.getD 0, batchItems b, none, none⟩,
    .batchPost epoch b.number, some b.account, b.home, false⟩]⟩

/-- R189: the posting has been created. -/
def batchPosted (epoch number : Nat) (seqs : List Nat) (s : State) : State :=
  if s.cgt.state = .closing ∧ batchInHand s epoch number = true then
    let id := match seqs with | q :: _ => (findEntry s q).bind (·.ident) | [] => none
    (onBatch (fun b => { b with id := id }) s).onCgt fun c => { c with state := .posting }
  else s

/-- R189: the posting is refused. -/
def batchRefused (epoch number : Nat) (c : AskRefusal) (s : State) : State :=
  if s.cgt.state = .closing ∧ batchInHand s epoch number = true then
    (match c with
     | .epochExhausted => endBatch .epochExhausted none s
     | _ => s.onCgt fun c => { c with postT := some 1000 })
  else s

/-- R189, R190: the posting is asked for. -/
def askBatchPost (s : State) : State :=
  match s.cgt.batch with
  | some b =>
    let e := s.cgt.startEpoch
    let t := takeCreate (batchPostReq e b) s
    (match t.2 with
     | .created seqs _ => batchPosted e b.number seqs t.1
     | .refused c => batchRefused e b.number c t.1
     | _ => t.1)
  | none => s

/-- R189: a RETURN asks for its posting once the update that carries its rise stands on the store request list. -/
def returnIfListed (s : State) : State :=
  if s.cgt.riseWaits && poolPendingZero s then askBatchPost (s.onCgt fun c => { c with riseWaits := false }) else s

/-- R188 to R190: the close of a batch that holds tags. -/
def closeBatch (b : Batch) (s : State) : State :=
  match b.kind with
  | .issue =>
    askBatchPost (s.onCgt fun c => { c with
      state := .closing, batch := some { b with amount := some (depositSum (batchItems b)) } })
  | .ret => returnIfListed (poolChange (poolRise b.counts) (s.onCgt fun c => { c with state := .closing, riseWaits := true }))

/-- R182: a pool update ends. -/
def poolEnded (carried : List Int) (res : StoreRes) (s : State) : State :=
  match res with
  | .done => returnIfListed (placePool (s.onCgt fun c => { c with poolBusy := false }))
  | _ => s.onCgt fun c => { c with poolBusy := false, poolT := some 1000, pend := List.zipWith (· + ·) c.pend carried }

/-- R182: a failed update is placed again. -/
def poolRetry (s : State) : State :=
  if due s.cgt.poolT then returnIfListed (placePool (s.onCgt fun c => { c with poolT := none })) else s

/-! ### Outcomes (R191, R193) -/

/-- The refunded counts that an answer to a RETURN carries: those of DONE and CLAMPED only (R97, R191). -/
def refundedOf : ExcOut → Option (List (Nat × Nat))
  | .answer .done (.counts cs) _ | .answer .clamped (.counts cs) _ => some cs
  | _ => none

/-- R191: the batch result that a posting's outcome gives. -/
def batchCodeOf (k : PostKind) : ExcOut → BatchCode
  | .answer .done _ _ => .done
  | .answer .doneAlready _ _ => .done
  | .answer .clamped _ _ => if k = .ret then .clamped else .failed
  | .answer .refusedFunds _ _ => if k = .issue then .refusedFunds else .failed
  | _ => .failed

/-- R193: a late outcome. -/
def lateBatch (epoch number : Nat) (p : Posting) (o : ExcOut) (s : State) : State :=
  let k : BatchKind := if p.kind = .issue then .issue else .ret
  let s := raise .batchDone (s.onCgt fun c => { c with
    late := some ⟨epoch, number, k, p.account, p.id, lateCode o, if k = .ret then refundedOf o else none⟩
    cnt := { c.cnt with late := bump c.cnt.late } })
  let falls := match o with
    | .answer .done _ _ => true
    | .answer .doneAlready _ _ => epoch == s.cgt.startEpoch
    | _ => false
  if p.kind = .issue ∧ falls = true then poolChange (poolFall (itemCounts p.items)) s else s

/-- R191: the outcome of a batch's posting. -/
def batchOutcome (epoch number : Nat) (p : Posting) (o : ExcOut) (s : State) : State :=
  if s.cgt.state = .posting ∧ batchInHand s epoch number = true then
    let code := batchCodeOf p.kind o
    let s := if p.kind = .issue ∧ code = .done then poolChange (poolFall (itemCounts p.items)) s else s
    endBatch code (if p.kind = .ret then refundedOf o else none) s
  else lateBatch epoch number p o s

/-- R194: the role GATE comes into service; its state is that of start-up. -/
def cgtRestore (s : State) : State := s

end Sys2Proof.Machine
end

