-- ==== Sys2Proof/Machine/Yields.lean ====
section
/-! DEFINITION. The Account Book's yields (chapter 2, section 2.7): the TRANSFER of an account to a lower-numbered home and what its
outcome does, and the updates of the working copies that commits make. -/

namespace Sys2Proof.Machine
open Sys2Proof

/-! ### Working copies (R27, R56) -/

def accountOf (s : State) (n : Nat) : Option Account := findAccount s.book.accounts n

/-- The working copy of a record takes a committed change, with the write count of its CURRENT copy (R21, R55). -/
def takeAccount (n : Nat) (c : AcctChange) (s : State) : State :=
  let a := applyAcct c ((accountOf s n).getD (newAccount n 0))
  s.onBook fun b => { b with accounts := putAccount { a with writes := currentCount s.store (.account n) } b.accounts }

/-- R50: an account write ended STORE FAULT or STORE FULL. -/
def countStoreRefusal (s : State) : State :=
  s.onBook fun b => { b with cnt := { b.cnt with storeRefusals := bump b.cnt.storeRefusals } }

def endBookHand (s : State) : State := s.onBook fun b => { b with hand := none }

/-- R35, R47, R50: holds dropped or lost are counted and HOLD_DROPPED is raised. -/
def dropHolds (n : Nat) (s : State) : State :=
  if n = 0 then s
  else raise .holdDropped (s.onBook fun b => { b with cnt := { b.cnt with droppedHolds := bumpBy n b.cnt.droppedHolds } })

/-- The book places OPENED for an account, addressed to all nodes (R37, R45, R47). -/
def placeOpened (acct : Nat) : State → State := placeMsg .nothing (openedMsg acct)

/-! ### Yields (R46, R47) -/

def yieldOf (s : State) (acct : Nat) : Option Yield := s.book.yields.find? fun y => y.acct == acct

def setYield (y : Yield) (s : State) : State :=
  s.onBook fun b => { b with yields := b.yields.filter (fun x => x.acct != y.acct) ++ [y] }

def dropYield (acct : Nat) (s : State) : State := s.onBook fun b => { b with yields := b.yields.filter fun x => x.acct != acct }

/-- R46: the commit of the YIELDING record is placed. -/
def beginYield (acct target : Nat) : State → State := placeGroup (.bookYield acct target) [.account acct (.setState .yielding)]

/-- R46: the TRANSFER is created: it carries the record and the holds as they stand, and the holds leave the table. The
OUTBOUND record takes them as they stand at its write (log entry 67). -/
def transferCreated (acct : Nat) (seqs : List Nat) (s : State) : State :=
  match accountOf s acct, yieldOf s acct, seqs with
  | some a, some y, q :: _ =>
    let part := transferPart a s.book.holds
    let s := match findEntry s q with
      | some e => (match e.body with
        | .post p => putEntry { e with body := .post { p with transfer := some part } } s
        | _ => s)
      | none => s
    setYield { y with stage := .running } (s.onBook fun b => { b with holds := b.holds.filter fun h => h.account != acct })
  | _, _, _ => s

/-- The commit that brings a record out of YIELDING. -/
def placeBookState (acct : Nat) (st : AcctState) : State → State := placeGroup (.bookState acct) [.account acct (.setState st)]

/-- R46: the TRANSFER is refused. -/
def transferRefused (acct : Nat) (c : AskRefusal) (s : State) : State :=
  match yieldOf s acct with
  | some y =>
    (match c with
     | .epochExhausted => placeBookState acct .opened (setYield { y with stage := .reopening } s)
     | _ => setYield { y with stage := .askWait 1000 } s)
  | none => s

def transferReq (acct target : Nat) : CreateReq :=
  ⟨.transfer acct, [⟨.post ⟨default, .transfer, acct, 0, [], none, none⟩, .transfer acct, some acct, some target, false⟩]⟩

/-- R46: the TRANSFER is asked for. -/
def askTransfer (y : Yield) (s : State) : State :=
  let t := takeCreate (transferReq y.acct y.target) (setYield { y with stage := .asking } s)
  match t.2 with
  | .created seqs _ => transferCreated y.acct seqs t.1
  | .refused c => transferRefused y.acct c t.1
  | _ => t.1

/-- R46: the commit of the YIELDING record ends; the OPENED or HOME in hand ends with it. -/
def yieldCommitted (acct target : Nat) (res : StoreRes) (s : State) : State :=
  let s := endBookHand s
  match res with
  | .done => askTransfer ⟨acct, target, .asking⟩ (takeAccount acct (.setState .yielding) s)
  | _ => countStoreRefusal s

/-- R47: the outcome's state is committed. -/
def finishYield (y : Yield) (fin : AcctState) (notify : Bool) (s : State) : State :=
  placeBookState y.acct fin (setYield { y with stage := .finishing fin notify } s)

/-- The carried holds of a TRANSFER. -/
def carriedCount (p : Posting) : Nat := match p.transfer with | some t => t.holds.length | none => 0

/-- R47: the TRANSFER's final outcome, naming the node that gave it. -/
def transferOutcome (acct : Nat) (p : Posting) (o : ExcOut) (s : State) : State :=
  match yieldOf s acct with
  | some y =>
    if y.stage = .running then
      (match o with
       | .answer .unknown _ _ => finishYield y .opened true (dropHolds (carriedCount p) s)
       | .answer _ (.dropped n) node => finishYield y (.moved node) false (dropHolds n s)
       | .answer _ _ node => finishYield y (.moved node) false s
       | .failed _ => finishYield y .opened false (dropHolds (carriedCount p) (withdrawTransfer acct s))
       | _ => s)
    else s
  | none => s

/-- R47, R49: an OPENED that follows a commit to OPEN: at once, or, for a record of start-up, when the line is ACTIVE. -/
def notifyOpened (y : Yield) (s : State) : State :=
  if y.target = 0 && !s.lineActive then s.onBook fun b => { b with openedWait := b.openedWait ++ [y.acct] }
  else placeOpened y.acct s

/-- R46, R47: the commit of the stub or of the OPEN record ends; a failed one is tried again after 1,000 ms. -/
def bookStateEnded (acct : Nat) (res : StoreRes) (s : State) : State :=
  match yieldOf s acct with
  | some y =>
    (match y.stage, res with
     | .finishing fin notify, .done =>
       let s := dropYield acct (takeAccount acct (.setState fin) s)
       if notify then notifyOpened y s else s
     | .finishing fin notify, _ => countStoreRefusal (setYield { y with stage := .finishWait fin notify 1000 } s)
     | .reopening, .done => dropYield acct (takeAccount acct (.setState .opened) s)
     | .reopening, _ => countStoreRefusal (setYield { y with stage := .reopenWait 1000 } s)
     | _, _ => s)
  | none => s

/-- R46: 1,000 ms after a refused TRANSFER or a failed commit to OPEN. -/
def yieldRetry (acct : Nat) (s : State) : State :=
  match yieldOf s acct with
  | some y =>
    (match y.stage with
     | .askWait 0 => askTransfer y s
     | .reopenWait 0 => placeBookState acct .opened (setYield { y with stage := .reopening } s)
     | _ => s)
  | none => s

/-- R47: 1,000 ms after a failed commit of the outcome's state. -/
def bookStateRetry (acct : Nat) (s : State) : State :=
  match yieldOf s acct with
  | some y =>
    (match y.stage with
     | .finishWait fin notify 0 => finishYield y fin notify s
     | _ => s)
  | none => s

/-- R49, R79: the OPENED notices that start-up left waiting are placed when the line comes up. -/
def bookLineUp (s : State) : State :=
  (s.book.openedWait.foldl (fun acc a => placeOpened a acc) s).onBook fun b => { b with openedWait := [] }

/-- A book entry or a lot entry in hand ends when its waiting answer is placed, or is discarded as the line goes down (R23, R81). -/
def endHand (e : Ends) (s : State) : State :=
  match e with
  | .nothing => s
  | .bookHand => endBookHand s
  | .lotHand => endLotHand s

end Sys2Proof.Machine
end

