-- ==== Sys2Proof/Machine/Outcomes.lean ====
section
/-! DEFINITION. What the EXC hands to the units (chapter 5): outcomes, creations and refusals by their reference, the FAILED and the
final entry, the jobs that need a commit, and the ends of searches. -/

namespace Sys2Proof.Machine
open Sys2Proof

/-! ### By reference (R89, R102) -/

/-- The outcome of a LOCATE, told by its reference and sequence. -/
def unitLocated (r : Ref) (seq : Nat) (o : ExcOut) (s : State) : State :=
  match r with
  | .weighLocate => weighLocated seq o s
  | .orderLocate => orderLocated seq o s
  | .batchLocate ep n => batchLocated ep n o s
  | _ => s

def emptyPosting : Posting := default

/-- The outcome of an entry at its issuing unit. A unit reports the outcome of a posting taken as it takes it, but for the parts of a
sale; an outcome whose unit is not in service is discarded, and the removal is placed at once (R102). -/
def unitOutcome (e : Entry) (o : ExcOut) (s : State) : State :=
  if !unitInService s e.ref then placeOutRemoval e.seq s
  else
    let p := e.body.posting.getD emptyPosting
    match e.ref, e.body with
    | .deskHold d, .hold k .. => deskOutcome d k (e.account.getD 0) e.dest o s
    | .orderHold, .hold k .. => orderHoldOutcome k (e.account.getD 0) e.dest o s
    | .cluRelease, _ => cluReleaseOutcome o s
    | .icmRelease, _ => icmReleaseOutcome o s
    | .claim lot, _ => claimOutcome lot o s
    | .unsold lot, _ => unsoldOutcome lot o s
    | .salePart n part, _ => salePartOutcome n part p e.seq o s
    | .settle key, _ => placeOutRemoval e.seq (settleOutcome key p o s)
    | .batchPost ep n, _ => placeOutRemoval e.seq (batchOutcome ep n p o s)
    | .transfer acct, _ => placeOutRemoval e.seq (transferOutcome acct p o s)
    | r, _ => unitLocated r e.seq o s

/-- A creation request has been made. -/
def unitCreated (r : Ref) (seqs : List Nat) (s : State) : State :=
  match r with
  | .weighLocate => (match seqs with | q :: _ => weighAsked q s | [] => s)
  | .orderLocate => (match seqs with | q :: _ => orderLocateAsked q s | [] => s)
  | .deskHold d => deskAsked d seqs s
  | .orderHold => orderAsked seqs s
  | .unsold _ => placeLotEnd s
  | .salePosts n => salePostsCreated n s
  | .saleEndReport _ => placeLotEnd s
  | .saleReissue n => reissueCreated n s
  | .salePart n p => salePartCreated n p s
  | .settle key => settleCreated key s
  | .batchPost ep n => batchPosted ep n seqs s
  | .transfer acct => transferCreated acct seqs s
  | _ => s

/-- A creation request has been made, and a LOCATE among it may have been resolved at once (R103). -/
def unitMade (r : Ref) (seqs : List Nat) (home : Option Nat) (s : State) : State :=
  let s := unitCreated r seqs s
  match home, seqs with
  | some h, q :: _ => unitLocated r q (.home h) s
  | _, _ => s

/-- A creation request has been refused, NO ROOM apart. -/
def unitRefused (r : Ref) (c : AskRefusal) (s : State) : State :=
  match r with
  | .deskHold d => deskRefused d c s
  | .orderHold => orderRefused c s
  | .salePosts n => salePostsRefused n c s
  | .salePart n p => salePartRefused n p c s
  | .settle key => settleRefused key c s
  | .batchPost ep n => batchRefused ep n c s
  | .transfer acct => transferRefused acct c s
  | _ => s

/-- A creation request is taken and what becomes of it handed to the unit; refused NO ROOM it waits. -/
def askUnit (r : CreateReq) (s : State) : State :=
  let t := takeCreate r s
  match t.2 with
  | .created seqs home => unitMade r.ref seqs home t.1
  | .refused c => unitRefused r.ref c t.1
  | _ => t.1

/-- A LOCATE asked for by a role unit (R127, R169, R185). -/
def locateReq (ref : Ref) (acct : Nat) (openIfNone : Bool) : CreateReq := ⟨ref, [⟨.locate, ref, some acct, none, openIfNone⟩]⟩

/-- R91: the first waiting request, in the order in which they became pending, for which there are places. -/
def retryAsk (s : State) : State :=
  match s.exc.asks.find? fun r => decide (r.items.length ≤ openPlaces s.exc) with
  | some r => askUnit r (s.onExc fun x => { x with asks := x.asks.erase r })
  | none => s

/-! ### FAILED and final (R98, R100, R102) -/

/-- R100: the failure capture takes a failure when it is empty. -/
def captureFailure (e : Entry) (p : Posting) (last : LastAns) (s : State) : State :=
  s.onExc fun x => { x with
    capture := match x.capture with
      | some c => some c
      | none => some ⟨e.seq, p.kind, p.account, e.dest.getD 0, p.id, last⟩ }

/-- R100: an entry becomes FAILED. -/
def failEntry (e : Entry) (last : LastAns) (s : State) : State :=
  let s := s.onExc fun x => { x with cnt := { x.cnt with failed := bump x.cnt.failed } }
  match e.body with
  | .post p =>
    let e' := { e with state := .failed, last := some last, deadline := none, tok := 0 }
    unitOutcome e' (.failed last) (raise .postingFailed (captureFailure e p last (putEntry e' s)))
  | _ => unitOutcome e (.failed last) (freePlace e.seq s)

/-- R98, R102: a final answer. -/
def finalEntry (e : Entry) (c : AnsCode) (d : AnsData) (node : Nat) (s : State) : State :=
  let e' := { e with state := .doneToUnit, last := some (.code c), sends := 0, deadline := none, tok := 0 }
  if e.isPost then unitOutcome e' (.answer c d node) (putEntry e' s)
  else unitOutcome e' (.answer c d node) (freePlace e.seq s)

/-! ### Jobs that need a commit (R92, R93, R110) -/

/-- R110: a re-identification that cannot be made leaves the entry FAILED with last answer MOVED. -/
def reidentFailed (seq : Nat) (s : State) : State :=
  match findEntry s seq with
  | some e => failEntry { e with committing := false, reident := e.dest } (.code .moved) s
  | none => s

/-- What becomes of a job is handed on. A request that its unit has given up holds no entries, and nobody is told of it (R152, R178). -/
def settleJob (j : ExcJob) (r : JobRes) (s : State) : State :=
  match j, r with
  | _, .started => s
  | .create q, .created seqs home => if q.items.isEmpty then s else unitMade q.ref seqs home s
  | .create q, .refused c => if q.items.isEmpty then s else unitRefused q.ref c s
  | .reident seq, .refused _ => reidentFailed seq s
  | .reident _, .created .. => s

/-- The EXC takes up the jobs that wait, until one needs a commit. -/
def runJobs : Nat → State → State
  | 0, s => s
  | n + 1, s =>
    match s.exc.work, s.exc.jobs with
    | none, j :: js =>
      let t := startJob j (s.onExc fun x => { x with jobs := js })
      runJobs n (settleJob j t.2 t.1)
    | _, _ => s

/-- At most 32 places are kept for jobs, and each job may bring one request more. -/
def jobFuel : Nat := 128

/-- R110: the re-identification of a moved posting. -/
def askReident (seq : Nat) (s : State) : State := runJobs jobFuel (s.onExc fun x => { x with jobs := x.jobs ++ [.reident seq] })

/-- R92: the epoch and the counters take the values that a NODE write brought; past the last number of the last epoch the state is
EXHAUSTED. -/
def adoptNumbers (s : State) : State :=
  let s := if s.node.epoch = s.sys.epoch then s
    else (s.onSys fun y => { y with epoch := s.node.epoch }).onExc fun x => { x with holdNo := 1 }
  if 65535 < s.node.nextPosting ∧ 65534 ≤ s.sys.epoch then s.onSys fun y => { y with epochState := .exhausted } else s

/-- R93: the NODE write failed after the OUTBOUND writes: the working number has risen, or stands used up. -/
def numbersRisen (k : Nat) (s : State) : State := s.onNode fun n => { n with nextPosting := min 65536 (n.nextPosting + k) }

/-- Whether a group's OUTBOUND writes all ended DONE. -/
def outboundsDone (k : Nat) : StoreRes → Bool
  | .done => true
  | .full i => k ≤ i
  | .fault i => k ≤ i

/-- How many OUTBOUND writes ended DONE before the failure. -/
def writesDone : StoreRes → Nat
  | .done => 0
  | .full i => i
  | .fault i => i

def StoreRes.refusal : StoreRes → AskRefusal
  | .fault _ => .storeFault
  | _ => .storeFull

/-- R93: the numbers after a group whose OUTBOUND writes ended DONE. -/
def numbersAfter (k : Nat) (res : StoreRes) (s : State) : State :=
  adoptNumbers (match res with | .done => s | _ => numbersRisen k s)

/-- R93: the commit of a creation request ends. -/
def createEnded (r : CreateReq) (posts : List Posting) (res : StoreRes) (s : State) : State :=
  if outboundsDone posts.length res then
    let t := standEntries r posts (numbersAfter posts.length res s)
    unitMade r.ref (nextPlaces r s) t.2 t.1
  else
    let s := (posts.take (writesDone res)).foldl (fun acc p =>
      placeRemoval (.outRemoval p.id) (.outbound p.id.epoch p.id.number) acc) s
    unitRefused r.ref res.refusal s

/-- R110: the commit of a re-identification ends. The entry has taken its fresh identity with its OUTBOUND write (R56). -/
def reidentEnded (seq : Nat) (id : Ident) (res : StoreRes) (s : State) : State :=
  match findEntry s seq with
  | some e =>
    if outboundsDone 1 res then
      let e' := e.renamed id
      let s := putEntry { e' with committing := false, reident := none }
        ((numbersAfter 1 res s).onExc fun x => { x with cnt := { x.cnt with reidents := bump x.cnt.reidents } })
      match e'.replaced with
      | some old => placeRemoval (.outRemoval old) (.outbound old.epoch old.number) s
      | none => s
    else reidentFailed seq s
  | none => s

/-- The EXC's commit in flight ends, and the next job is taken up. -/
def excWorkEnded (res : StoreRes) (s : State) : State :=
  let w := s.exc.work
  let s := s.onExc fun x => { x with work := none }
  match w with
  | some (.advance j) =>
    (match res with
     | .done =>
       let t := startJob j (adoptNumbers s)
       runJobs jobFuel (settleJob j t.2 t.1)
     | _ => runJobs jobFuel (settleJob j (.refused res.refusal) s))
  | some (.create r posts) => runJobs jobFuel (createEnded r posts res s)
  | some (.reident seq id) => runJobs jobFuel (reidentEnded seq id res s)
  | none => s

/-! ### The ends of searches (R103, R104, R106) -/

/-- The result of a search at one of the entries that take it. -/
def takeSearch (o : ExcOut) (s : State) (seq : Nat) : State :=
  match findEntry s seq with
  | some e =>
    (match o, e.body.kind with
     | .failed last, _ => failEntry e last s
     | .home n, .hold | .home n, .release =>
       putEntry { e with state := .queued, dest := some n, search := none, fromMap := false, tok := 0 } s
     | _, _ => unitOutcome e o (freePlace seq s))
  | none => s

/-- R103: the entries that a search's result is for, in sequence order: the one that searched, and every UNRESOLVED one that waits on
it. -/
def searchTakers (e : Entry) (s : State) : List Nat :=
  (s.exc.entries.filter fun x =>
    x.seq == e.seq || (x.state == .unresolved && x.account == e.account && x.search == some .onOther)).map (·.seq)

/-- The entry searches no more: a request that a unit asks for as it takes the result does not wait on the ended search (R103). -/
def stopSearching (e : Entry) (s : State) : State :=
  s.onExc fun x => { x with entries := setEntryIn { e with search := none } x.entries }

/-- R103: when a search ends, every UNRESOLVED entry that waits on it takes the same result. -/
def endSearch (e : Entry) (o : ExcOut) (s : State) : State :=
  (searchTakers e s).foldl (takeSearch o) (stopSearching e s)

/-- The lowest of some nodes. -/
def lowestNode : List Nat → Option Nat
  | [] => none
  | n :: ns => match lowestNode ns with
    | some m => some (min n m)
    | none => some n

/-- R106: the local opening of a searching entry is placed in the BOOK's queue. It counts as no send (log entry 80, DESIGN CHOICE). -/
def placeOpening (e : Entry) (s : State) : State :=
  bookEnterOwn ⟨.own e.seq, .localOpen e.seq (e.account.getD 0)⟩ (putEntry { e with search := some .opening } s)

/-- R104: the end of a collection window. -/
def windowEnd (e : Entry) (second : Bool) (homes : List Nat) (tens : Option Nat) (s : State) : State :=
  match lowestNode homes with
  | some n => endSearch e (.home n) (mapEnter (e.account.getD 0) n s)
  | none =>
    if !second then placeLocate e true [] tens s
    else match tens with
      | some w =>
        if 20 ≤ e.deferrals then endSearch e (.failed (.code .defer)) s
        else putEntry { e with deferrals := e.deferrals + 1, search := some (.waiting [] (w * 10)) } s
      | none =>
        let s := s.onExc fun x => { x with cnt := { x.cnt with noHome := bump x.cnt.noHome } }
        if e.openIfNone then placeOpening e s else endSearch e .noHome s

/-- LOCATE_WINDOW_END. -/
def locateWindowEnd (seq : Nat) (s : State) : State :=
  match findEntry s seq with
  | some e => (match e.search with | some (.window second homes tens 0) => windowEnd e second homes tens s | _ => s)
  | none => s

/-- LOCATE_SEARCH_DEFER_END. -/
def searchDeferEnd (seq : Nat) (s : State) : State :=
  match findEntry s seq with
  | some e => (match e.search with | some (.waiting homes 0) => beginSearch e homes s | _ => s)
  | none => s

/-- LOCAL_OPENING_RETRY. -/
def openingRetry (seq : Nat) (s : State) : State :=
  match findEntry s seq with
  | some e => (match e.search with | some (.openWait 0) => placeOpening e s | _ => s)
  | none => s

/-- The outcome of a local opening, as the book decides it (R37). -/
inductive OpenRes where
  | done
  | moved (n : Nat)
  | defer
  | code (c : PCode)
  deriving DecidableEq, Repr

/-- R106: the outcome of a local opening at the EXC, whose entry holds its place until then. The home map stays as it was, for MOVED(n) as
well (log entry 81, DESIGN CHOICE). -/
def openingEnded (seq : Nat) (r : OpenRes) (s : State) : State :=
  match findEntry s seq with
  | some e =>
    if e.search = some .opening then
      (match r with
       | .done => endSearch e (.home s.self) s
       | .moved n => endSearch e (.home n) s
       | .defer => putEntry { e with search := some (.openWait 100) } s
       | .code c => endSearch e (.opening c) s)
    else s
  | none => s

/-- A HOME collected into a search (R104, R105). -/
def collectHome (node acct seq : Nat) (s : State) : State :=
  match findEntry s seq with
  | some e =>
    if e.account = some acct ∧ e.state = .unresolved then
      (match e.search with
       | some (.placing second homes tens) => putEntry { e with search := some (.placing second (homes ++ [node]) tens) } s
       | some (.window second homes tens left) => putEntry { e with search := some (.window second (homes ++ [node]) tens left) } s
       | some (.waiting homes left) => putEntry { e with search := some (.waiting (homes ++ [node]) left) } s
       | _ => s)
    else s
  | none => s

/-- The longer of two waits. -/
def longerWait (a : Option Nat) (w : Nat) : Option Nat :=
  match a with
  | some x => some (max x w)
  | none => some w

/-- A DEFER to a LOCATE (R104); none when the entry is not searching. One to a search that is already deferred is matched and
changes nothing (log entry 71). Neither raises the DEFERs count of R113, which is that of R99's DEFERs (log entry 111, DESIGN CHOICE). -/
def deferSearch (e : Entry) (w : Nat) (s : State) : Option State :=
  let e := { e with last := some (.code .defer) }
  match e.search with
  | some (.placing second homes tens) => some (putEntry { e with search := some (.placing second homes (longerWait tens w)) } s)
  | some (.window second homes tens left) => some (putEntry { e with search := some (.window second homes (longerWait tens w) left) } s)
  | some (.waiting ..) => some s
  | _ => none

/-! ### The line comes up (R111) -/

/-- R103, R111: UNRESOLVED entries are resolved afresh, in sequence order; the LOCATEs of the searches that begin wait for their turn. -/
def resolveAll (s : State) : State :=
  ((s.exc.entries.filter fun e => e.state == .unresolved).map (·.seq)).foldl (fun acc seq =>
    match findEntry acc seq with
    | some e =>
      let t := resolveWith markSearch seq acc
      (match t.2 with
       | some h => unitOutcome e (.home h) t.1
       | none => t.1)
    | none => acc) s

/-- R95: at the moment at which the line comes up, the send of one entry: the LOCATE of a search that has just begun, or the request of
a QUEUED entry that may be sent. -/
def sendInTurn (s : State) (seq : Nat) : State :=
  match findEntry s seq with
  | some e =>
    (match e.search, e.tok with
     | some (.placing second homes tens), 0 => placeLocate e second homes tens s
     | _, _ => if mayBeSent s.exc.entries e then sendEntry e s else s)
  | none => s

/-- R94, R95, R111: the line comes up. The entries that become ready at this moment, whether QUEUED before, resolved now or searching
from now on, are sent in sequence order, in this same step (log entry 90, DESIGN CHOICE). -/
def excLineUp (s : State) : State :=
  let t := resolveAll (refreshReady s)
  (t.exc.entries.map (·.seq)).foldl sendInTurn t

end Sys2Proof.Machine
end

