-- ==== Sys2Proof/Machine/Answers.lean ====
section
/-! DEFINITION. Sending, timeouts, reports of the LIF, and the taking of answers at the EXC (chapter 5, sections 5.3 and 5.5). -/

namespace Sys2Proof.Machine
open Sys2Proof

/-! ### Sends and timeouts (R95, R96, R99) -/

/-- EXC_SEND: the entry that became ready first is sent (R94, R95). -/
def excSendNext (s : State) : State :=
  if s.lineActive then
    match s.exc.ready with
    | q :: _ => (match findEntry s q with | some e => sendEntry e s | none => s)
    | [] => s
  else s

/-- R95, R96: an entry whose send found no answer is sent again, or becomes FAILED after its fourth. -/
def timedOut (e : Entry) (s : State) : State :=
  let s := s.onExc fun x => { x with cnt := { x.cnt with timeouts := bump x.cnt.timeouts } }
  if e.sends < 4 then sendEntry e s else failEntry e .noAnswer s

/-- R96: the answer timeout of a SENT entry. -/
def answerTimeout (seq : Nat) (s : State) : State :=
  match findEntry s seq with
  | some e => if e.state = .sent ∧ due e.deadline = true then timedOut e s else s
  | none => s

/-- R99: the end of a DEFER wait. -/
def deferWaitEnd (seq : Nat) (s : State) : State :=
  match findEntry s seq with
  | some e => if e.state = .deferred ∧ due e.deadline = true then sendEntry e s else s
  | none => s

/-- Whether an entry's LOCATE is placed and not yet reported. -/
def locatePlaced (e : Entry) : Option (Bool × List Nat × Option Nat) :=
  match e.search with
  | some (.placing second homes tens) => some (second, homes, tens)
  | _ => none

/-- R95, R104: the LIF reports a request of the EXC SENT: the answer timeout starts, or the collection window opens. -/
def reportSent (seq tok : Nat) (s : State) : State :=
  match findEntry s seq with
  | some e =>
    if e.tok ≠ tok then s
    else if e.state = .sent then putEntry { e with deadline := some 150 } s
    else match locatePlaced e with
      | some (second, homes, tens) => putEntry { e with search := some (.window second homes tens 150) } s
      | none => s
  | none => s

/-- R95, R104: the LIF reports a request of the EXC DROPPED: sent again at once, or handled as at timeout; a LOCATE is placed
again at once. -/
def reportDropped (seq tok : Nat) (s : State) : State :=
  match findEntry s seq with
  | some e =>
    if e.tok ≠ tok then s
    else if e.state = .sent then (if e.sends < 4 then sendEntry e s else timedOut e s)
    else match locatePlaced e with
      | some (second, homes, tens) => placeLocate e second homes tens s
      | none => s
  | none => s

/-! ### Answers (R97 to R99, R108 to R110) -/

/-- R98: the codes that may answer a request. -/
def codeAllowed (b : ReqBody) (c : AnsCode) : Bool :=
  match c, b with
  | .done, .release _ | .done, .post _ | .done, .lotReport .. => true
  | .doneAlready, .post _ => true
  | .lapsed, .post p => p.kind == .draw || p.kind == .settle
  | .clamped, .post p => p.kind == .ret
  | .granted, .hold .. | .granted, .claim _ => true
  | .grantedLess, .hold .. => true
  | .refusedFunds, .hold .. => true
  | .refusedFunds, .post p => p.kind == .issue
  | .refusedNoRoom, .hold .. => true
  | .taken, .claim _ => true
  | .unknown, .hold .. | .unknown, .release _ | .unknown, .post _ | .unknown, .claim _ | .unknown, .lotReport .. => true
  | .defer, .hold .. | .defer, .release _ | .defer, .post _ => true
  | .moved, .hold .. | .moved, .release _ | .moved, .post _ => true
  | .malformed, .locate => false
  | .malformed, _ => true
  | _, _ => false

/-- The subject of an entry, as its answers name it (R97). -/
def entrySubject (e : Entry) : Option Subject :=
  match e.body with
  | .claim lot => some (.lot lot)
  | .lotReport lot _ => some (.lot lot)
  | _ => e.account.map .account

/-- R97: SENT, DEFERRED, or a FAILED POST. -/
def awaits (e : Entry) : Bool := e.state == .sent || e.state == .deferred || (e.state == .failed && e.isPost)

def countUnmatched (s : State) : State :=
  s.onExc fun x => { x with cnt := { x.cnt with unmatched := bump x.cnt.unmatched } }

/-- R99: a DEFER. -/
def takeDefer (e : Entry) (tens : Nat) (s : State) : State :=
  let s := s.onExc fun x => { x with cnt := { x.cnt with defers := bump x.cnt.defers } }
  let e := { e with sends := 0, last := some (.code .defer) }
  if 20 ≤ e.deferrals then failEntry e (.code .defer) s
  else putEntry { e with state := .deferred, deferrals := e.deferrals + 1, deadline := some (tens * 10), tok := 0 } s

/-- R109, R110: a MOVED is followed: a HOLD or RELEASE is re-addressed, a posting re-identified. A ninth makes the entry FAILED.
While the re-identification commit runs, a posting shows QUEUED with destination `n`, its old identity and its deferrals (log
entry 70). -/
def takeMoved (e : Entry) (n : Nat) (s : State) : State :=
  let e := { e with sends := 0, last := some (.code .moved), deadline := none, tok := 0 }
  if 8 ≤ e.moves then failEntry e (.code .moved) s
  else
    let s := mapMoved (e.account.getD 0) n (s.onExc fun x => { x with cnt := { x.cnt with moved := bump x.cnt.moved } })
    let e := { e with state := .queued, dest := some n, moves := e.moves + 1, fromMap := false }
    if e.isPost then askReident e.seq (putEntry { e with committing := true } s)
    else putEntry { e with deferrals := 0 } s

/-- R108: an UNKNOWN from a destination taken from the home map. The entry has no node that it last addressed any more (log entry 89,
DESIGN CHOICE). -/
def takeStaleMap (e : Entry) (s : State) : State :=
  let e' := { e with state := .unresolved, dest := none, sends := 0, deferrals := 0, deadline := none, tok := 0
                     last := some (.code .unknown), fromMap := false, search := none }
  let t := resolveEntry e.seq (putEntry e' (mapRemove (e.account.getD 0) s))
  t.1

def isTransfer (e : Entry) : Bool := match e.body with | .post p => p.kind == .transfer | _ => false

/-- R98, R100: a matched answer. At a FAILED posting a DEFER, a MOVED, or another failure changes nothing. -/
def takeMatched (e : Entry) (c : AnsCode) (d : AnsData) (node : Nat) (s : State) : State :=
  let failed := e.state == .failed
  match c, d with
  | .defer, .wait w => if failed then s else takeDefer e w s
  | .moved, .newHome n => if failed then s else takeMoved e n s
  | .malformed, _ => if failed then s else failEntry { e with sends := 0 } (.code .malformed) s
  | .unknown, _ =>
    if e.isPost then
      (if isTransfer e then finalEntry e c d node s
       else if failed then s
       else failEntry { e with sends := 0 } (.code .unknown) s)
    else if e.fromMap then takeStaleMap e s
    else finalEntry e c d node s
  | _, _ => finalEntry e c d node s

/-- R97, R111: an answer of the own book to what it was asked, matched to the entry that was handed to it, whichever hand-over it
answers: the entry of that sequence that still asks this of this node. -/
def takeOwnAnswer (seq : Nat) (ask : BookAsk) (c : AnsCode) (d : AnsData) (s : State) : State :=
  match findEntry s seq with
  | some e =>
    if awaits e ∧ e.dest = some s.self ∧ ownAsk e = some ask then takeMatched e c d s.self s else countUnmatched s
  | none => countUnmatched s

/-- R97, R104: an ANSWER of the line with its fields read. -/
def takeLineAnswer (src seq : Nat) (k : ReqKind) (sub : Subject) (c : AnsCode) (d : AnsData) (s : State) : State :=
  match findEntry s seq with
  | some e =>
    if k = .locate then
      (match c, d, decide (e.state = .unresolved ∧ e.account.map Subject.account = some sub) with
       | .defer, .wait w, true => (deferSearch e w s).getD (countUnmatched s)
       | _, _, _ => countUnmatched s)
    else if awaits e && e.dest == some src && e.body.kind == k && entrySubject e == some sub && codeAllowed e.body c then
      takeMatched e c d src s
    else countUnmatched s
  | none => countUnmatched s

/-- R2, R97: an ANSWER to a request kind as it arrives: malformed fields drop it, whatever its code; a code that is none of R98 matches
nothing (log entry 34). -/
def takeAnswerTo (k : ReqKind) (h : Hdr) (a : RawAnswer) (s : State) : State :=
  match readSubject a.subject, readAnsData a.data with
  | some sub, some d =>
    (match ansCodeOf a.code with
     | none => countUnmatched s
     | some c => if ansDataFits k c d then takeLineAnswer h.src h.seq k sub c d s else countMalformed s)
  | _, _ => countMalformed s

/-- R97: an ANSWER as it arrives. Its answered kind, when it is no REQUEST kind code, is that of no entry, and its further fields have no
layout to be read by (log entry 34). -/
def takeAnswer (h : Hdr) (a : RawAnswer) (s : State) : State :=
  match a.kind with
  | some k => takeAnswerTo k h a s
  | none => countUnmatched s

/-! ### RETRY and DISCARD (R101) -/

/-- R101: RETRY. A re-identification that failed starts again at step 1 of R110, where the home map is updated. -/
def retryEntry (e : Entry) (s : State) : State :=
  let e' := { e with state := .queued, sends := 0, deferrals := 0, moves := 0, deadline := none, tok := 0 }
  match e.reident with
  | some n => askReident e.seq (putEntry { e' with committing := true, reident := none } (mapMoved (e.account.getD 0) n s))
  | none => putEntry e' s

def discardEntry (e : Entry) (s : State) : State :=
  unitOutcome { e with state := .doneToUnit } .discarded (giveUpEntry e s)

end Sys2Proof.Machine
end

