-- ==== Sys2Proof/Machine/Book.lean ====
section
/-! DEFINITION. The Account Book's decisions (chapter 2): the entries of the incoming request queue, their commits and answers, the
hold table, and the book commands of the station port. -/

namespace Sys2Proof.Machine
open Sys2Proof

/-! ### Taking an entry and delivering its outcome (R22, R23) -/

/-- The BOOK takes the oldest entry when none is in hand and it is of the kind asked for. -/
def takeBook (f : BookReq → Option (State → State)) (s : State) : State :=
  match s.book.hand, s.book.queue with
  | none, r :: rest =>
    (match f r with
     | some g => g (s.onBook fun b => { b with queue := rest, hand := some r })
     | none => s)
  | _, _ => s

/-- R23: the answer to the entry in hand. To the line it goes to the send queue, and the entry stays in hand while it waits there;
to the own EXC it goes at once. -/
def bookReply (r : BookReq) (k : ReqKind) (sub : Subject) (c : AnsCode) (d : AnsData) (s : State) : State :=
  match r.src with
  | .line node seq =>
    let m := answerMsg .book node seq k sub c d
    (match placingOf m s with
     | .waits => placeMsg .bookHand m s
     | _ => endBookHand (placeMsg .bookHand m s))
  | .own seq => takeOwnAnswer seq r.ask c d (endBookHand s)
  | .port => endBookHand s

/-- DEFER(100 ms) and the other answers by the account's state (R24); none for an OPEN account. -/
def stateAnswer (s : State) (acct : Nat) : Option (AnsCode × AnsData) :=
  match accountOf s acct with
  | none => some (.unknown, .none)
  | some a =>
    match a.state with
    | .opened => none
    | .yielding => some (.defer, .wait 10)
    | .moved h => some (.moved, .newHome h)

/-- An outcome of a station port book command (R36). -/
def endBookCmd (cmd : BookCmd) (acct : Nat) (code : PCode) (s : State) : State :=
  raise .storeEvent (endBookHand (s.onBook fun b => { b with result := some ⟨cmd, acct, code⟩ }))

/-! ### Postings (R25 to R28) -/

def replyPost (r : BookReq) (p : Posting) (c : AnsCode) (d : AnsData) : State → State := bookReply r .post (.account p.account) c d

/-- R26: whether the identity lies above the watermark of its origin. -/
def aboveMark (s : State) (id : Ident) : Bool := (markOf s.book.marks id.node).lt id.mark

/-- R25 to R27, R32: a POST taken from the queue. -/
def decidePost (r : BookReq) (x : Parsed Posting) (s : State) : State :=
  match x with
  | .bad f => bookReply r .post (.account (badAccount f)) .malformed .none s
  | .ok p =>
    if !aboveMark s p.id then
      replyPost r p .doneAlready .none (s.onBook fun b => { b with cnt := { b.cnt with duplicates := bump b.cnt.duplicates } })
    else match stateAnswer s p.account, accountOf s p.account with
      | some (c, d), _ => replyPost r p c d s
      | none, some a =>
        if p.kind = .issue ∧ debitAllowed s.book.holds a p.amount = false then replyPost r p .refusedFunds .none s
        else placeGroup .bookPost [.account p.account (.post p), .origin p.id] s
      | none, none => endBookHand s

/-- The hold that a DRAW or SETTLE names. -/
def namedHold (s : State) (p : Posting) : Option Hold := (postHoldKey p).bind (findHold s.book.holds)

/-- R28: the answer to an applied posting, from the record before the posting and the hold table as the commit completes. -/
def appliedAnswer (s : State) (p : Posting) (before : Account) : AnsCode × AnsData :=
  match p.kind with
  | .sale => (.done, .counts (metCounts before.crates p.items))
  | .draw | .settle => if (namedHold s p).isSome then (.done, .none) else (.lapsed, .none)
  | .issue => (.done, .none)
  | .ret => (if refundedInFull before p.items then .done else .clamped, .counts (metCounts before.crates p.items))
  | .transfer =>
    (.done, .dropped (adoptHolds p.account (match p.transfer with | some t => t.holds | none => []) s.book.holds).2)

/-- R30, R31, R35: what a completed commit does to the hold table. -/
def consumeHolds (p : Posting) (hs : List Hold) : List Hold :=
  match p.kind, postHoldKey p, p.transfer with
  | .draw, some k, _ => drawHold k p.amount hs
  | .settle, some k, _ => dropHold k hs
  | .transfer, _, some t => (adoptHolds p.account t.holds hs).1
  | _, _, _ => hs

/-- R27 to R35: the posting is applied and answered. -/
def applyAndAnswer (r : BookReq) (p : Posting) (s : State) : State :=
  let before := (accountOf s p.account).getD (newAccount p.account 0)
  let ans := appliedAnswer s p before
  let s := (takeAccount p.account (.post p) s).onBook fun b => { b with
    marks := raiseMark p.id b.marks
    holds := consumeHolds p b.holds
    cnt := if ans.1 = .lapsed then { b.cnt with lapsedAnswers := bump b.cnt.lapsedAnswers } else b.cnt }
  let s := match ans.2 with | .dropped n => dropHolds n s | _ => s
  replyPost r p ans.1 ans.2 s

/-- R27: the commit of a posting ends. After the account write the posting is applied, whatever the ORIGIN write does. -/
def postCommitted (res : StoreRes) (s : State) : State :=
  match s.book.hand with
  | some r =>
    (match r.ask with
     | .post (.ok p) =>
       if outboundsDone 1 res then applyAndAnswer r p s
       else replyPost r p .defer (.wait 100) (countStoreRefusal s)
     | _ => s)
  | none => s

/-! ### Holds (R42 to R44) -/

def replyHold (r : BookReq) (acct : Nat) (c : AnsCode) (d : AnsData) : State → State := bookReply r .hold (.account acct) c d

def isOpen (s : State) (acct : Nat) : Bool :=
  match accountOf s acct with
  | some a => a.state == .opened
  | none => false

/-- R19, R42: the grant of a HOLD for an OPEN account with room in the table. -/
def grantHold (r : BookReq) (h : HoldReq) (a : Account) (s : State) : State :=
  match grantAmount s.book.holds a h.amount h.acceptLess with
  | some (g, c) =>
    replyHold r h.account c (.amount g) (s.onBook fun b => { b with holds := b.holds ++ [⟨h.key, h.account, g, g, h.life, 0⟩] })
  | none => replyHold r h.account .refusedFunds .none s

/-- R42 from its second case on, for a HOLD whose key names no hold of an OPEN account. A key that stands for an account that is not
OPEN is not granted a second hold: where R19 would grant, the answer is DEFER(100 ms) (log entry 9). -/
def decideNewHold (r : BookReq) (h : HoldReq) (s : State) : State :=
  match stateAnswer s h.account, accountOf s h.account with
  | some (c, d), _ => replyHold r h.account c d s
  | none, some a =>
    if 24 ≤ s.book.holds.length then replyHold r h.account .refusedNoRoom .none s
    else if (findHold s.book.holds h.key).isSome && (grantAmount s.book.holds a h.amount h.acceptLess).isSome then
      replyHold r h.account .defer (.wait 10) s
    else grantHold r h a s
  | none, none => endBookHand s

/-- R42: a HOLD taken from the queue. -/
def decideHold (r : BookReq) (x : Parsed HoldReq) (s : State) : State :=
  match x with
  | .bad f => bookReply r .hold (.account (badAccount f)) .malformed .none s
  | .ok h =>
    match findHold s.book.holds h.key with
    | some held =>
      if isOpen s held.account then replyHold r h.account .granted (.amount held.remaining) s else decideNewHold r h s
    | none => decideNewHold r h s

/-- R43: a RELEASE taken from the queue. -/
def decideReleaseReq (r : BookReq) (x : Parsed ReleaseReq) (s : State) : State :=
  match x with
  | .bad f => bookReply r .release (.account (badAccount f)) .malformed .none s
  | .ok q =>
    let reply (c : AnsCode) (d : AnsData) : State → State := bookReply r .release (.account q.account) c d
    let byState (s : State) : State := match stateAnswer s q.account with
      | some (c, d) => reply c d s
      | none => reply .done .none s
    match findHold s.book.holds q.key with
    | some held =>
      if isOpen s held.account then reply .done .none (s.onBook fun b => { b with holds := dropHold q.key b.holds })
      else byState s
    | none => byState s

/-- R44: a second of a hold's lifetime, when its 1,000 ticks have passed; at 0 the hold lapses. -/
def holdSecond (k : Ident) (s : State) : State :=
  match findHold s.book.holds k with
  | some h =>
    if h.ms < 1000 then s
    else if h.life ≤ 1 then
      s.onBook fun b => { b with holds := dropHold k b.holds, cnt := { b.cnt with lapsedHolds := bump b.cnt.lapsedHolds } }
    else s.onBook fun b => { b with holds := b.holds.map fun x =>
        if x.key = k then { x with life := x.life - 1, ms := x.ms - 1000 } else x }
  | none => s

/-! ### LOCATE, OPENED and HOME (R24, R45) -/

/-- R24: a LOCATE taken from the queue: HOME to all nodes for an OPEN account, and otherwise no answer. -/
def decideLocate (r : BookReq) (x : Parsed Nat) (s : State) : State :=
  match x with
  | .bad f => bookReply r .locate (.account (badAccount f)) .malformed .none s
  | .ok a =>
    match isOpen s a, r.src with
    | true, .line _ seq =>
      let m := newMsg .answer 0 seq (.home a) .book 0
      (match placingOf m s with
       | .waits => placeMsg .bookHand m s
       | _ => endBookHand (placeMsg .bookHand m s))
    | _, _ => endBookHand s

/-- R45: an OPENED or a HOME of another node. A malformed one is dropped and counted (R2). -/
def compareHome (node : Nat) (x : Parsed Nat) (s : State) : State :=
  match x with
  | .bad _ => endBookHand (countMalformed s)
  | .ok a =>
    if isOpen s a then
      if s.self < node then endBookHand (placeOpened a s)
      else if node < s.self then beginYield a node s
      else endBookHand s
    else endBookHand s

/-! ### Opening (R37) -/

/-- What the book decides of an opening: a code without change, or the floor of the record to create. -/
inductive OpenDecision where
  | homeHere
  | deferred
  | moved (n : Nat)
  | code (c : PCode)
  | create (floor : Int)
  deriving DecidableEq, Repr

/-- R37, in its order. -/
def decideOpen (s : State) (acct limit : Nat) : OpenDecision :=
  match accountOf s acct with
  | some a => (match a.state with | .opened => .homeHere | .yielding => .deferred | .moved h => .moved h)
  | none =>
    if !s.lineActive then .code .notActive
    else match isBoat acct, s.port.cfg.boatFloor with
      | true, none => .code .notConfigured
      | true, some f => if 128 ≤ s.book.accounts.length then .code .bookFull else .create f
      | false, _ => if 128 ≤ s.book.accounts.length then .code .bookFull else .create (-(limit : Int))

/-- The commit of a new record is placed (R37). -/
def placeCreate (acct : Nat) (floor : Int) : State → State := placeGroup (.bookOpen floor) [.account acct (.create floor)]

/-- R37: a station port OPEN taken from the queue. The result of one that ends MOVED keeps the code alone (log entry 66). -/
def takeCmdOpen (acct limit : Nat) (s : State) : State :=
  match decideOpen s acct limit with
  | .homeHere => endBookCmd .openCmd acct .homeHere s
  | .deferred => endBookCmd .openCmd acct .defer s
  | .moved _ => endBookCmd .openCmd acct .moved s
  | .code c => endBookCmd .openCmd acct c s
  | .create f => placeCreate acct f s

/-- R37, R106: a local opening taken from the queue. -/
def takeLocalOpen (seq acct : Nat) (s : State) : State :=
  match decideOpen s acct 0 with
  | .homeHere => openingEnded seq .done (endBookHand s)
  | .deferred => openingEnded seq .defer (endBookHand s)
  | .moved n => openingEnded seq (.moved n) (endBookHand s)
  | .code c => openingEnded seq (.code c) (endBookHand s)
  | .create f => placeCreate acct f s

/-- R37: the commit of a new record ends. Any end but DONE counts as a store refusal (R50), a refusal for the reserve before the
write included (log entry 65). -/
def openCommitted (floor : Int) (res : StoreRes) (s : State) : State :=
  match s.book.hand with
  | some r =>
    let made (acct : Nat) (s : State) : State := placeOpened acct (takeAccount acct (.create floor) s)
    (match r.ask, res with
     | .cmdOpen acct _, .done => endBookCmd .openCmd acct .done (made acct s)
     | .cmdOpen acct _, _ => endBookCmd .openCmd acct res.code (countStoreRefusal s)
     | .localOpen seq acct, .done => openingEnded seq .done (endBookHand (made acct s))
     | .localOpen seq _, _ => openingEnded seq (.code res.code) (endBookHand (countStoreRefusal s))
     | _, _ => s)
  | none => s

/-! ### ADJUST, REMOVE, CLEAR FLAGS (R38 to R40) -/

/-- The code of a book command for an account that is not OPEN; none for an OPEN one. -/
def cmdStateCode (s : State) (acct : Nat) : Option PCode :=
  match accountOf s acct with
  | none => some .noAccount
  | some a => (match a.state with | .opened => none | .yielding => some .busy | .moved _ => some .moved)

/-- R38. -/
def takeAdjust (acct : Nat) (amount : Int) (s : State) : State :=
  match cmdStateCode s acct with
  | some c => endBookCmd .adjust acct c s
  | none => placeGroup .bookAdjust [.account acct (.adjust amount)] s

/-- R39: whether a record may be removed. -/
def removable (s : State) (a : Account) : Bool :=
  a.balance == 0 && a.crates.all (· == 0) && !(s.book.holds.any fun h => h.account == a.number)

/-- R39. -/
def takeRemove (acct : Nat) (s : State) : State :=
  match accountOf s acct with
  | none => endBookCmd .remove acct .noAccount s
  | some a =>
    match a.state with
    | .yielding => endBookCmd .remove acct .busy s
    | .moved _ => placeRemoval .bookRemove (.account acct) s
    | .opened => if removable s a then placeRemoval .bookRemove (.account acct) s else endBookCmd .remove acct .notEmpty s

/-- R40. -/
def takeClear (acct : Nat) (s : State) : State :=
  match cmdStateCode s acct, accountOf s acct with
  | some c, _ => endBookCmd .clearFlags acct c s
  | none, some a =>
    if a.saturated then placeGroup .bookClear [.account acct .clearFlags] s else endBookCmd .clearFlags acct .done s
  | none, none => endBookCmd .clearFlags acct .noAccount s

/-- R38: the commit of an ADJUST ends. -/
def adjustCommitted (res : StoreRes) (s : State) : State :=
  match s.book.hand with
  | some ⟨_, .cmdAdjust acct amt⟩ =>
    (match res with
     | .done => endBookCmd .adjust acct .done (takeAccount acct (.adjust amt) s)
     | _ => endBookCmd .adjust acct res.code (countStoreRefusal s))
  | _ => s

/-- R39: the removal ends. -/
def removeCommitted (s : State) : State :=
  match s.book.hand with
  | some ⟨_, .cmdRemove acct⟩ =>
    endBookCmd .remove acct .done (s.onBook fun b => { b with accounts := dropAccount acct b.accounts })
  | _ => s

/-- R40: the commit of a CLEAR FLAGS ends. -/
def clearCommitted (res : StoreRes) (s : State) : State :=
  match s.book.hand with
  | some ⟨_, .cmdClear acct⟩ =>
    (match res with
     | .done => endBookCmd .clearFlags acct .done (takeAccount acct .clearFlags s)
     | _ => endBookCmd .clearFlags acct res.code (countStoreRefusal s))
  | _ => s

/-- R22: the earliest waiting request of the own EXC enters the queue when a place is free, and a hand-over then counts as a send
(R113); a local opening does not (log entry 80, DESIGN CHOICE). -/
def bookPlaceWaiting (s : State) : State :=
  match s.book.wait with
  | r :: rest =>
    if s.book.queue.length < 16 then
      bookEnter r ((if isHandOver r then countSend s else s).onBook fun b => { b with wait := rest })
    else s
  | [] => s

end Sys2Proof.Machine
end

