-- ==== Sys2Proof/Machine/PortFrames.lean ====
section
/-! DEFINITION. The station port's frames as bytes (R196 to R198): what a frame is read as, the command table with its codes and
argument lengths, and the row of the opcode table that a frame comes to. The spec gives the arguments' fields and the layouts of
the quantities; the fields' order (that of the rule that names them) and the codes of selections, collections, kinds and
configuration fields are the model's choice (log entry 63). -/

namespace Sys2Proof.Machine
open Sys2Proof

/-! ### Reading a frame (R196, R197) -/

/-- A frame that PSEL has ended: a communication fault, or the code and the arguments of a command. -/
inductive FrameRead where
  | fault (x : PortFault)
  | command (code : Byte) (args : List Byte)
  deriving DecidableEq, Repr

/-- R197: TIMEOUT before LENGTH, LENGTH before CHECK. A frame is complete when the command and the answer's check have been clocked
whole and PSEL rises on a byte boundary; its check covers bytes 0 to 1 + N. `a` is the answer that the frame carries out. -/
def readFrame (a : PAnswer) (f : RawFrame) : FrameRead :=
  if f.late then .fault .timeout
  else match f.pdi with
    | code :: n :: rest =>
      if f.oddBits ≠ 0 ∨ f.pdi.length < 4 + n.toNat ∨ f.pdi.length < a.bytes.length then .fault .length
      else if (rest.drop n.toNat).take 2 ≠ beBytes 2 (lineCheck (code :: n :: rest.take n.toNat)).toNat then .fault .check
      else .command code (rest.take n.toNat)
    | _ => .fault .length

/-- The bytes that a command's sender clocks in: code, length, arguments, check (section 10.1). -/
def commandBytes (code : Byte) (args : List Byte) : List Byte :=
  let bs := code :: BitVec.ofNat 8 args.length :: args
  bs ++ beBytes 2 (lineCheck bs).toNat

/-- The bytes on PDO while the frame runs (R196). -/
def frameOut (s : State) (f : RawFrame) : List Byte := s.port.buf.sent f.pdi.length

/-! ### The command table (R198) -/

/-- `n` bytes of the arguments from place `i` on, as a packed decimal field. -/
def fieldAt (i n : Nat) (as : List Byte) : Field := (as.drop i).take n

/-- `n` bytes of the arguments from place `i` on, as a binary number, high byte first. -/
def numAt (i n : Nat) (as : List Byte) : Nat := (fieldAt i n as).foldl (fun v b => 256 * v + b.toNat) 0

/-- Whether the argument length is one that the command allows. -/
def sizeIn (ns : List Nat) (as : List Byte) : Bool := ns.contains as.length

/-- A selection byte by its place in the command's row of R203; the first selection is the default of an argument left out. -/
def selAt {α : Type} (sels : List α) (other : α) (as : List Byte) : α := (sels[numAt 0 1 as]?).getD other

def collections : List Collection :=
  [.accounts, .holds, .lots, .claims, .sales, .desks, .outbound, .homeMap, .peers, .blocked, .tags]

/-- One field of a CONFIGURE and what follows it: the field's place in R204's table, counted from 1, and its value. -/
def nextConfigItem : List Byte → Option (ConfigItem × List Byte)
  | [] => none
  | c :: as =>
    let take (n : Nat) (i : ConfigItem) : Option (ConfigItem × List Byte) := if n ≤ as.length then some (i, as.drop n) else none
    match c.toNat with
    | 1 => take 1 (.nodeNumber (numAt 0 1 as))
    | 2 => take 1 (.role (numAt 0 1 as))
    | 3 => take 1 (.ring (numAt 0 1 as))
    | 4 => take 2 (.levyRate (fieldAt 0 2 as))
    | 5 => take 5 (.boatFloor (fieldAt 0 5 as))
    | 6 => take 2 (.iceTariff (fieldAt 0 2 as))
    | 7 => take 2 (.gramsPerPulse (fieldAt 0 2 as))
    | 8 => take 48 (.crateTable ((List.range 8).map fun k => (fieldAt (6 * k) 4 as, fieldAt (6 * k + 4) 2 as)))
    | 9 => take 1 (.lineRate (numAt 0 1 as))
    | _ => none

/-- The list of a CONFIGURE; none when its bytes are no whole fields. `fuel` bounds the count of fields. -/
def configItems : Nat → List Byte → Option (List ConfigItem)
  | _, [] => some []
  | 0, _ => none
  | fuel + 1, as =>
    match nextConfigItem as with
    | some (i, rest) => (configItems fuel rest).map (i :: ·)
    | none => none

def batchKindOf : Nat → Option BatchKind
  | 1 => some .issue
  | 2 => some .ret
  | _ => none

/-- R198: the commands in the order of the command table, each from its argument bytes. -/
def commandTable : List (List Byte → Instr) :=
  [fun as => .nopStatus (sizeIn [0] as),
   fun as => .ack (sizeIn [2] as) (BitVec.ofNat 16 (numAt 0 2 as)),
   fun as => .mask (sizeIn [2] as) (BitVec.ofNat 16 (numAt 0 2 as)),
   fun as => .lock (sizeIn [0] as),
   fun as => .unlock (sizeIn [0] as),
   fun as => .configure (configItems 250 as).isSome ((configItems 250 as).getD []),
   fun as => .join (sizeIn [0] as),
   fun as => .leave (sizeIn [0] as),
   fun as => .restart (sizeIn [0] as),
   fun as => .eraseStore (sizeIn [0] as),
   fun as => .readAccount (sizeIn [3] as) (fieldAt 0 3 as),
   fun as => .readHold (sizeIn [5] as) (numAt 0 1 as) (numAt 1 2 as) (numAt 3 2 as),
   fun as => .readLot (if numAt 0 1 as = 0 then sizeIn [3] as else sizeIn [1] as) (selAt [.number (numAt 1 2 as), .event] .other as),
   fun as => .readQueue (sizeIn [0, 1] as) (selAt [.clock, .event] .other as),
   fun as => .readSale (if numAt 0 1 as = 0 then sizeIn [3] as else sizeIn [1] as) (selAt [.number (numAt 1 2 as), .event] .other as),
   fun as => .collectSale (sizeIn [2] as) (numAt 0 2 as),
   fun as => .readOutbound (if numAt 0 1 as = 0 then sizeIn [2] as else sizeIn [1] as) (selAt [.entry (numAt 1 1 as), .capture] .other as),
   fun as => .readDamaged (sizeIn [0] as),
   fun as => .readPeers (sizeIn [0] as),
   fun as => .readReading (sizeIn [0, 1] as) (selAt [.live, .result, .late] .other as),
   fun as => .readCounters (sizeIn [1] as) (selAt [.line, .exchange, .book, .store, .role, .port, .configuration] .other as),
   fun as => .readList (sizeIn [3] as) (selAt collections .other as) (numAt 1 2 as),
   fun as => .openAccount (sizeIn [3, 8] as) (fieldAt 0 3 as) (if as.length = 3 then none else some (fieldAt 3 5 as)),
   fun as => .adjust (sizeIn [8] as) (fieldAt 0 3 as) (fieldAt 3 5 as),
   fun as => .remove (sizeIn [3] as) (fieldAt 0 3 as),
   fun as => .clearFlags (sizeIn [3] as) (fieldAt 0 3 as),
   fun as => .retry (sizeIn [1] as) (numAt 0 1 as),
   fun as => .discard (sizeIn [1] as) (numAt 0 1 as),
   fun as => .weigh (sizeIn [11] as) (fieldAt 0 3 as) (numAt 3 2 as) (numAt 5 1 as) (numAt 6 1 as) (fieldAt 7 3 as) (numAt 10 1 as),
   fun as => .zero (sizeIn [0] as),
   fun as => .tare (sizeIn [4] as) (fieldAt 0 4 as),
   fun as => .calZero (sizeIn [0] as),
   fun as => .calSpan (sizeIn [4] as) (fieldAt 0 4 as),
   fun as => .calWrite (sizeIn [8] as) (fieldAt 0 4 as) (fieldAt 4 4 as),
   fun as => .releaseLot (sizeIn [2] as) (numAt 0 2 as),
   fun as => .reoffer (sizeIn [2] as) (numAt 0 2 as),
   fun as => .delete (sizeIn [2] as) (numAt 0 2 as),
   fun as => .showLot (sizeIn [0] as),
   fun as => .start (sizeIn [11] as) (fieldAt 0 3 as) (fieldAt 3 3 as) (fieldAt 6 3 as) (numAt 9 2 as),
   fun as => .halt (sizeIn [0] as),
   fun as => .resume (sizeIn [0] as),
   fun as => .withdraw (sizeIn [0] as),
   fun as => .deskIn (sizeIn [9] as) (numAt 0 1 as) (fieldAt 1 3 as) (fieldAt 4 5 as),
   fun as => .deskOut (sizeIn [1] as) (numAt 0 1 as),
   fun as => .order (sizeIn [6] as) (fieldAt 0 3 as) (fieldAt 3 2 as) (numAt 5 1 as % 2 == 1),
   fun as => .stop (sizeIn [0] as),
   fun as => .batchOpen (sizeIn [4] as) (batchKindOf (numAt 0 1 as)) (fieldAt 1 3 as),
   fun as => .batchClose (sizeIn [0] as),
   fun as => .batchCancel (sizeIn [0] as),
   fun as => .block (sizeIn [3] as) (numAt 0 3 as),
   fun as => .unblock (sizeIn [3] as) (numAt 0 3 as)]

/-- R198: the command codes run from 1 in the order of the command table; NOP/STATUS is 1 and UNBLOCK is 51. -/
def readCommand (code : Byte) (args : List Byte) : Option Instr :=
  if code.toNat = 0 then none else (commandTable[code.toNat - 1]?).map fun c => c args

/-- The codes of the command table (R198). -/
def knownCommand (code : Byte) : Bool := (readCommand code []).isSome

/-! ### The row that a frame comes to -/

/-- R196 to R198: the row of the opcode table that a frame is, with the answer buffer as it stands. -/
def frameInstr (f : RawFrame) (s : State) : Instr :=
  match readFrame s.port.buf f with
  | .fault .timeout => .portFrameTimeout
  | .fault _ => .portFrameFault f
  | .command code args => (readCommand code args).getD (.portUnknownCommand code)

/-- A frame arrives: its row stands at the front of the queue of commands. -/
def State.withFrame (f : RawFrame) (s : State) : State := { s with pending := frameInstr f s :: s.pending }

end Sys2Proof.Machine
end

