-- ==== Sys2Proof/Machine/LineFrames.lean ====
section
/-! DEFINITION. The hall line's messages as bytes: what a transmission that the LIF hears is read as (section 4.1, R71 steps 1 and 2), the
fields of each kind's body, and the row of the opcode table that a transmission comes to. Wire.lean composes what this file reads. A body
that is shorter than its layout is the model's choice (log entry 100), and so is a code that stands for nothing (log entries 34, 74, 79). -/

namespace Sys2Proof.Machine
open Sys2Proof

/-! ### The kinds of message (section 4.1) -/

/-- The rows of the kinds table. -/
inductive LineKind where
  | clash | answer | home | hold | release | post | locate | claim | lotReport | join | present | opened | lot
  deriving DecidableEq, Repr

def LineKind.cls : LineKind → MsgClass
  | .clash => .urgent
  | .answer | .home => .answer
  | .hold | .release | .post | .locate | .claim | .lotReport => .request
  | .join | .present | .opened | .lot => .notice

def LineKind.code : LineKind → Nat
  | .clash | .answer | .hold | .join => 1
  | .home | .release | .present => 2
  | .post | .opened => 3
  | .locate | .lot => 4
  | .claim => 5
  | .lotReport => 6

/-- Whether the table addresses a kind to 0, as against to a node. -/
def LineKind.toAll : LineKind → Bool
  | .answer | .hold | .release | .post | .claim | .lotReport => false
  | .clash | .home | .locate | .join | .present | .opened | .lot => true

def lineKinds : List LineKind :=
  [.clash, .answer, .home, .hold, .release, .post, .locate, .claim, .lotReport, .join, .present, .opened, .lot]

/-- The kind of a class and a kind code; none when they form no pair of the table. -/
def lineKindOf (cls code : Nat) : Option LineKind := lineKinds.find? fun k => k.cls.code == cls && k.code == code

/-! ### Check and header (R71) -/

/-- R71 step 2: a source of 1 to 62, a destination of the form that the kind asks for, five sequence bits. Since a byte whose high bits
are not 0 is greater than these, the bits shown as 0 are checked with them. -/
def headerOk (toAll : Bool) (h : Hdr) : Bool :=
  nodeOk h.src && decide (h.seq ≤ 31) && (if toAll then h.dst == 0 else nodeOk h.dst)

/-- What a transmission is read as: an error of step 1 or of step 2, or a message with its kind, its header and its body. -/
inductive LineRead where
  | checkError
  | formatError
  | message (k : LineKind) (h : Hdr) (body : List Byte)
  deriving DecidableEq, Repr

/-- R71 step 1: whether a stop bit read dominant, the line fell idle before the bytes that the length announces, or the check differs from
that over bytes 0 to 4 + L. -/
def checkFails (w : RawLine) : Bool :=
  let n := numAt 4 1 w.bytes
  w.stopBad || decide (w.bytes.length < n + 7) || fieldAt (n + 5) 2 w.bytes != beBytes 2 (lineCheck (w.bytes.take (n + 5))).toNat

/-- R71 step 2, of a transmission that passes step 1. -/
def readHeader (w : RawLine) : LineRead :=
  let h : Hdr := ⟨numAt 1 1 w.bytes, numAt 2 1 w.bytes, numAt 3 1 w.bytes⟩
  match lineKindOf (numAt 0 1 w.bytes / 64) (numAt 0 1 w.bytes % 64) with
  | some k =>
    if w.arbitration = arbitrationCode k.cls h.src ∧ headerOk k.toAll h = true then
      .message k h (fieldAt 5 (numAt 4 1 w.bytes) w.bytes)
    else .formatError
  | none => .formatError

/-- R71 steps 1 and 2. -/
def readLine (w : RawLine) : LineRead := if checkFails w then .checkError else readHeader w

/-! ### Bodies (section 4.1, R25, R42, R43, R97, R132, R134, R135) -/

/-- An indication of one byte, whose coding is a free value (log entry 77). -/
def saysAt (i : Nat) (b : List Byte) : Bool := fieldAt i 1 b == coded true

/-- R132: a lot's description, from place `i` on. -/
def rawLotAt (i : Nat) (b : List Byte) : RawLot :=
  ⟨numAt i 1 b, numAt (i + 1) 2 b, fieldAt (i + 3) 3 b, numAt (i + 6) 1 b, numAt (i + 7) 2 b, numAt (i + 9) 1 b, fieldAt (i + 10) 4 b,
    numAt (i + 14) 1 b, fieldAt (i + 15) 3 b, numAt (i + 18) 1 b, numAt (i + 19) 1 b⟩

/-- The posting kind whose code a byte is, by the free value of log entry 77. -/
def postKindAt (i : Nat) (b : List Byte) : Option PostKind :=
  [PostKind.sale, .draw, .settle, .issue, .ret, .transfer].find? fun k => fieldAt i 1 b == coded k

def rawItemAt (b : List Byte) (i : Nat) : RawItem := ⟨numAt i 1 b, fieldAt (i + 1) 3 b, fieldAt (i + 4) 2 b⟩

def rawCarriedAt (b : List Byte) (i : Nat) : RawCarried :=
  ⟨numAt i 1 b, numAt (i + 1) 2 b, numAt (i + 3) 2 b, fieldAt (i + 5) 5 b, numAt (i + 10) 2 b⟩

/-- The bytes of a posting before its parts: identity, kind, account, amount. -/
def postHead : Nat := 14

/-- The bytes of the crate items with their count, for a kind that has them. -/
def itemsSize (k : PostKind) (b : List Byte) : Nat := if postHasItems k then 1 + 6 * numAt postHead 1 b else 0

/-- A part of a posting that its kind has and that the body holds whole. -/
def partAt {α : Type} (has : Bool) (last : Nat) (b : List Byte) (a : α) : Option α :=
  if has && decide (last ≤ b.length) then some a else none

/-- R25: the posting in a POST's body, with the parts of a kind. -/
def rawPostOf (k : PostKind) (b : List Byte) : RawPost :=
  let key := postHead + itemsSize k b
  let holds := numAt (postHead + 39) 1 b
  { origin := numAt 0 1 b, epoch := numAt 1 2 b, number := numAt 3 2 b, kind := some k, account := fieldAt 6 3 b, amount := fieldAt 9 5 b
    items := partAt (postHasItems k) key b
      ((List.range (numAt postHead 1 b)).map fun j => rawItemAt b (postHead + 1 + 6 * j))
    holdKey := partAt (postHasKey k) (key + 4) b (numAt key 2 b, numAt (key + 2) 2 b)
    transfer := partAt (k == .transfer) (postHead + 40 + 12 * holds) b
      { balance := fieldAt postHead 5 b, floor := fieldAt (postHead + 5) 5 b
        saturated := saysAt (postHead + 10) b, overdrawn := saysAt (postHead + 11) b, unmatched := fieldAt (postHead + 12) 3 b
        counts := (List.range 8).map fun j => fieldAt (postHead + 15 + 3 * j) 3 b
        holds := (List.range holds).map fun j => rawCarriedAt b (postHead + 40 + 12 * j) } }

/-- R25: the posting in a POST's body. One of a kind that is none of the six has the fields before the parts alone. -/
def rawPostAt (b : List Byte) : RawPost :=
  match postKindAt 5 b with
  | some k => rawPostOf k b
  | none => { origin := numAt 0 1 b, epoch := numAt 1 2 b, number := numAt 3 2 b, kind := none, account := fieldAt 6 3 b
              amount := fieldAt 9 5 b, items := none, holdKey := none, transfer := none }

/-- R135: the result of a LOTREPORT; none for a byte that says neither SOLD nor UNSOLD. -/
def soldAt (i : Nat) (b : List Byte) : Option Bool := [true, false].find? fun x => fieldAt i 1 b == coded x

/-- The request kind that an ANSWER answers, by its REQUEST kind code (R97). -/
def answeredKind (code : Nat) : Option ReqKind :=
  [ReqKind.hold, .release, .post, .locate, .claim, .lotReport].find? fun k => requestCode k == code

/-- The counts that a DONE or CLAMPED carries, from place `i` on, each with its crate type (R97). -/
def countsFrom (i : Nat) (b : List Byte) : List (Nat × Field) :=
  (List.range ((b.length - i) / 4)).map fun j => (numAt (i + 4 * j) 1 b, fieldAt (i + 4 * j + 1) 3 b)

/-- R97, R134: an ANSWER's data, from place 5 on, as its code asks for. What a DONE or a CLAMPED of a POST carries is told by the kind of the
posting that it answers. -/
def rawDataOf (posted : Option PostKind) (k : ReqKind) (code : Nat) (b : List Byte) : RawData :=
  match ansCodeOf code, k, posted with
  | some .granted, .claim, _ => .lot (rawLotAt 5 b)
  | some .granted, _, _ | some .grantedLess, _, _ => .amount (fieldAt 5 5 b)
  | some .taken, _, _ => .holder (numAt 5 1 b)
  | some .moved, _, _ => .newHome (numAt 5 1 b)
  | some .defer, _, _ => .wait (numAt 5 1 b)
  | some .done, .post, some .sale | some .done, .post, some .ret | some .clamped, .post, some .ret => .counts (countsFrom 5 b)
  | some .done, .post, some .transfer => .dropped (numAt 5 1 b)
  | _, _, _ => .none

/-- R97: the answered kind, the subject, which is a lot identity for CLAIM and LOTREPORT, the code and the code's data. -/
def rawAnswerOf (posted : Option PostKind) (k : ReqKind) (b : List Byte) : RawAnswer :=
  { kind := some k
    subject := match k with
      | .claim | .lotReport => .lot (numAt 1 1 b) (numAt 2 2 b)
      | _ => .account (fieldAt 1 3 b)
    code := numAt 4 1 b
    data := rawDataOf posted k (numAt 4 1 b) b }

/-- R97: the body of an ANSWER. One whose answered kind is no REQUEST kind code has its code alone: what else it holds matches no entry. -/
def rawAnswerAt (posted : Option PostKind) (b : List Byte) : RawAnswer :=
  match answeredKind (numAt 0 1 b) with
  | some k => rawAnswerOf posted k b
  | none => { kind := none, subject := .account (fieldAt 1 3 b), code := numAt 4 1 b, data := .none }

/-- The kind of the posting that an entry of the outbound table sends. -/
def postedKind (s : State) (seq : Nat) : Option PostKind := (findEntry s seq).bind fun e => e.body.posting.map (·.kind)

/-! ### The row that a transmission comes to -/

/-- The row of a message: every message that passes steps 1 and 2 of R71 has one. -/
def messageInstr (s : State) (k : LineKind) (h : Hdr) (b : List Byte) : Instr :=
  match k with
  | .clash => .clash h (numAt 0 1 b) (numAt 1 6 b) (numAt 7 6 b)
  | .answer => .answer h (rawAnswerAt (postedKind s h.seq) b)
  | .home => .home h (fieldAt 0 3 b)
  | .hold => .hold h ⟨numAt 0 2 b, numAt 2 2 b, fieldAt 4 3 b, fieldAt 7 5 b, saysAt 12 b, numAt 13 2 b⟩
  | .release => .release h ⟨numAt 0 2 b, numAt 2 2 b, fieldAt 4 3 b⟩
  | .post => .post h (rawPostAt b)
  | .locate => .locate h (fieldAt 0 3 b)
  | .claim => .claim h (numAt 0 1 b) (numAt 1 2 b)
  | .lotReport => .lotReport h (numAt 0 1 b) (numAt 1 2 b) (soldAt 3 b)
  | .join => .joinMessage h (numAt 1 1 b) (numAt 2 1 b) (numAt 3 6 b) (numAt 9 2 b)
  | .present => .present h (numAt 0 1 b) (numAt 1 1 b)
  | .opened => .opened h (fieldAt 0 3 b)
  | .lot => .lot h (rawLotAt 0 b)

/-- R71: the row of the opcode table that a heard transmission is. -/
def lineInstr (w : RawLine) (s : State) : Instr :=
  match readLine w with
  | .message k h b => messageInstr s k h b
  | _ => .lineGarbledMessage w

/-- A transmission is heard: its row stands at the front of the queue of commands. -/
def State.withHeard (w : RawLine) (s : State) : State := { s with pending := lineInstr w s :: s.pending }

end Sys2Proof.Machine
end

