-- ==== Sys2Proof/Machine/Lif.lean ====
section
/-! DEFINITION. The Line Interface (chapter 4): taking a message, own-number checks, routing, line states, the sending of messages,
PRESENT, and the peer list. -/

namespace Sys2Proof.Machine
open Sys2Proof

def onLineCounters (f : LifCounters → LifCounters) (s : State) : State := s.onLif fun l => { l with cnt := f l.cnt }

/-! ### Line states (section 4.5) -/

/-- Every entry to a line state raises LINE_STATE (section 4.5). -/
def setLine (st : LineState) (s : State) : State := raise .lineState (s.onLif fun l => { l with state := st })

/-- The LIF's queues and timers are emptied; a unit that waits to place a message ends what it has in hand (R76, R81, R82). -/
def emptyQueues (s : State) : State :=
  let ends := s.lif.wait.map (·.ends)
  ends.foldl (fun acc e => endHand e acc) (s.onLif fun l =>
    { l with queue := [], reserve := [], wait := [], tx := none, listenT := none, clashT := none, presentT := none })

/-- R81, R111, R127: what the other blocks do when the line goes down or is left. -/
def tellLineDown (s : State) : State :=
  let s := excLineDown s
  if s.inService .scale then wguLineDown s else s

/-- R81: entry to CONFLICT or LINE FAULT. -/
def enterDown (st : LineState) (out : JoinOutcome) (s : State) : State :=
  let s := s.onLif fun l => { l with state := st, lastJoin := out }
  raise .lineState (tellLineDown (emptyQueues s))

def enterConflict (s : State) : State := raise .conflict (enterDown .conflict .conflict s)
def enterLineFault (s : State) : State := enterDown .lineFault .lineFault s

/-- R78: the LIF enters LISTEN. -/
def enterListen (s : State) : State :=
  setLine .listen (s.onLif fun l => { l with numbering := false, listenT := some 2000 })

/-- R78: the commit of the node number ends. The LIF has stayed OFFLINE meanwhile. -/
def numberEnded (res : StoreRes) (s : State) : State :=
  let failed (out : JoinOutcome) : State := raise .lineState (s.onLif fun l => { l with numbering := false, lastJoin := out })
  if s.lif.state ≠ .offline then s
  else match res with
    | .done => enterListen s
    | .full _ => failed .storeFull
    | .fault _ => failed .storeFault

/-- R78: a JOIN past its checks: rate and consecutive errors, then the number, then LISTEN. While the number's commit is under way
none is placed again (log entry 52). A line rate that is unset leaves none in use (log entry 69). -/
def joinAccepted (s : State) : State :=
  let s := s.onLif fun l => { l with rate := s.port.cfg.lineRate, cnt := { l.cnt with consecErrors := 0 } }
  if s.lif.numbering then s
  else if s.self = 0 then
    placeGroup .number [.node (.number (s.port.cfg.nodeNumber.getD 0))] (s.onLif fun l => { l with numbering := true })
  else enterListen s

/-- The ring that the node's own JOIN and PRESENT carry: its ring for a CLOCK, 0 for the other roles (section 4.1). -/
def ownRing (s : State) : Nat := if s.port.role = some .clock then s.port.cfg.ring.getD 0 else 0

def joinMsg (s : State) : Msg := newMsg .notice 0 0 (.join s.port.role (ownRing s) s.lif.serial s.sys.epoch) .lif 0
def presentMsg (s : State) : Msg := newMsg .notice 0 0 (.present s.port.role (ownRing s)) .lif 0

/-- R78, R79: 20 ms of idle line in LISTEN: ANNOUNCE, and JOIN is placed. -/
def listenIdle (s : State) : State :=
  if s.lif.state = .listen then
    let s := setLine .announce (s.onLif fun l => { l with listenT := none })
    placeMsg .nothing (joinMsg s) s
  else s

/-- R78: 2,000 ms in LISTEN without an idle period. -/
def listenTimesOut (s : State) : State :=
  if s.lif.state = .listen ∧ due s.lif.listenT = true then enterLineFault s else s

/-- R79: the LIF enters ACTIVE and tells the EXC, the BOOK and the role unit. -/
def becomeActive (s : State) : State :=
  let s := setLine .active (s.onLif fun l => { l with lastJoin := .active, clashT := none, presentT := some 0 })
  let s := bookLineUp (excLineUp s)
  if s.inService .scale then wguLineUp s else s

def clashWindowEnds (s : State) : State :=
  if s.lif.state = .announce ∧ due s.lif.clashT = true then becomeActive s else s

/-- R82: the LEAVE completes. -/
def leaveNow (s : State) : State :=
  let s := emptyQueues (s.onLif fun l => { l with state := .offline, lastJoin := .left, leaving := false, peers := [] })
  let s := tellLineDown (s.onExc fun x => { x with homeMap := [] })
  raise .lineState s

/-- R82: LEAVE. -/
def takeLeave (s : State) : State :=
  if s.lif.state = .offline then s
  else if s.lif.tx.isNone then leaveNow s
  else s.onLif fun l => { l with leaving := true }

/-- R82: the transmission in progress at a LEAVE has run to its end. -/
def leaveDrained (s : State) : State := if s.lif.leaving then leaveNow s else s

/-! ### The peer list (R84, R85) -/

/-- R84: a peer entry in the peer list, one for each of the 62 node numbers at most. -/
def putPeer (p : Peer) (ps : List Peer) : List Peer := putKeyed (·.node) 62 p ps

def findPeer (ps : List Peer) (node : Nat) : Option Peer := ps.find? fun p => p.node == node

/-- R84: a node is heard; a JOIN or PRESENT brings its role and ring. -/
def hearPeer (node : Nat) (told : Option (Role × Nat)) (s : State) : State :=
  let old : Peer := (findPeer s.lif.peers node).getD ⟨node, none, 0, 0⟩
  let new : Peer := match told with
    | some (r, ring) => { old with role := some r, ring := ring, age := 0 }
    | none => { old with age := 0 }
  s.onLif fun l => { l with peers := putPeer new l.peers }

/-- The role and ring of a JOIN or PRESENT (section 4.1): ring 1 to 8 for a CLOCK, 0 for the others; none when malformed. -/
def readRoleRing (role ring : Nat) : Option (Role × Nat) :=
  match roleOf role with
  | some .clock => if ringOk ring then some (.clock, ring) else none
  | some r => if ring = 0 then some (r, 0) else none
  | none => none

/-- R85: a peer's age reaches 35,000 ms. -/
def peerExpires (node : Nat) (s : State) : State :=
  match findPeer s.lif.peers node with
  | some p =>
    if p.age < 35000 then s
    else
      let s := s.onLif fun l => { l with
        peers := l.peers.filter fun x => x.node != node, cnt := { l.cnt with peersRemoved := bump l.cnt.peersRemoved } }
      wguPeerRemoved (s.onExc fun x => { x with homeMap := x.homeMap.filter fun e => e.2 != node })
  | none => s

/-! ### Taking a message (R71, R86, R87) -/

/-- R78 to R80: a message from the own number that the node did not send. -/
def ownHeard (s : State) : State :=
  match s.lif.state with
  | .listen | .announce | .active => enterConflict s
  | _ => s

/-- R71 from step 2 on, for a transmission that `lineInstr` has brought to the row of its kind. `own` deals with a message of the own number,
`told` is what a JOIN or PRESENT tells of its sender. -/
def hear (toAll : Bool) (h : Hdr) (told : Option (Role × Nat)) (own deliver : State → State) (s : State) : State :=
  if s.lif.state = .offline then s
  else if !headerOk toAll h then onLineCounters (fun c => { c with formatErrors := bump c.formatErrors }) s
  else
    let s := if h.src = s.self then own s else hearPeer h.src told s
    if h.dst ≠ 0 ∧ h.dst ≠ s.self then onLineCounters (fun c => { c with notAddressed := bump c.notAddressed }) s
    else if s.lif.state = .active then deliver s
    else onLineCounters (fun c => { c with notRouted := bump c.notRouted }) s

/-- A message handed to an owner (R86). -/
def countReceived (s : State) : State := onLineCounters (fun c => { c with received := bump c.received }) s

/-- R71 steps 1 and 2: a garbled message is counted by the step that drops it. A transmission that reads as a message is not this row's, but
its kind's, and changes nothing here (log entry 53). -/
def hearGarbled (w : RawLine) (s : State) : State :=
  if s.lif.state = .offline then s
  else match readLine w with
    | .checkError => onLineCounters (fun c => { c with checkErrors := bump c.checkErrors }) s
    | .formatError => onLineCounters (fun c => { c with formatErrors := bump c.formatErrors }) s
    | .message .. => s

/-- A malformed JOIN or PRESENT of another node is dropped and counted by the LIF (R2). -/
def countBadNotice (h : Hdr) (told : Option (Role × Nat)) (s : State) : State :=
  if told.isNone && h.src != s.self && s.lif.state != .offline && headerOk true h then countMalformed s else s

/-- R80: the CLASH that answers a JOIN. -/
def clashMsg (joinSerial : Nat) (s : State) : Msg := newMsg .urgent 0 0 (.clash s.self joinSerial s.lif.serial) .lif 0

/-- R78 to R80: a JOIN of the own number. -/
def ownJoin (serial : Nat) (s : State) : State :=
  if s.lif.state = .active ∧ serial ≠ s.lif.serial then reserveMsg false (clashMsg serial s) s else ownHeard s

def hearJoin (h : Hdr) (role ring serial : Nat) (s : State) : State :=
  let told := readRoleRing role ring
  hear true h told (ownJoin serial) countReceived (countBadNotice h told s)

def hearPresent (h : Hdr) (role ring : Nat) (s : State) : State :=
  let told := readRoleRing role ring
  hear true h told ownHeard countReceived (countBadNotice h told s)

/-- R79: in ANNOUNCE a CLASH that names the node's number, whatever its source. -/
def clashNames (number : Nat) (s : State) : State :=
  if s.lif.state = .announce ∧ number = s.self then enterConflict s else s

def hearClash (h : Hdr) (number : Nat) (s : State) : State :=
  hear true h none ownHeard countReceived (if headerOk true h then clashNames number s else s)

/-- A notice for the BOOK's queue: dropped and counted by the BOOK when it is full (R22). -/
def noticeToBook (r : BookReq) (s : State) : State :=
  if bookRoom s then bookEnter r s
  else s.onBook fun b => { b with cnt := { b.cnt with droppedNotices := bump b.cnt.droppedNotices } }

def hearOpened (h : Hdr) (f : Field) (s : State) : State :=
  hear true h none ownHeard (fun s => noticeToBook ⟨.line h.src h.seq, .opened h.src (readAcctField f)⟩ (countReceived s)) s

/-- A HOME goes to the EXC, which collects it, and to the BOOK (R86). -/
def collectIfRead (h : Hdr) (p : Parsed Nat) (s : State) : State :=
  match p with
  | .ok a => collectHome h.src a h.seq s
  | .bad _ => s

def hearHome (h : Hdr) (f : Field) (s : State) : State :=
  hear true h none ownHeard (fun s =>
    noticeToBook ⟨.line h.src h.seq, .home h.src (readAcctField f)⟩ (collectIfRead h (readAcctField f) (countReceived s))) s

def hearAnswer (h : Hdr) (a : RawAnswer) (s : State) : State :=
  hear false h none ownHeard (fun s => takeAnswer h a (countReceived s)) s

/-- The subject that a DEFER from the reserve echoes (R97, log entry 78). -/
def parsedSubject {α : Type} (acct : α → Nat) : Parsed α → Subject
  | .ok a => .account (acct a)
  | .bad f => .account (badAccount f)

/-- A request for the BOOK: entered, or answered DEFER(50 ms) from the reserve when the queue is full (R77, R86). -/
def requestToBook (h : Hdr) (k : ReqKind) (sub : Subject) (a : BookAsk) (s : State) : State :=
  if bookRoom s then bookEnter ⟨.line h.src h.seq, a⟩ (countReceived s) else reserveDefer h k sub s

def hearHold (h : Hdr) (r : RawHold) (s : State) : State :=
  let p := readHoldReq h.src r
  hear false h none ownHeard (requestToBook h .hold (parsedSubject (·.account) p) (.hold p)) s

def hearRelease (h : Hdr) (r : RawRelease) (s : State) : State :=
  let p := readReleaseReq h.src r
  hear false h none ownHeard (requestToBook h .release (parsedSubject (·.account) p) (.release p)) s

def hearPost (h : Hdr) (r : RawPost) (s : State) : State :=
  let p := readPost h.src r
  hear false h none ownHeard (requestToBook h .post (parsedSubject (·.account) p) (.post p)) s

def hearLocate (h : Hdr) (f : Field) (s : State) : State :=
  let p := readAcctField f
  hear true h none ownHeard (requestToBook h .locate (parsedSubject id p) (.locate p)) s

/-- A lot request: to the WGU at a SCALE, UNKNOWN from the reserve at any other role (R77, R86). -/
def requestToScale (h : Hdr) (k : ReqKind) (lot : LotId) (r : LotReq) (s : State) : State :=
  if s.inService .scale then lotArrive r (countReceived s)
  else reserveMsg false (answerMsg .lif h.src h.seq k (.lot lot) .unknown .none) s

/-- A binary lot identity of a CLAIM or LOTREPORT is in range (R1); one that is not is malformed, as a packed field is (log entry
73). -/
def lotIdOk (scale number : Nat) : Bool := nodeOk scale && numOk number

/-- R134: a CLAIM heard. -/
def hearClaim (h : Hdr) (scale number : Nat) (s : State) : State :=
  hear false h none ownHeard
    (requestToScale h .claim ⟨scale, number⟩ (.claim h.src h.seq ⟨scale, number⟩ (lotIdOk scale number))) s

/-- R135: a LOTREPORT heard. One that says neither SOLD nor UNSOLD is malformed, as one with an identity out of range is (log entry 74). -/
def hearReport (h : Hdr) (scale number : Nat) (sold : Option Bool) (s : State) : State :=
  hear false h none ownHeard
    (requestToScale h .lotReport ⟨scale, number⟩
      (.report h.src h.seq ⟨scale, number⟩ (lotIdOk scale number && sold.isSome) (sold.getD false))) s

/-- A LOT notice: to the CLU at a CLOCK, counted at any other role (R86, R140). -/
def noticeToClock (d : RawLot) (s : State) : State :=
  if s.inService .clock then
    (match readLotDesc d with
     | some d => cluNotice d (countReceived s)
     | none => countMalformed (countReceived s))
  else onLineCounters (fun c => { c with notForRole := bump c.notForRole }) s

def hearLot (h : Hdr) (d : RawLot) (s : State) : State := hear true h none ownHeard (noticeToClock d) s

/-! ### Sending (R73 to R77, R80) -/

/-- R76: the first message of the send queue and the answer reserve in class order, an older one first within a class. -/
def firstMsg (ms : List Msg) : Option Msg :=
  ms.foldl (fun acc m => match acc with
    | none => some m
    | some x => if m.cls.code < x.cls.code ∨ (m.cls = x.cls ∧ m.stamp < x.stamp) then some m else some x) none

/-- Whether the LIF may send: in ACTIVE, and in ANNOUNCE its JOIN (section 4.5). -/
def maySend (l : Lif) : Bool := (l.state == .active || l.state == .announce) && l.tx.isNone && !l.leaving

/-- R73, R76: at a quiet time the first message starts, and its bytes go out on LTX. -/
def quietTime (s : State) : State :=
  if maySend s.lif then
    match firstMsg (s.lif.queue ++ s.lif.reserve) with
    | some m => s.onLif fun l => { l with tx := some ⟨m.stamp, m.onLine s.self⟩ }
    | none => s
  else s

/-- The message being sent. -/
def sending (s : State) : Option Msg :=
  match s.lif.tx with
  | some t => (s.lif.queue ++ s.lif.reserve).find? fun m => m.stamp == t.stamp
  | none => none

def dropMsg (m : Msg) (s : State) : State :=
  s.onLif fun l => { l with
    tx := none, queue := l.queue.filter fun x => x.stamp != m.stamp, reserve := l.reserve.filter fun x => x.stamp != m.stamp }

/-- R74: contention lost; the message keeps its place and its attempts. -/
def loseContention (s : State) : State :=
  match sending s with
  | some _ => onLineCounters (fun c => { c with contentionLosses := bump c.contentionLosses }) (s.onLif fun l => { l with tx := none })
  | none => s

/-- R79: the JOIN of an ANNOUNCE is reported SENT, and the clash window starts. -/
def joinSent (m : Msg) (s : State) : State :=
  match m.body with
  | .join .. => if s.lif.state = .announce then s.onLif fun l => { l with clashT := some 200 } else s
  | _ => s

/-- The report to the block that placed a message (R75, R76). -/
def reportSentTo (m : Msg) (s : State) : State :=
  match m.block with
  | .exc => reportSent m.seq m.tok s
  | .lif => joinSent m s
  | _ => s

def reportDroppedTo (m : Msg) (s : State) : State :=
  match m.block, m.body with
  | .exc, _ => reportDropped m.seq m.tok s
  | .lif, .join .. => if s.lif.state = .announce then enterLineFault s else s
  | _, _ => s

/-- R75, R80, R82: a message read back whole. -/
def sendCompletes (s : State) : State :=
  match sending s with
  | some m =>
    let s := dropMsg m s
    let s := s.onLif fun l => { l with
      presentT := l.presentT.map fun _ => 0, cnt := { l.cnt with consecErrors := 0, sent := bump l.cnt.sent } }
    if s.lif.leaving then s else reportSentTo m s
  | none => s

/-- A line error is counted, and the message's attempts rise (R75). -/
def countLineError (m : Msg) (s : State) : State :=
  let rise (x : Msg) : Msg := if x.stamp = m.stamp then { x with attempts := x.attempts + 1 } else x
  s.onLif fun l => { l with
    tx := none, queue := l.queue.map rise, reserve := l.reserve.map rise
    cnt := { l.cnt with lineErrors := bump l.cnt.lineErrors, consecErrors := bump l.cnt.consecErrors } }

def countDropped (s : State) : State := onLineCounters (fun c => { c with dropped := bump c.dropped }) s

/-- R75: a line error. While a LEAVE waits, the message is not attempted again and its outcome not reported (R82). -/
def lineErrs (s : State) : State :=
  match sending s with
  | some m =>
    let s := countLineError m s
    if 16 ≤ s.lif.cnt.consecErrors then enterLineFault (countDropped (dropMsg m s))
    else if 3 ≤ m.attempts then
      let s := countDropped (dropMsg m s)
      if s.lif.leaving then s else reportDroppedTo m s
    else s
  | none => s

/-- A LOT notice placed late restarts its lot's offer timer and decides NO RING (R132); a request counts as a send (R113). -/
def notePlaced (m : Msg) (s : State) : State :=
  match m.body with
  | .request .. => countSend s
  | .lot d =>
    (match findLot s d.id.number with
     | some l => decideNoRing d.id.number (if l.state = .offered then putLot { l with offer := some 0 } s else s)
     | none => s)
  | _ => s

/-- R76: the earliest block to have begun waiting places its message when an entry has left the queue, a request whose entry has
ended or been deferred meanwhile included (log entry 72). -/
def placeWaiting (s : State) : State :=
  match s.lif.wait with
  | w :: rest =>
    if s.lineActive && decide (s.lif.queue.length < 24) then
      endHand w.ends (notePlaced w.msg (enqueueMsg w.msg (s.onLif fun l => { l with wait := rest })))
    else s
  | [] => s

def isPresent (m : Msg) : Bool := match m.body with | .present .. => true | _ => false

/-- R80: the PRESENT timer reaches 10,000 ms and no PRESENT stands in the send queue or waits for it. -/
def presentDue (s : State) : State :=
  match s.lif.presentT with
  | some t =>
    if s.lineActive && decide (10000 ≤ t) && !(s.lif.queue.any isPresent) && !(s.lif.wait.any fun w => isPresent w.msg) then
      placeMsg .nothing (presentMsg s) s
    else s
  | none => s

end Sys2Proof.Machine
end

