-- ==== Sys2Proof/Machine/Startup.lean ====
section
/-! DEFINITION. Start-up (chapter 3, section 3.7): the slot scan, the choice of copies, the watermark rebuild, the epoch advance, the
hand-over, and a role coming into service (R205). -/

namespace Sys2Proof.Machine
open Sys2Proof

/-! ### The slot scan (R65) -/

/-- What the scan's read of slot `i` meets; nothing where no decay of it is told. -/
def scanDecay (ds : List (Nat × Decay)) (i : Nat) : Decay := ((ds.find? fun p => p.1 == i).map (·.2)).getD {}

/-- R51: the bytes that the check symbols correct, at most one in each part. -/
def partBytes (r : PartRead) : Nat := if r = .corrected then 1 else 0
def decayBytes (d : Decay) : Nat := partBytes d.header + partBytes d.body

/-- R51, R65: what the read of a slot's contents finds. A slot reads as erased when every byte does, and an erased one with a byte that does
not holds no valid header (log entry 101, DEDUCED). -/
def readData (d : Decay) (x : SlotData) : SlotData :=
  match x with
  | .erased => if d = {} then .erased else .torn
  | .torn => .torn
  | .copy c ok _ =>
    if d.header = .uncorrectable then .torn
    else if d.body = .uncorrectable then .copy c false false
    else .copy c ok (ok && decide (0 < decayBytes d))

/-- R65: a slot after the scan, before the choice of copies: RETIRED, FREE, or DIRTY. -/
def scanSlot (ds : List (Nat × Decay)) (i : Nat) (x : Slot) : Slot :=
  if x.retired then { x with state := .retired }
  else
    let d := readData (scanDecay ds i) x.data
    { x with data := d, state := match d with | .erased => .free | _ => .dirty }

/-- Whether a scanned slot counts as unreadable (R65). -/
def isUnreadable (x : Slot) : Bool :=
  !x.retired && match x.data with
    | .torn => true
    | .copy _ ok _ => !ok
    | .erased => false

/-- The bytes corrected in a candidate copy (R65). -/
def correctedBytes (ds : List (Nat × Decay)) (i : Nat) (x : Slot) : Nat :=
  match x.retired, x.data with
  | false, .copy _ true _ => decayBytes (scanDecay ds i)
  | _, _ => 0

/-! ### The choice of copies (R66) -/

/-- The candidate copy in a scanned slot. -/
def candidate (x : Slot) : Option Copy :=
  match x.retired, x.data with
  | false, .copy c true _ => some c
  | _, _ => none

/-- The candidate of a record with the highest write count, in the lowest-numbered slot among equals: slot and write count. -/
def bestCopy (k : RecKey) : List Slot → Nat → Option (Nat × Nat) → Option (Nat × Nat)
  | [], _, best => best
  | x :: xs, i, best =>
    bestCopy k xs (i + 1)
      (match candidate x, best with
       | some c, none => if c.key = k then some (i, c.wc) else none
       | some c, some (j, w) => if c.key = k ∧ w < c.wc then some (i, c.wc) else some (j, w)
       | none, b => b)

/-- R66: the chosen copies become CURRENT. -/
def chooseCopies (xs : List Slot) : List Slot :=
  xs.mapIdx fun i x => match candidate x with
    | some c => if (bestCopy c.key xs 0 none).map (·.1) = some i then { x with state := .current } else x
    | none => x

/-- The damaged copies noted by the scan: kind and key, write count. -/
def damagedCopies (xs : List Slot) : List (RecKey × Nat) :=
  xs.filterMap fun x => match x.retired, x.data with
    | false, .copy c false _ => some (c.key, c.wc)
    | _, _ => none

/-- The keys of the damaged copies, each once, with the highest write count. -/
def newestDamaged (ds : List (RecKey × Nat)) : List (RecKey × Nat) :=
  ds.foldl (fun acc d =>
    if acc.any fun p => p.1 == d.1 then acc.map fun p => if p.1 = d.1 then (p.1, max p.2 d.2) else p
    else acc ++ [d]) []

/-- A damaged list entry takes its place in account number order. -/
def putDamaged (d : Damaged) : List Damaged → List Damaged
  | [] => [d]
  | x :: xs => if d.acct < x.acct then d :: x :: xs else x :: putDamaged d xs

/-- R66: the damaged accounts; of those with a damaged copy above the CURRENT one, or with no CURRENT copy. -/
def damagedAccounts (st : Store) (ds : List (RecKey × Nat)) : List Damaged :=
  ds.foldl (fun acc d => match d.1 with
    | .account n =>
      let cur := currentCount st (.account n)
      if cur < d.2 then putDamaged ⟨n, d.2, if cur = 0 then none else some cur⟩ acc else acc
    | _ => acc) []

/-- R66: how many records of other kinds were recovered, or lost. -/
def damagedOthers (st : Store) (lost : Bool) (ds : List (RecKey × Nat)) : Nat :=
  (ds.filter fun d => match d.1 with
    | .account _ => false
    | k => decide (currentCount st k < d.2) && (decide (currentCount st k = 0) == lost)).length

/-- The CURRENT copies that the scan corrected (R60). -/
def correctedCurrent (xs : List Slot) : List Nat :=
  (xs.mapIdx fun i x => match x.state, x.data with
    | .current, .copy _ _ true => some i
    | _, _ => none).filterMap id

/-- R62, R65, R66: the store after the scan. -/
def scanStore (ds : List (Nat × Decay)) (badPages : List Nat) (idBad : Bool) (st : Store) : Store :=
  let scanned := st.slots.mapIdx (scanSlot ds)
  let st1 : Store := { st with slots := chooseCopies scanned, serialOk := !idBad
                               pages := st.pages.mapIdx fun i p => { p with readable := !badPages.contains (i + 1) } }
  let dmg := newestDamaged (damagedCopies scanned)
  let accts := damagedAccounts st1 dmg
  { st1 with
    refresh := correctedCurrent st1.slots
    damaged := accts.take 8
    damagedMore := accts.length - 8
    cnt := { st.cnt with
      corrected := bumpBy (scanned.mapIdx (correctedBytes ds)).sum st.cnt.corrected
      unreadable := bumpBy (scanned.filter isUnreadable).length st.cnt.unreadable
      recovered := bumpBy (damagedOthers st1 false dmg) st.cnt.recovered
      lost := bumpBy (damagedOthers st1 true dmg) st.cnt.lost } }

/-! ### Watermarks and epoch (R67, R68) -/

def restoredAccounts (st : Store) : List Account :=
  (currentBodies st).foldl (fun acc b => match b with | .account a => putAccount a acc | _ => acc) []

/-- R67: the greater of the ORIGIN record's entry and the greatest last identity of the origin among the accounts. -/
def rebuildMarks (st : Store) (as : List Account) : List Mark :=
  let origin : List Mark := match currentCopy st .origin with
    | some ⟨_, _, _, .origin ms⟩ => ms
    | _ => []
  (List.range 62).map fun i =>
    as.foldl (fun m a => match a.last with | some id => if id.node = i + 1 then m.max id.mark else m | none => m)
      (markOf origin (i + 1))

def restoredNode (st : Store) : NodeRec :=
  match currentCopy st .node with
  | some ⟨_, _, _, .node n⟩ => n
  | _ => {}

/-- R68: the greatest epoch of the CURRENT NODE record and of every stamp whose header was valid. -/
def greatestEpoch (st : Store) : Nat :=
  st.slots.foldl (fun g x => match x.retired, x.data with
    | false, .copy c _ _ => max g c.stamp
    | _, _ => g) (restoredNode st).epoch

/-! ### The hand-over (R49, R69, R112) -/

/-- An OUTBOUND record takes its place in identity order. -/
def putOut (o : OutRec) : List OutRec → List OutRec
  | [] => [o]
  | x :: xs => if o.posting.id.lt x.posting.id then o :: x :: xs else x :: putOut o xs

def outRecords (st : Store) : List OutRec :=
  (currentBodies st).foldl (fun acc b => match b with | .outbound o => putOut o acc | _ => acc) []

def isYielding (as : List Account) (n : Nat) : Bool :=
  match findAccount as n with
  | some a => a.state == .yielding
  | none => false

/-- R112: the two cases in which a record is not restored. -/
def outDropped (as : List Account) (os : List OutRec) (o : OutRec) : Bool :=
  (os.any fun x => x.replaced == some o.posting.id) || (o.posting.kind == .transfer && !isYielding as o.posting.account)

/-- R112: a restored entry. -/
def restoreEntry (seq : Nat) (o : OutRec) : Entry :=
  makeEntry seq ⟨.post o.posting, o.ref, some o.posting.account, some o.dest, false⟩

def excRestore (s : State) : State :=
  let os := outRecords s.store
  let gone := os.filter (outDropped s.book.accounts os)
  let kept := (os.filter fun o => !outDropped s.book.accounts os o).take 32
  let es := kept.mapIdx fun i o => { restoreEntry i o with replaced := o.replaced }
  let s := s.onExc fun x => { x with entries := es, free := List.range' es.length (32 - es.length) }
  gone.foldl (fun acc o =>
    placeRemoval (.outRemoval o.posting.id) (.outbound o.posting.id.epoch o.posting.id.number) acc) s

/-- R49: a YIELDING record goes on with its restored TRANSFER, or is committed as OPEN. -/
def restoreYield (s : State) (a : Account) : State :=
  if a.state = .yielding then
    (match s.exc.entries.find? fun e => e.ref == .transfer a.number with
     | some e => setYield ⟨a.number, e.dest.getD 0, .running⟩ s
     | none => finishYield ⟨a.number, 0, .running⟩ .opened true s)
  else s

/-- R66: whether DAMAGED is raised as the hand-over ends. -/
def somethingDamaged (st : Store) : Bool := !st.damaged.isEmpty || decide (0 < st.cnt.recovered) || decide (0 < st.cnt.lost)

/-- R69, R201: the hand-over. The flags raised during start-up are latched, and the port is FRESH. -/
def handOver (s : State) : State :=
  let s := { s with
    sys := { s.sys with phase := .running, lateFlags := 0 }
    port := { s.port with flags := s.port.flags ||| s.sys.lateFlags, fresh := true }
    lif := { s.lif with serial := if s.store.serialOk then s.store.serial else 0 }
    cgt := { s.cgt with startEpoch := s.sys.epoch } }
  let s := wguAfterScan (excRestore s)
  let s := s.book.accounts.foldl restoreYield s
  if somethingDamaged s.store then raise .damaged s else s

/-- R68: the NODE commit of the epoch advance ends. -/
def startEpochEnded (epoch : Nat) (res : StoreRes) (s : State) : State :=
  match res with
  | .done => handOver (s.onSys fun y => { y with epoch := epoch, epochState := .inUse })
  | _ => handOver (raise .storeEvent (s.onSys fun y => { y with epochState := .notTaken }))

/-- R68: the epoch advance. EXHAUSTED shows, and stamps on copies, the greatest epoch found, as NOT TAKEN does (log entry 68). -/
def advanceEpoch (s : State) : State :=
  let g := greatestEpoch s.store
  let s := s.onSys fun y => { y with phase := .epochCommit, epoch := g }
  if g < 65534 then placeGroup (.startEpoch (g + 1)) [.node (.startEpoch (g + 1))] s
  else handOver (s.onSys fun y => { y with epochState := .exhausted })

/-- R62: whether one of the four pages, unless its bad mark is written, cannot be corrected, which raises STORE_EVENT; `scanStore` has it
spent, written or not. A marked page is spent whatever it reads, and raises nothing (log entry 92, DESIGN CHOICE). -/
def pageFails (badPages : List Nat) (st : Store) : Bool :=
  [1, 2, 3, 4].any fun n => badPages.contains n && match st.pages[n - 1]? with
    | some p => !p.marked
    | none => true

/-- R65 to R68: the end of the slot scan. -/
def scanEnds (ds : List (Nat × Decay)) (badPages : List Nat) (idBad : Bool) (s : State) : State :=
  if s.sys.phase ≠ .scanning then s
  else
    let s := if pageFails badPages s.store then raise .storeEvent s else s
    let s := s.onStore (scanStore ds badPages idBad)
    let as := restoredAccounts s.store
    advanceEpoch ((s.onBook fun b => { b with accounts := as, marks := rebuildMarks s.store as }).onNode fun _ => restoredNode s.store)

/-! ### Supply and reset (R64) -/

/-- Power is applied. -/
def powerApplied (s : State) : State := beginStartUp .power s

/-- RESETN goes low: start-up is held at its beginning. -/
def resetGoesLow (s : State) : State :=
  let low := s.onSys fun y => { y with resetLow := true }
  if s.sys.phase = .off then low else beginStartUp .pin low

/-- RESETN returns high: start-up proceeds. -/
def resetReleased (s : State) : State :=
  s.onSys fun y => { y with resetLow := false, phase := if y.phase = .held then .scanning else y.phase }

/-- The supply is lost: what is held outside the store is gone, and the operation in progress is abandoned. -/
def supplyLost (s : State) : State := if s.sys.phase = .off then s else clearWorking .power .off (cutOperation s)

/-! ### A role comes into service (R137, R164, R179, R194, R205) -/

def roleRestore (r : Role) : State → State :=
  match r with
  | .scale => wguRestore
  | .clock => cluRestore
  | .ice => icmRestore
  | .gate => cgtRestore

/-- R205: the first applied role brings its unit into service. -/
def bringIntoService (s : State) : State :=
  match s.port.role, s.port.cfg.role with
  | none, some r => roleRestore r (s.onPort fun p => { p with role := some r })
  | _, _ => s

end Sys2Proof.Machine
end

