-- ==== Sys2Proof/Machine/StoreSteps.lean ====
section
/-! DEFINITION. The outcome of a store request at the unit that placed it (R54), and the STORE's steps with what they deliver. -/

namespace Sys2Proof.Machine
open Sys2Proof

/-- The outcome of a request at its owner. -/
def storeOutcome (o : Owner) (r : StoreRes) (s : State) : State :=
  match o with
  | .startEpoch e => startEpochEnded e r s
  | .refresh => s
  | .number => numberEnded r s
  | .excWork => excWorkEnded r s
  | .outRemoval id => outRemoved id s
  | .bookPost => postCommitted r s
  | .bookOpen f => openCommitted f r s
  | .bookAdjust => adjustCommitted r s
  | .bookRemove => removeCommitted s
  | .bookClear => clearCommitted r s
  | .bookYield a t => yieldCommitted a t r s
  | .bookState a => bookStateEnded a r s
  | .cal f => calEnded f r s
  | .lotCreate => lotCreated r s
  | .lotHand => lotHandEnded r s
  | .claim lot => claimCommitted lot r s
  | .lotEnd lot => lotEnded lot r s
  | .queueClean lot => queueCleaned lot r s
  | .saleLog => saleLogged r s
  | .sale n c => saleUpdated n c r s
  | .saleRemove n => saleRemoved n s
  | .iceCreate o => iceCreated o r s
  | .iceCheckpoint k p => checkpointEnded k p r s
  | .iceRemove => s
  | .pool c => poolEnded c r s

/-- R54: the STORE's step delivers the outcome of the request that it ended, if any. -/
def deliver (e : StoreEnd) : State :=
  match e.2 with
  | some (o, r) => storeOutcome o r e.1
  | none => e.1

/-- R54: when the list has a place again, the unit whose request became pending first places it. A RETURN's posting follows once its
pool update stands on the list (R189). -/
def placePending (s : State) : State :=
  match s.store.pend with
  | r :: rest =>
    if s.store.list.length < 8 ∧ s.store.erasing.isNone = true then
      returnIfListed (listRequest r (s.onStore fun st => { st with pend := rest }))
    else s
  | [] => s

end Sys2Proof.Machine
end

