-- ==== Sys2Proof/Machine/BookCommands.lean ====
section
/-! DEFINITION. The meanings of the book and outbound commands of the station port, and of the Account Book's events (chapter 2). -/

namespace Sys2Proof.Machine
open Sys2Proof

/-! ### Book commands (R36 to R40) -/

def isBookCmd (r : BookReq) : Bool :=
  match r.ask with
  | .cmdOpen .. | .cmdAdjust .. | .cmdRemove _ | .cmdClear _ => true
  | _ => false

/-- R36: a book command of the station port is queued or in hand, or the queue is full. -/
def bookCmdBusy (s : State) : Bool :=
  s.book.queue.any isBookCmd || s.book.hand.any isBookCmd || !bookRoom s

/-- R36: fields, lock, room. -/
def bookCmd (guarded : Bool) (ask : Option BookAsk) (s : State) : State × Reply :=
  match ask with
  | none => refuse .badValue s
  | some a =>
    if guarded && s.port.lock then refuse .locked s
    else if bookCmdBusy s then refuse .busy s
    else finish .accepted (bookEnter ⟨.port, a⟩ s)

/-- R37: a buyer is opened with a credit limit, a boat without. -/
def readOpen (acct : Field) (limit : Option Field) : Option BookAsk :=
  match readAccountNo acct, limit with
  | some a, none => if isBoat a then some (.cmdOpen a 0) else none
  | some a, some l => if isBuyer a then (readAmount l).map fun v => .cmdOpen a v else none
  | none, _ => none

def execOpenAccount (ok : Bool) (acct : Field) (limit : Option Field) (s : State) : Host.Outcome State Fault Refusal :=
  .next (frame ok none (bookCmd false (readOpen acct limit)) s)

def readAdjust (acct amount : Field) : Option BookAsk :=
  match readAccountNo acct, readBalance amount with
  | some a, some v => some (.cmdAdjust a v)
  | _, _ => none

def execAdjust (ok : Bool) (acct amount : Field) (s : State) : Host.Outcome State Fault Refusal :=
  .next (frame ok none (bookCmd true (readAdjust acct amount)) s)

def execRemove (ok : Bool) (acct : Field) (s : State) : Host.Outcome State Fault Refusal :=
  .next (frame ok none (bookCmd true ((readAccountNo acct).map .cmdRemove)) s)

def execClearFlags (ok : Bool) (acct : Field) (s : State) : Host.Outcome State Fault Refusal :=
  .next (frame ok none (bookCmd false ((readAccountNo acct).map .cmdClear)) s)

/-! ### RETRY and DISCARD (R101) -/

/-- The FAILED POST of a sequence. -/
def failedPost (s : State) (seq : Nat) : Option Entry :=
  match findEntry s seq with
  | some e => if e.state = .failed ∧ e.isPost = true then some e else none
  | none => none

def outboundCmd (f : Entry → State → State) (seq : Nat) (s : State) : State × Reply :=
  if 31 < seq then refuse .badValue s
  else match failedPost s seq with
    | some e => finish .done (f e s)
    | none => refuse .notFailed s

def execRetry (ok : Bool) (seq : Nat) (s : State) : Host.Outcome State Fault Refusal :=
  .next (frame ok none (outboundCmd retryEntry seq) s)

def execDiscard (ok : Bool) (seq : Nat) (s : State) : Host.Outcome State Fault Refusal :=
  .next (frame ok none (outboundCmd discardEntry seq) s)

/-! ### The book's queue (R22 to R24) -/

def execBookQueuePlaceWaiting (s : State) : Host.Outcome State Fault Refusal := .next (bookPlaceWaiting s)

def takePost (r : BookReq) : Option (State → State) := match r.ask with | .post x => some (decidePost r x) | _ => none

def execBookTakePost (s : State) : Host.Outcome State Fault Refusal := .next (takeBook takePost s)

def takeHold (r : BookReq) : Option (State → State) := match r.ask with | .hold x => some (decideHold r x) | _ => none

def execBookTakeHold (s : State) : Host.Outcome State Fault Refusal := .next (takeBook takeHold s)

def takeRelease (r : BookReq) : Option (State → State) := match r.ask with | .release x => some (decideReleaseReq r x) | _ => none

def execBookTakeRelease (s : State) : Host.Outcome State Fault Refusal := .next (takeBook takeRelease s)

def takeLocate (r : BookReq) : Option (State → State) := match r.ask with | .locate x => some (decideLocate r x) | _ => none

def execBookTakeLocate (s : State) : Host.Outcome State Fault Refusal := .next (takeBook takeLocate s)

def takeOpened (r : BookReq) : Option (State → State) := match r.ask with | .opened n x => some (compareHome n x) | _ => none

def execBookTakeOpened (s : State) : Host.Outcome State Fault Refusal := .next (takeBook takeOpened s)

def takeHome (r : BookReq) : Option (State → State) := match r.ask with | .home n x => some (compareHome n x) | _ => none

def execBookTakeHome (s : State) : Host.Outcome State Fault Refusal := .next (takeBook takeHome s)

def takeOpening (r : BookReq) : Option (State → State) :=
  match r.ask with
  | .localOpen seq acct => some (takeLocalOpen seq acct)
  | _ => none

def execBookTakeLocalOpening (s : State) : Host.Outcome State Fault Refusal := .next (takeBook takeOpening s)

def takeOpenCmd (r : BookReq) : Option (State → State) := match r.ask with | .cmdOpen a l => some (takeCmdOpen a l) | _ => none

def execBookTakeOpen (s : State) : Host.Outcome State Fault Refusal := .next (takeBook takeOpenCmd s)

def takeAdjustCmd (r : BookReq) : Option (State → State) := match r.ask with | .cmdAdjust a v => some (takeAdjust a v) | _ => none

def execBookTakeAdjust (s : State) : Host.Outcome State Fault Refusal := .next (takeBook takeAdjustCmd s)

def takeRemoveCmd (r : BookReq) : Option (State → State) := match r.ask with | .cmdRemove a => some (Sys2Proof.Machine.takeRemove a) | _ => none

def execBookTakeRemove (s : State) : Host.Outcome State Fault Refusal := .next (takeBook takeRemoveCmd s)

def takeClearCmd (r : BookReq) : Option (State → State) := match r.ask with | .cmdClear a => some (takeClear a) | _ => none

def execBookTakeClearFlags (s : State) : Host.Outcome State Fault Refusal := .next (takeBook takeClearCmd s)

def execHoldLifetimeSecond (node epoch number : Nat) (s : State) : Host.Outcome State Fault Refusal :=
  .next (holdSecond ⟨node, epoch, number⟩ s)

def execBookYieldRetry (acct : Nat) (s : State) : Host.Outcome State Fault Refusal := .next (yieldRetry acct s)

def execBookStateCommitRetry (acct : Nat) (s : State) : Host.Outcome State Fault Refusal := .next (bookStateRetry acct s)

end Sys2Proof.Machine
end

