-- ==== Sys2Proof/Machine/ClockCommands.lean ====
section
/-! DEFINITION. The meanings of the clock commands of the station port and of the Clock Unit's events (chapter 7). -/

namespace Sys2Proof.Machine
open Sys2Proof

/-! ### SHOW, START, HALT, RESUME, WITHDRAW (R143 to R147) -/

/-- R143: the refusal of a command that a clock state does not allow: `c` names its own, BUSY in NO_SALE and SETTLING. -/
def clockRefusal (st : ClockState) (c : PCode) : PCode :=
  match st with
  | .noSale | .settling => .busy
  | _ => c

/-- R144. -/
def showOwner (s : State) : State × Reply :=
  if s.clu.state ≠ .idle then refuse (clockRefusal s.clu.state .notIdle) s
  else match headLot s with
    | some d => (setClock .presented s, ⟨.done, .lotDesc d⟩)
    | none => refuse .queueEmpty s

def execShowLot (ok : Bool) (s : State) : Host.Outcome State Fault Refusal := .next (frame ok (some .clock) showOwner s)

/-- R145: the figures of a START, each in its range. -/
def readFigures (startPrice floorPrice step : Field) (tick : Nat) : Option Figures :=
  match readPrice startPrice, readPrice floorPrice, inRange 1 9999 (readPrice step) with
  | some p, some f, some st => if f ≤ p ∧ 20 ≤ tick ∧ tick ≤ 2000 then some ⟨p, f, st, tick⟩ else none
  | _, _, _ => none

/-- R145: the refusal of a START in PRESENTED with good figures. -/
def startRefusal (s : State) : Option PCode :=
  if s.port.cfg.levy.isNone || s.port.cfg.crates.isNone then some .notConfigured
  else if !s.lineActive then some .notActive
  else if 32 ≤ s.clu.sales.length then some .logFull
  else none

def beginRunning (f : Figures) (s : State) : State :=
  setClock .running (s.onClu fun c => { c with figs := some f, price := some f.start, tickT := some 0 })

def startOwner (f : Option Figures) (s : State) : State × Reply :=
  match f with
  | none => refuse .badValue s
  | some f =>
    if s.clu.state ≠ .presented then refuse (clockRefusal s.clu.state .notPresented) s
    else match startRefusal s with
      | some c => refuse c s
      | none => finish .done (beginRunning f s)

def execStart (ok : Bool) (startPrice floorPrice step : Field) (tick : Nat) (s : State) : Host.Outcome State Fault Refusal :=
  .next (frame ok (some .clock) (startOwner (readFigures startPrice floorPrice step tick)) s)

/-- R147. -/
def haltOwner (s : State) : State × Reply :=
  if s.clu.state ≠ .running then refuse (clockRefusal s.clu.state .notRunning) s
  else finish .done (setClock .halted (s.onClu fun c => { c with tickT := none }))

def execHalt (ok : Bool) (s : State) : Host.Outcome State Fault Refusal := .next (frame ok (some .clock) haltOwner s)

/-- R147. -/
def resumeOwner (s : State) : State × Reply :=
  if s.clu.state ≠ .halted then refuse (clockRefusal s.clu.state .notHalted) s
  else finish .done (setClock .running (s.onClu fun c => { c with tickT := some 0 }))

def execResume (ok : Bool) (s : State) : Host.Outcome State Fault Refusal := .next (frame ok (some .clock) resumeOwner s)

/-- R147. -/
def withdrawOwner (s : State) : State × Reply :=
  if s.clu.state = .presented ∨ s.clu.state = .halted then
    finish .done (enterNoSale (s.onClu fun c => { c with cnt := { c.cnt with withdrawals := bump c.cnt.withdrawals } }))
  else refuse (clockRefusal s.clu.state .notPresented) s

def execWithdraw (ok : Bool) (s : State) : Host.Outcome State Fault Refusal := .next (frame ok (some .clock) withdrawOwner s)

/-! ### Desks (R150, R152) -/

def deskOk (d : Nat) : Bool := 1 ≤ d && d ≤ 32

/-- R150: the buyer and the allowance of a DESK IN. -/
def readDeskIn (desk : Nat) (buyer amount : Field) : Option (Nat × Nat) :=
  match deskOk desk, readBuyer buyer, readHoldAmount amount with
  | true, some b, some a => some (b, a)
  | _, _, _ => none

/-- R150: the desk enters ASKING, and its HOLD is asked for. Its last desk event is then NONE (log entry 109, DEDUCED). -/
def beginDesk (d buyer amount : Nat) (s : State) : State :=
  askDeskHold d buyer amount (setDesk d { state := .asking, buyer := some buyer } s)

def deskInOwner (desk : Nat) (buyer amount : Field) (s : State) : State × Reply :=
  match readDeskIn desk buyer amount with
  | none => refuse .badValue s
  | some (b, a) =>
    if !s.lineActive then refuse .notActive s
    else if (deskAt s desk).state ≠ .out then refuse .deskNotOut s
    else let s := beginDesk desk b a s; (s, ⟨.accepted, .desk (deskAt s desk)⟩)

def execDeskIn (ok : Bool) (desk : Nat) (buyer amount : Field) (s : State) : Host.Outcome State Fault Refusal :=
  .next (frame ok (some .clock) (deskInOwner desk buyer amount) s)

def deskOutOwner (desk : Nat) (s : State) : State × Reply :=
  if !deskOk desk then refuse .badValue s
  else let s := deskSignOut desk s; (s, ⟨.done, .desk (deskAt s desk)⟩)

def execDeskOut (ok : Bool) (desk : Nat) (s : State) : Host.Outcome State Fault Refusal :=
  .next (frame ok (some .clock) (deskOutOwner desk) s)

/-! ### Events (R141, R146, R148, R154, R159 to R162) -/

def execQueueCommitRetry (scale number : Nat) (s : State) : Host.Outcome State Fault Refusal := .next (queueRetry ⟨scale, number⟩ s)

def execClockTick (s : State) : Host.Outcome State Fault Refusal := .next (clockTicks s)

def execLotEndRetry (s : State) : Host.Outcome State Fault Refusal := .next (lotEndRetry s)

def execDeskScan (pressed : BitVec 32) (s : State) : Host.Outcome State Fault Refusal :=
  .next (if s.inService .clock then scanDesks pressed s else s)

def execSaleLogRetry (s : State) : Host.Outcome State Fault Refusal := .next (saleLogRetry s)

def execSaleRequestRetry (sale : Nat) (s : State) : Host.Outcome State Fault Refusal := .next (saleRequestRetry sale s)

def execSaleUpdateRetry (sale : Nat) (s : State) : Host.Outcome State Fault Refusal := .next (saleUpdateRetry sale s)

def execLotreportReissue (sale : Nat) (s : State) : Host.Outcome State Fault Refusal := .next (reportReissue sale s)

end Sys2Proof.Machine
end

