-- ==== Sys2Proof/Machine/GateCommands.lean ====
section
/-! DEFINITION. The meanings of the gate commands of the station port and of the Crate Gate's events (chapter 9). -/

namespace Sys2Proof.Machine
open Sys2Proof

/-! ### The batch (R185, R187, R188) -/

/-- R185: the refusal of a BATCH OPEN with good fields; otherwise the deposits of the crate table. -/
def batchDeposits (s : State) : Except PCode (List Nat) :=
  match s.port.cfg.crates with
  | none => .error .notConfigured
  | some rows =>
    if !s.lineActive then .error .notActive
    else if s.cgt.state ≠ .idle then .error .busy
    else .ok (rows.map (·.deposit))

/-- R184, R185: RESOLVING begins, and a LOCATE is asked for. -/
def beginBatch (k : BatchKind) (a : Nat) (deposits : List Nat) (s : State) : State :=
  askUnit (locateReq (.batchLocate s.cgt.startEpoch s.cgt.nextBatch) a false) (s.onCgt fun c => { c with
    state := .resolving, batch := some { number := c.nextBatch, kind := k, account := a, deposits := deposits }
    nextBatch := nextNumber c.nextBatch })

def batchOpenOwner (k : Option BatchKind) (acct : Field) (s : State) : State × Reply :=
  match k, readAccountNo acct with
  | none, _ | _, none => refuse .badValue s
  | some k, some a =>
    match batchDeposits s with
    | .error c => refuse c s
    | .ok ds => finish .accepted (beginBatch k a ds s)

def execBatchOpen (ok : Bool) (kind : Option BatchKind) (acct : Field) (s : State) : Host.Outcome State Fault Refusal :=
  .next (frame ok (some .gate) (batchOpenOwner kind acct) s)

def batchCloseOwner (s : State) : State × Reply :=
  match s.cgt.state, s.cgt.batch with
  | .opened, some b => if b.tags.isEmpty then refuse .batchEmpty s else finish .accepted (closeBatch b s)
  | _, _ => refuse .notOpen s

def execBatchClose (ok : Bool) (s : State) : Host.Outcome State Fault Refusal := .next (frame ok (some .gate) batchCloseOwner s)

/-- R187: a LOCATE that waits is not asked for. -/
def cancelBatch (s : State) : State :=
  match s.cgt.batch with
  | some b => endBatch .cancelled none (dropAsk (.batchLocate s.cgt.startEpoch b.number) s)
  | none => s

def batchCancelOwner (s : State) : State × Reply :=
  if s.cgt.state = .resolving ∨ s.cgt.state = .opened then finish .done (cancelBatch s) else refuse .notOpen s

def execBatchCancel (ok : Bool) (s : State) : Host.Outcome State Fault Refusal := .next (frame ok (some .gate) batchCancelOwner s)

/-! ### The blocked tag list (R183) -/

def blockOwner (serial : Nat) (s : State) : State × Reply :=
  if !serialOk serial then refuse .badValue s
  else if s.cgt.blocked.contains serial then finish .done s
  else if 32 ≤ s.cgt.blocked.length then refuse .listFull s
  else finish .done (s.onCgt fun c => { c with blocked := c.blocked ++ [serial] })

def execBlock (ok : Bool) (serial : Nat) (s : State) : Host.Outcome State Fault Refusal :=
  .next (frame ok (some .gate) (blockOwner serial) s)

def unblockOwner (serial : Nat) (s : State) : State × Reply :=
  if !serialOk serial then refuse .badValue s
  else if s.cgt.blocked.contains serial then finish .done (s.onCgt fun c => { c with blocked := c.blocked.filter (· != serial) })
  else refuse .notListed s

def execUnblock (ok : Bool) (serial : Nat) (s : State) : Host.Outcome State Fault Refusal :=
  .next (frame ok (some .gate) (unblockOwner serial) s)

/-! ### Events (R181, R182, R189) -/

def execTagRead (bytes : List Byte) (s : State) : Host.Outcome State Fault Refusal :=
  .next (if s.inService .gate then tagFrame bytes s else s)

def execPoolUpdateRetry (s : State) : Host.Outcome State Fault Refusal := .next (poolRetry s)

/-- R189: 1,000 ms after a refused posting. -/
def execCgtPostingRetry (s : State) : Host.Outcome State Fault Refusal :=
  .next (if due s.cgt.postT && s.cgt.state == .closing then askBatchPost (s.onCgt fun c => { c with postT := none }) else s)

end Sys2Proof.Machine
end

