-- ==== Sys2Proof/Machine/IceCommands.lean ====
section
/-! DEFINITION. The meanings of the ice commands of the station port and of the Ice Meter's events (chapter 8). -/

namespace Sys2Proof.Machine
open Sys2Proof

/-! ### ORDER and STOP (R168, R173) -/

/-- R168: the refusal of an ORDER with good fields; otherwise the tariff and the grams per pulse in force. -/
def orderTerms (s : State) : Except PCode (Nat × Nat) :=
  match s.port.cfg.tariff, s.port.cfg.gpp with
  | some t, some g =>
    if !s.lineActive then .error .notActive
    else if s.icm.state ≠ .idle then .error .busy
    else if s.sys.estopLow then .error .eStop
    else .ok (t, g)
  | _, _ => .error .notConfigured

/-- R168, R169: RESOLVING begins, and a LOCATE is asked for. -/
def beginOrder (o : OrderRec) (s : State) : State :=
  askUnit (locateReq .orderLocate o.account false) (s.onIcm fun m => { m with
    state := .resolving, order := some o, locSeq := none, cnt := { m.cnt with accepted := bump m.cnt.accepted } })

def orderOwner (boat kg : Field) (acceptLess : Bool) (s : State) : State × Reply :=
  match readBoat boat, readKg kg with
  | some a, some q =>
    (match orderTerms s with
     | .error c => refuse c s
     | .ok (t, g) => finish .accepted (beginOrder { account := a, kg := q, acceptLess := acceptLess, tariff := t, gpp := g } s))
  | _, _ => refuse .badValue s

def execOrder (ok : Bool) (boat kg : Field) (acceptLess : Bool) (s : State) : Host.Outcome State Fault Refusal :=
  .next (frame ok (some .ice) (orderOwner boat kg acceptLess) s)

def countStop (c : IcmCounters) : IcmCounters := { c with stops := bump c.stops }
def countEmergency (c : IcmCounters) : IcmCounters := { c with emergencies := bump c.emergencies }
def countStall (c : IcmCounters) : IcmCounters := { c with stalls := bump c.stalls }

def execStop (ok : Bool) (s : State) : Host.Outcome State Fault Refusal :=
  .next (frame ok (some .ice) (fun s => finish .done (stopOrder .stopped countStop s)) s)

/-! ### Events (R166, R172 to R176) -/

def execAugerPulse (lowMs : Nat) (s : State) : Host.Outcome State Fault Refusal :=
  .next (if s.inService .ice then augerEdge lowMs s else s)

/-- R173: a falling edge of ESTOPN. -/
def estopFalls (s : State) : State :=
  if s.sys.estopLow then s
  else
    let s := s.onSys fun y => { y with estopLow := true }
    if s.inService .ice then stopOrder .eStop countEmergency s else s

def execEmergencyStop (s : State) : Host.Outcome State Fault Refusal := .next (estopFalls s)

/-- R166, R173: the return of ESTOPN to high changes nothing but the level that an ORDER reads. -/
def execEstopnReturnHigh (s : State) : Host.Outcome State Fault Refusal := .next (s.onSys fun y => { y with estopLow := false })

/-- R173: the stall timer reaches 5,000 ms. -/
def execStallTimer (s : State) : Host.Outcome State Fault Refusal :=
  .next (if due s.icm.stallT && augerRuns s then switchOff .stalled (s.onIcm fun m => { m with cnt := countStall m.cnt }) else s)

/-- R174: the coasting timer runs out. -/
def execCoastingEnd (s : State) : Host.Outcome State Fault Refusal :=
  .next (if due s.icm.coastT && counting s.icm then closeCounting s else s)

/-- R176: 1,000 ms after a refused SETTLE. -/
def execIcmSettleRetry (s : State) : Host.Outcome State Fault Refusal :=
  .next (if due s.icm.settleT then askSettle (s.onIcm fun m => { m with settleT := none }) else s)

end Sys2Proof.Machine
end

