-- ==== Sys2Proof/Machine/LineCommands.lean ====
section
/-! DEFINITION. The meanings of the arrivals and events of the hall line (chapter 4) and of the exchange events (chapter 5). -/

namespace Sys2Proof.Machine
open Sys2Proof

/-! ### Arrivals (R71, R86) -/

def execLineGarbledMessage (w : RawLine) (s : State) : Host.Outcome State Fault Refusal := .next (hearGarbled w s)

/-- The epoch that a JOIN carries changes nothing at a node that hears it (R84). -/
def execJoinMessage (h : Hdr) (role ring serial _epoch : Nat) (s : State) : Host.Outcome State Fault Refusal :=
  .next (hearJoin h role ring serial s)

/-- The serials that a CLASH carries change nothing at a node that hears it (R79, R80). -/
def execClash (h : Hdr) (number _joinSerial _ownSerial : Nat) (s : State) : Host.Outcome State Fault Refusal :=
  .next (hearClash h number s)

def execPresent (h : Hdr) (role ring : Nat) (s : State) : Host.Outcome State Fault Refusal := .next (hearPresent h role ring s)

def execOpened (h : Hdr) (acct : Field) (s : State) : Host.Outcome State Fault Refusal := .next (hearOpened h acct s)

def execHome (h : Hdr) (acct : Field) (s : State) : Host.Outcome State Fault Refusal := .next (hearHome h acct s)

def execAnswer (h : Hdr) (a : RawAnswer) (s : State) : Host.Outcome State Fault Refusal := .next (hearAnswer h a s)

def execHold (h : Hdr) (r : RawHold) (s : State) : Host.Outcome State Fault Refusal := .next (hearHold h r s)

def execRelease (h : Hdr) (r : RawRelease) (s : State) : Host.Outcome State Fault Refusal := .next (hearRelease h r s)

def execPost (h : Hdr) (r : RawPost) (s : State) : Host.Outcome State Fault Refusal := .next (hearPost h r s)

def execLocate (h : Hdr) (acct : Field) (s : State) : Host.Outcome State Fault Refusal := .next (hearLocate h acct s)

def execClaim (h : Hdr) (scale number : Nat) (s : State) : Host.Outcome State Fault Refusal := .next (hearClaim h scale number s)

def execLotReport (h : Hdr) (scale number : Nat) (sold : Option Bool) (s : State) : Host.Outcome State Fault Refusal :=
  .next (hearReport h scale number sold s)

def execLot (h : Hdr) (d : RawLot) (s : State) : Host.Outcome State Fault Refusal := .next (hearLot h d s)

/-! ### Line events (R73 to R85) -/

def execLineQuietTime (s : State) : Host.Outcome State Fault Refusal := .next (quietTime s)

def execContentionLoss (s : State) : Host.Outcome State Fault Refusal := .next (loseContention s)

def execLineError (s : State) : Host.Outcome State Fault Refusal := .next (lineErrs s)

def execSendComplete (s : State) : Host.Outcome State Fault Refusal := .next (sendCompletes s)

def execSendQueuePlaceWaiting (s : State) : Host.Outcome State Fault Refusal := .next (placeWaiting s)

def execListenIdleWindow (s : State) : Host.Outcome State Fault Refusal := .next (listenIdle s)

def execListenTimeout (s : State) : Host.Outcome State Fault Refusal := .next (listenTimesOut s)

def execClashWindowEnd (s : State) : Host.Outcome State Fault Refusal := .next (clashWindowEnds s)

def execPresentTimer (s : State) : Host.Outcome State Fault Refusal := .next (presentDue s)

def execPeerAgeExpiry (node : Nat) (s : State) : Host.Outcome State Fault Refusal := .next (peerExpires node s)

/-! ### Exchange events (R91, R95, R96, R99, R104, R106) -/

def execExcFreePlaceRetry (s : State) : Host.Outcome State Fault Refusal := .next (retryAsk s)

def execExcSend (s : State) : Host.Outcome State Fault Refusal := .next (excSendNext s)

def execExcAnswerTimeout (seq : Nat) (s : State) : Host.Outcome State Fault Refusal := .next (answerTimeout seq s)

def execExcDeferWaitEnd (seq : Nat) (s : State) : Host.Outcome State Fault Refusal := .next (deferWaitEnd seq s)

def execLocateWindowEnd (seq : Nat) (s : State) : Host.Outcome State Fault Refusal := .next (locateWindowEnd seq s)

def execLocateSearchDeferEnd (seq : Nat) (s : State) : Host.Outcome State Fault Refusal := .next (searchDeferEnd seq s)

def execLocalOpeningRetry (seq : Nat) (s : State) : Host.Outcome State Fault Refusal := .next (openingRetry seq s)

end Sys2Proof.Machine
end

