-- ==== Sys2Proof/Machine/PortControl.lean ====
section
/-! DEFINITION. The meanings of the Station Port's own commands and of the frames that are not commands (chapter 10), and of JOIN
and LEAVE (chapter 4). -/

namespace Sys2Proof.Machine
open Sys2Proof

/-! ### Status, flags, mask, lock (R198 to R202) -/

/-- R198: NOP/STATUS. -/
def execNopStatus (ok : Bool) (s : State) : Host.Outcome State Fault Refusal := .next (frame ok none (finish .done) s)

/-- Bits 11 to 0 of a flag word, when the bits above are 0 (R200, R201). -/
def readFlags (bits : Word16) : Option (BitVec 12) := if bits.toNat < 4096 then some (bits.setWidth 12) else none

/-- R200: the flags whose bits are 1 are cleared, and clearing POSTING_FAILED empties the failure capture. -/
def clearFlagBits (b : BitVec 12) (s : State) : State :=
  let s1 := s.onPort fun p => { p with flags := p.flags &&& ~~~b }
  if b &&& s.port.flags &&& flagBit .postingFailed = 0 then s1 else s1.onExc fun x => { x with capture := none }

def ackOwner (bits : Word16) (s : State) : State × Reply :=
  match readFlags bits with
  | some b => finish .done (clearFlagBits b s)
  | none => refuse .badValue s

def execAck (ok : Bool) (bits : Word16) (s : State) : Host.Outcome State Fault Refusal := .next (frame ok none (ackOwner bits) s)

/-- R201. -/
def maskOwner (bits : Word16) (s : State) : State × Reply :=
  match readFlags bits with
  | some b => finish .done (s.onPort fun p => { p with mask := b })
  | none => refuse .badValue s

def execMask (ok : Bool) (bits : Word16) (s : State) : Host.Outcome State Fault Refusal := .next (frame ok none (maskOwner bits) s)

/-- R202. -/
def setLock (b : Bool) (s : State) : State × Reply := finish .done (s.onPort fun p => { p with lock := b })

def execLock (ok : Bool) (s : State) : Host.Outcome State Fault Refusal := .next (frame ok none (setLock true) s)

def execUnlock (ok : Bool) (s : State) : Host.Outcome State Fault Refusal := .next (frame ok none (setLock false) s)

/-! ### CONFIGURE (R204 to R206) -/

/-- A crate table row: tare 0 to 99,999 g in the layout of a weight, and a deposit. -/
def readCrateRow (r : Field × Field) : Option CrateRow :=
  match inRange 0 99999 (readWeight r.1), readDeposit r.2 with
  | some t, some d => some ⟨t, d⟩
  | _, _ => none

def readCrateTable (rows : List (Field × Field)) : Option (List CrateRow) :=
  if rows.length = 8 then allSome (rows.map readCrateRow) else none

/-- One field of a CONFIGURE as a record that holds it alone; none when malformed or out of range (R204). -/
def readConfigItem : ConfigItem → Option Cfg
  | .nodeNumber n => if nodeOk n then some { nodeNumber := some n } else none
  | .role c => (roleOf c).map fun r => { role := some r }
  | .ring n => if ringOk n then some { ring := some n } else none
  | .levyRate f => (readLevy f).map fun v => { levy := some v }
  | .boatFloor f => (readBoatFloor f).map fun v => { boatFloor := some v }
  | .iceTariff f => (readTariff f).map fun v => { tariff := some v }
  | .gramsPerPulse f => (readGramsPerPulse f).map fun v => { gpp := some v }
  | .crateTable rows => (readCrateTable rows).map fun v => { crates := some v }
  | .lineRate n => if 1 ≤ n ∧ n ≤ 3 then some { lineRate := some n } else none

/-- Which field an item names. -/
def configField : ConfigItem → Nat
  | .nodeNumber _ => 0
  | .role _ => 1
  | .ring _ => 2
  | .levyRate _ => 3
  | .boatFloor _ => 4
  | .iceTariff _ => 5
  | .gramsPerPulse _ => 6
  | .crateTable _ => 7
  | .lineRate _ => 8

/-- The fields of `new` replace those of `old`; a field not named keeps its value. -/
def Cfg.update (old new : Cfg) : Cfg :=
  { nodeNumber := new.nodeNumber.or old.nodeNumber
    role := new.role.or old.role
    ring := new.ring.or old.ring
    levy := new.levy.or old.levy
    boatFloor := new.boatFloor.or old.boatFloor
    tariff := new.tariff.or old.tariff
    gpp := new.gpp.or old.gpp
    crates := new.crates.or old.crates
    lineRate := new.lineRate.or old.lineRate }

/-- Keeps a field only where the other record does not name it. -/
def keepUnnamed {α : Type} (named x : Option α) : Option α := if named.isSome then none else x

/-- The fields of `x` that `named` does not name. -/
def Cfg.without (x named : Cfg) : Cfg :=
  { nodeNumber := keepUnnamed named.nodeNumber x.nodeNumber
    role := keepUnnamed named.role x.role
    ring := keepUnnamed named.ring x.ring
    levy := keepUnnamed named.levy x.levy
    boatFloor := keepUnnamed named.boatFloor x.boatFloor
    tariff := keepUnnamed named.tariff x.tariff
    gpp := keepUnnamed named.gpp x.gpp
    crates := keepUnnamed named.crates x.crates
    lineRate := keepUnnamed named.lineRate x.lineRate }

/-- The list of a CONFIGURE as one record: one or more fields, each valid, none given twice (R204). -/
def readConfig (items : List ConfigItem) : Option Cfg :=
  if items.isEmpty || !decide ((items.map configField).Nodup) then none
  else (allSome (items.map readConfigItem)).map fun cs => cs.foldl Cfg.update {}

/-- R206: the fixed number is not 0 and the record names another. -/
def numberFixed (s : State) (c : Cfg) : Bool :=
  s.self != 0 && match c.nodeNumber with
    | some n => n != s.self
    | none => false

/-- R205: a role is in service and the record names another. -/
def roleFixed (s : State) (c : Cfg) : Bool :=
  s.port.role.isSome && c.role.isSome && c.role != s.port.role

/-- R205: the fields are applied, and the staged values of the fields they name are discarded. -/
def applyConfig (c : Cfg) (s : State) : State :=
  bringIntoService (s.onPort fun p => { p with cfg := p.cfg.update c, staged := p.staged.without c })

/-- R204 to R206. NUMBER FIXED comes before ROLE FIXED (log entry 99, DESIGN CHOICE). -/
def configureOwner (items : List ConfigItem) (s : State) : State × Reply :=
  match readConfig items with
  | none => refuse .badValue s
  | some c =>
    if s.port.lock then refuse .locked s
    else if numberFixed s c then refuse .numberFixed s
    else if roleFixed s c then refuse .roleFixed s
    else if s.lif.state = .offline then finish .done (applyConfig c s)
    else finish .staged (s.onPort fun p => { p with staged := p.staged.update c })

def execConfigure (ok : Bool) (items : List ConfigItem) (s : State) : Host.Outcome State Fault Refusal :=
  .next (frame ok none (configureOwner items) s)

/-! ### JOIN and LEAVE (R78, R82, R205) -/

/-- R205: the staged configuration is applied whole and becomes empty. -/
def applyStaged (s : State) : State :=
  bringIntoService (s.onPort fun p => { p with cfg := p.cfg.update p.staged, staged := {} })

/-- R78: the refusal of a JOIN, in the order of its checks. -/
def joinRefusal (s : State) : Option PCode :=
  if s.port.cfg.nodeNumber.isNone || s.port.cfg.role.isNone || (s.port.cfg.role == some .clock && s.port.cfg.ring.isNone) then
    some .notConfigured
  else if s.lif.serial = 0 then some .identityFault
  else if s.sys.epochState = .exhausted then some .epochExhausted
  else if s.sys.epochState = .notTaken then some .storeFault
  else none

def joinOwner (s : State) : State × Reply :=
  if s.lif.state ≠ .offline then refuse .notOffline s
  else
    let s := applyStaged s
    match joinRefusal s with
    | some c => refuse c s
    | none => finish .accepted (joinAccepted s)

def execJoin (ok : Bool) (s : State) : Host.Outcome State Fault Refusal := .next (frame ok none joinOwner s)

def execLeave (ok : Bool) (s : State) : Host.Outcome State Fault Refusal :=
  .next (frame ok none (fun s => finish .done (takeLeave s)) s)

def execLeaveTransmissionDrained (s : State) : Host.Outcome State Fault Refusal := .next (leaveDrained s)

/-! ### Frames that are not commands of the table (R197, R198) -/

/-- R198: an unknown command code. -/
def takeUnknown (code : Byte) (s : State) : State :=
  if knownCommand code then s else frame true none (finish .unknownCommand) s

def execPortUnknownCommand (code : Byte) (s : State) : Host.Outcome State Fault Refusal := .next (takeUnknown code s)

/-- R197: the fault that the frame's bytes show, beside the answer that it carries out. A frame without a fault is no such row, and
nothing changes (log entry 53). -/
def takeFault (f : RawFrame) (s : State) : State :=
  match readFrame s.port.buf f with
  | .fault x => faultedFrame x s
  | .command .. => s

def execPortFrameFault (f : RawFrame) (s : State) : Host.Outcome State Fault Refusal := .next (takeFault f s)

def execPortFrameTimeout (s : State) : Host.Outcome State Fault Refusal := .next (faultedFrame .timeout s)

end Sys2Proof.Machine
end

