-- ==== Sys2Proof/Machine/Reads.lean ====
section
/-! DEFINITION. The meanings of the read commands (section 10.5 and the owners' chapters). A read answers from the working copies
(R203). -/

namespace Sys2Proof.Machine
open Sys2Proof

/-- A read that finds its data, or a code. With data it is answered DONE: R198 names that code for commands carried out, and the command
table says `data` alone for reads (log entry 82, DESIGN CHOICE). -/
def readAnswer (d : Option PData) (absent : PCode) : Reply :=
  match d with
  | some d => ⟨.done, d⟩
  | none => ⟨absent, .none⟩

/-! ### Single records -/

def readAccountOwner (f : Field) (s : State) : Reply :=
  match readAccountNo f with
  | none => ⟨.badValue, .none⟩
  | some a => readAnswer ((accountOf s a).map .account) .noAccount

def execReadAccount (ok : Bool) (acct : Field) (s : State) : Host.Outcome State Fault Refusal :=
  .next (frame ok none (replyOnly (readAccountOwner acct)) s)

def readHoldOwner (k : Ident) (s : State) : Reply := readAnswer ((findHold s.book.holds k).map .hold) Config.readHoldAbsent

def execReadHold (ok : Bool) (node epoch number : Nat) (s : State) : Host.Outcome State Fault Refusal :=
  .next (frame ok none (replyOnly (readHoldOwner ⟨node, epoch, number⟩)) s)

/-- R131, R138. -/
def readLotOwner (sel : LotSel) (s : State) : Reply :=
  match sel with
  | .number n => readAnswer ((findLot s n).map .lot) .noLot
  | .event => ⟨.done, .lotEvent s.wgu.lotEvent⟩
  | .other => ⟨.badValue, .none⟩

def execReadLot (ok : Bool) (sel : LotSel) (s : State) : Host.Outcome State Fault Refusal :=
  .next (frame ok (some .scale) (replyOnly (readLotOwner sel)) s)

/-- R143: the price is shown in RUNNING, HALTED and SETTLING. -/
def shownPrice (c : Clu) : Option Nat :=
  match c.state with
  | .running | .halted | .settling => c.price
  | _ => none

/-- R142, R165. -/
def readQueueOwner (sel : QueueSel) (s : State) : Reply :=
  match sel with
  | .clock => ⟨.done, .clock s.clu.state (shownPrice s.clu) (headLot s) s.clu.figs s.clu.queue s.clu.claims.length⟩
  | .event => ⟨.done, .clockEvent s.clu.lotEvent⟩
  | .other => ⟨.badValue, .none⟩

def execReadQueue (ok : Bool) (sel : QueueSel) (s : State) : Host.Outcome State Fault Refusal :=
  .next (frame ok (some .clock) (replyOnly (readQueueOwner sel)) s)

/-- R163, R165. -/
def readSaleOwner (sel : SaleSel) (s : State) : Reply :=
  match sel with
  | .number n => readAnswer ((findSale s n).map fun e => .sale e.entry) (Config.readSaleAbsent n)
  | .event => ⟨.done, .saleEvent s.clu.saleEvent⟩
  | .other => ⟨.badValue, .none⟩

def execReadSale (ok : Bool) (sel : SaleSel) (s : State) : Host.Outcome State Fault Refusal :=
  .next (frame ok (some .clock) (replyOnly (readSaleOwner sel)) s)

/-- R163: the answer carries the record as it stands, and its collected mark is committed. -/
def collectOwner (n : Nat) (s : State) : State × Reply :=
  match findSale s n with
  | some e => (collectSale n s, ⟨.done, .sale e.entry⟩)
  | none => refuse .noSale s

def execCollectSale (ok : Bool) (n : Nat) (s : State) : Host.Outcome State Fault Refusal :=
  .next (frame ok (some .clock) (collectOwner n) s)

/-- R89, R100. -/
def readOutboundOwner (sel : OutSel) (s : State) : Reply :=
  match sel with
  | .entry seq => readAnswer ((findEntry s seq).map .entry) (Config.readOutboundEmpty seq)
  | .capture => ⟨.done, .capture s.exc.capture⟩
  | .other => ⟨.badValue, .none⟩

def execReadOutbound (ok : Bool) (sel : OutSel) (s : State) : Host.Outcome State Fault Refusal :=
  .next (frame ok none (replyOnly (readOutboundOwner sel)) s)

/-- R66. -/
def execReadDamaged (ok : Bool) (s : State) : Host.Outcome State Fault Refusal :=
  .next (frame ok none (replyOnly fun s => ⟨.done, .damaged s.store.damaged s.store.damagedMore⟩) s)

/-- R84: one line for each peer, the age in whole seconds. -/
def peerLines (s : State) : List (Nat × Option Role × Nat × Nat) := s.lif.peers.map fun p => (p.node, p.role, p.ring, p.age / 1000)

def execReadPeers (ok : Bool) (s : State) : Host.Outcome State Fault Refusal :=
  .next (frame ok none (replyOnly fun s => ⟨.done, .peers (peerLines s)⟩) s)

/-! ### READ READING (R125, R130, R177, R192, R203) -/

/-- The number of the page in force, 0 when none is (R120). -/
def pageInForce (st : Store) : Nat :=
  (st.pages.mapIdx fun i p => if p.good then i + 1 else 0).foldl max 0

/-- What READ READING shows at the role in service; none where the selection does not exist. -/
def readingData (sel : ReadingSel) (s : State) : Option PData :=
  match s.port.role, sel with
  | some .scale, .live => some (.reading s.wgu.offered (pageInForce s.store))
  | some .scale, .result => some (.weighResult s.wgu.result s.wgu.cmdResult)
  | some .ice, .live => some (.order s.icm.state (s.icm.order.map (·.shown)))
  | some .ice, .result => some (.orderResult (s.icm.result.map fun r => (r.1, r.2.shown)))
  | some .ice, .late => some (.lateSettle s.icm.late)
  | some .gate, .live => some (.batch s.cgt.state s.cgt.batch)
  | some .gate, .result => some (.batchResult s.cgt.result)
  | some .gate, .late => some (.lateBatch s.cgt.late)
  | _, _ => none

/-- Whether a role that READ READING reads is in service (R198). -/
def readingRole (s : State) : Bool := s.port.role.isSome && s.port.role != some .clock

/-- R125: at a scale a read is in progress until the frame that carries its answer ends. The role is checked before the selection (R198,
R199). -/
def readReadingOwner (sel : ReadingSel) (s : State) : State × Reply :=
  if !readingRole s then refuse .wrongRole s
  else if sel = .other then refuse .badValue s
  else match readingData sel s with
  | some d => (if s.inService .scale then s.onWgu fun w => { w with reading := true } else s, ⟨.done, d⟩)
  | none => refuse .wrongRole s

def execReadReading (ok : Bool) (sel : ReadingSel) (s : State) : Host.Outcome State Fault Refusal :=
  .next (frame ok none (readReadingOwner sel) s)

/-! ### READ COUNTERS (R50, R61, R88, R113, R138, R165, R180, R195, R207) -/

/-- The number of entries in each state, in the order of R90. -/
def entryCounts (s : State) : List Nat :=
  [EntryState.unresolved, .queued, .sent, .deferred, .doneToUnit, .failed].map fun x =>
    (s.exc.entries.filter fun e => e.state == x).length

/-- FREE, CURRENT, DIRTY, RETIRED (R52). -/
def slotCounts (st : Store) : List Nat := [SlotState.free, .current, .dirty, .retired].map fun x => countState x st

def roleCounters (s : State) : Option PData :=
  match s.port.role with
  | some .scale => some (.scale s.wgu.cnt s.wgu.ctr (calCount s.store))
  | some .clock => some (.clockCounters s.clu.cnt)
  | some .ice => some (.ice s.icm.cnt)
  | some .gate => some (.gate s.cgt.cnt s.node.pool s.cgt.pend)
  | none => none

def countersData (sel : CounterSel) (s : State) : Option PData :=
  match sel with
  | .line => some (.line s.lif.state s.lif.lastJoin s.lif.rate s.lif.cnt)
  | .exchange => some (.exchange s.exc.cnt (entryCounts s) s.node.nextPosting s.exc.holdNo)
  | .book => some (.book s.book.cnt s.book.result)
  | .store => some (.store s.store.cnt (slotCounts s.store) (calCount s.store) (if s.store.serialOk then s.store.serial else 0)
      s.sys.epoch s.sys.epochState)
  | .role => roleCounters s
  | .port => some (.port s.port.cnt s.port.cause s.port.mask s.port.flags s.port.lock)
  | .configuration => some (.configuration s.port.cfg s.port.staged s.self s.port.role)
  | .other => none

def execReadCounters (ok : Bool) (sel : CounterSel) (s : State) : Host.Outcome State Fault Refusal :=
  .next (frame ok none (replyOnly fun s => readAnswer (countersData sel s) (if sel = .other then .badValue else .wrongRole)) s)

/-! ### READ LIST (R203) -/

/-- The tags of the batch in hand. -/
def batchTags (s : State) : List (Nat × Nat) :=
  match s.cgt.batch with
  | some b => b.tags
  | none => []

/-- A collection's entries in its own order; none where the collection does not exist at the role in service. -/
def collection (c : Collection) (s : State) : Option ListData :=
  match c, s.port.role with
  | .accounts, _ => some (.accounts s.book.accounts)
  | .holds, _ => some (.holds s.book.holds)
  | .outbound, _ => some (.outbound s.exc.entries)
  | .homeMap, _ => some (.homeMap s.exc.homeMap)
  | .peers, _ => some (.peers (peerLines s))
  | .lots, some .scale => some (.lots s.wgu.lots)
  | .claims, some .clock => some (.claims (s.clu.claims.map (·.lot)))
  | .sales, some .clock => some (.sales (s.clu.sales.map (·.entry)))
  | .desks, some .clock => some (.desks s.clu.desks)
  | .blocked, some .gate => some (.blocked s.cgt.blocked)
  | .tags, some .gate => some (.tags (batchTags s))
  | _, _ => none

def ListData.size : ListData → Nat
  | .accounts l => l.length
  | .holds l => l.length
  | .lots l => l.length
  | .claims l => l.length
  | .sales l => l.length
  | .desks l => l.length
  | .outbound l => l.length
  | .homeMap l => l.length
  | .peers l => l.length
  | .blocked l => l.length
  | .tags l => l.length

/-- `n` entries from a position. -/
def ListData.part (pos n : Nat) : ListData → ListData
  | .accounts l => .accounts ((l.drop pos).take n)
  | .holds l => .holds ((l.drop pos).take n)
  | .lots l => .lots ((l.drop pos).take n)
  | .claims l => .claims ((l.drop pos).take n)
  | .sales l => .sales ((l.drop pos).take n)
  | .desks l => .desks ((l.drop pos).take n)
  | .outbound l => .outbound ((l.drop pos).take n)
  | .homeMap l => .homeMap ((l.drop pos).take n)
  | .peers l => .peers ((l.drop pos).take n)
  | .blocked l => .blocked ((l.drop pos).take n)
  | .tags l => .tags ((l.drop pos).take n)

/-- R203: as many whole entries as fit from a position, and the position after the last, or END (none). -/
def listAnswer (d : ListData) (pos : Nat) : PData :=
  let n := (d.part pos d.size).fit
  .list (d.part pos n) (if pos + n < d.size then some (pos + n) else none)

def readListOwner (c : Collection) (pos : Nat) (s : State) : Reply :=
  readAnswer ((collection c s).map fun d => listAnswer d pos) (if c = .other then .badValue else .wrongRole)

def execReadList (ok : Bool) (coll : Collection) (pos : Nat) (s : State) : Host.Outcome State Fault Refusal :=
  .next (frame ok none (replyOnly (readListOwner coll pos)) s)

end Sys2Proof.Machine
end

