-- ==== Sys2Proof/Machine/ScaleCommands.lean ====
section
/-! DEFINITION. The meanings of the scale commands of the station port and of the Weighing Unit's events (chapter 6). -/

namespace Sys2Proof.Machine
open Sys2Proof

/-! ### WEIGH (R126) -/

/-- The fields of a WEIGH. -/
structure WeighFields where
  boat : Nat
  species : Nat
  grade : Nat
  ctype : Nat
  count : Nat
  ring : Nat

def readWeigh (boat : Field) (species grade ctype : Nat) (count : Field) (ring : Nat) : Option WeighFields :=
  match readBoat boat, inRange 0 99 (readCount count) with
  | some b, some c =>
    if speciesOk species && gradeOk grade && ctypeOk ctype && ringOk ring then some ⟨b, species, grade, ctype, c, ring⟩ else none
  | _, _ => none

/-- R126: the refusal of a WEIGH with good fields, in the order of its checks. -/
def weighRefusal (s : State) : Option PCode :=
  if (calInForce s.store).isNone then some .notCalibrated
  else if s.port.cfg.crates.isNone then some .notConfigured
  else if !s.lineActive then some .notActive
  else if s.wgu.weigh.isSome then some .busy
  else if 16 ≤ s.wgu.lots.length then some .lotsFull
  else none

/-- R126, R127: RESOLVING begins, and a LOCATE with open-if-none is asked for. -/
def beginWeigh (f : WeighFields) (s : State) : State :=
  askUnit (locateReq .weighLocate f.boat true) (s.onWgu fun w => { w with
    crateTare := some (f.ctype, f.count)
    weigh := some ⟨f.boat, f.species, f.grade, f.ctype, f.count, f.ring, .resolving none⟩ })

def weighOwner (f : Option WeighFields) (s : State) : State × Reply :=
  match f with
  | none => refuse .badValue s
  | some f =>
    match weighRefusal s with
    | some c => refuse c s
    | none => finish .accepted (beginWeigh f s)

def execWeigh (ok : Bool) (boat : Field) (species grade ctype : Nat) (count : Field) (ring : Nat) (s : State) :
    Host.Outcome State Fault Refusal :=
  .next (frame ok (some .scale) (weighOwner (readWeigh boat species grade ctype count ring)) s)

/-! ### ZERO, TARE (R123, R124) -/

/-- R123: whether the offset or the remaining span is out of range. -/
def zeroOutOfRange (f : CalFields) (avg : Int) : Bool :=
  decide (f.capacity * 2 / 100 < (zeroOffset f avg).natAbs) || decide (f.span - avg < 10000)

def zeroOwner (s : State) : State × Reply :=
  match calInForce s.store with
  | none => refuse .notCalibrated s
  | some f =>
    if s.wgu.weigh.isSome then refuse .busy s
    else
      let r := liveReading s
      match r.stable, r.average with
      | true, some avg =>
        if zeroOutOfRange f avg then refuse .zeroRange s
        else finish .done (clearSamples (s.onWgu fun w => { w with zero := avg }))
      | _, _ => refuse .unstable s

def execZero (ok : Bool) (s : State) : Host.Outcome State Fault Refusal := .next (frame ok (some .scale) zeroOwner s)

def tareOwner (f : Field) (s : State) : State × Reply :=
  match readWeight f with
  | some g => finish .done (s.onWgu fun w => { w with manualTare := g })
  | none => refuse .badValue s

def execTare (ok : Bool) (grams : Field) (s : State) : Host.Outcome State Fault Refusal :=
  .next (frame ok (some .scale) (tareOwner grams) s)

/-! ### Calibration (R121, R122) -/

/-- R121: what refuses CAL ZERO and CAL SPAN, or the average they take. -/
def calAverage (s : State) : Except PCode Int :=
  if s.port.lock then .error .locked
  else if s.wgu.weigh.isSome then .error .busy
  else match currentAverage s.wgu with
    | some avg => .ok avg
    | none => .error .noReading

def calZeroOwner (s : State) : State × Reply :=
  match calAverage s with
  | .error c => refuse c s
  | .ok avg => finish .done (s.onWgu fun w => { w with draft := { zero := some avg, span := none } })

def execCalZero (ok : Bool) (s : State) : Host.Outcome State Fault Refusal := .next (frame ok (some .scale) calZeroOwner s)

def calSpanOwner (grams : Field) (s : State) : State × Reply :=
  match inRange 1000 9999999 (readWeight grams) with
  | none => refuse .badValue s
  | some g =>
    match calAverage s with
    | .error c => refuse c s
    | .ok avg =>
      match s.wgu.draft.zero with
      | none => refuse .noDraftZero s
      | some z =>
        if avg < z + 10000 then refuse .spanTooSmall s
        else finish .done (s.onWgu fun w => { w with draft := { w.draft with span := some (avg, g) } })

def execCalSpan (ok : Bool) (grams : Field) (s : State) : Host.Outcome State Fault Refusal :=
  .next (frame ok (some .scale) (calSpanOwner grams) s)

/-- R120: a division of 5, 10, 20 or 50 g and a capacity that is a multiple of it, of one division or more. -/
def readCalFields (z sp : Int) (g : Nat) (division capacity : Field) : Option CalFields :=
  match readWeight division, readWeight capacity with
  | some d, some c =>
    if (d = 5 ∨ d = 10 ∨ d = 20 ∨ d = 50) ∧ d ≤ c ∧ c % d = 0 then some ⟨z, sp, g, d, c⟩ else none
  | _, _ => none

/-- R122, in its order. The page is written with the draft as it stands at the acceptance, whatever CAL ZERO and CAL SPAN make of the draft
before the write (log entry 113, DESIGN CHOICE). -/
def calWriteOwner (division capacity : Field) (s : State) : State × Reply :=
  if s.port.lock then refuse .locked s
  else if s.lif.state ≠ .offline then refuse .notOffline s
  else if 4 ≤ calCount s.store then refuse .calExhausted s
  else match s.wgu.draft.zero, s.wgu.draft.span with
    | some z, some (sp, g) =>
      (match readCalFields z sp g division capacity with
       | none => refuse .badValue s
       | some f =>
         if s.wgu.calBusy then refuse .busy s
         else finish .accepted (placeStore ⟨.cal f, .calPage f⟩ (s.onWgu fun w => { w with calBusy := true })))
    | _, _ => refuse .noDraft s

def execCalWrite (ok : Bool) (division capacity : Field) (s : State) : Host.Outcome State Fault Refusal :=
  .next (frame ok (some .scale) (calWriteOwner division capacity) s)

/-! ### Lot commands (R133, R136) -/

/-- R133: another lot command of the station port is queued or in hand, or the queue is full. -/
def lotCmdBusy (w : Wgu) : Bool := w.lotQ.any isLotCmd || w.lotHand.any isLotCmd || decide (8 ≤ w.lotQ.length)

def lotCmdOwner (n : Nat) (r : LotReq) (s : State) : State × Reply :=
  if !numOk n then refuse .badValue s
  else if lotCmdBusy s.wgu then refuse .busy s
  else finish .accepted (s.onWgu fun w => { w with lotQ := w.lotQ ++ [r] })

def execReleaseLot (ok : Bool) (n : Nat) (s : State) : Host.Outcome State Fault Refusal :=
  .next (frame ok (some .scale) (lotCmdOwner n (.releaseLot n)) s)

def execReoffer (ok : Bool) (n : Nat) (s : State) : Host.Outcome State Fault Refusal :=
  .next (frame ok (some .scale) (lotCmdOwner n (.reoffer n)) s)

def execDelete (ok : Bool) (n : Nat) (s : State) : Host.Outcome State Fault Refusal :=
  .next (frame ok (some .scale) (lotCmdOwner n (.delete n)) s)

/-! ### Samples (R114, R115, R128) -/

/-- R114: one frame of the sample link. -/
def takeFrame (count : BitVec 24) (parity whole : Bool) (s : State) : State :=
  if !s.inService .scale then s
  else if whole && parityGood count parity then
    let s := takeSample count s
    examineReading (offerReading (liveReading s) s)
  else s.onWgu fun w => { w with cnt := { w.cnt with sampleErrors := bump w.cnt.sampleErrors } }

def execSampleFrame (count : BitVec 24) (parity whole : Bool) (s : State) : Host.Outcome State Fault Refusal :=
  .next (takeFrame count parity whole s)

/-- R115: 500 ms without a good sample. The reading then offered shows the counter of the last good sample (log entry 84, DESIGN
CHOICE). -/
def samplesLost (s : State) : State :=
  if due s.wgu.lossT then
    let s := (clearSamples s).onWgu fun w => { w with lossT := none, cnt := { w.cnt with sampleLosses := bump w.cnt.sampleLosses } }
    offerReading (liveReading s) s
  else s

def execSampleLossTimeout (s : State) : Host.Outcome State Fault Refusal := .next (samplesLost s)

/-- R128: whether a WEIGH's 3,000 ms in SETTLING have run out. -/
def settlingDue (s : State) : Bool :=
  match s.wgu.weigh with
  | some g => (match g.stage with | .settling _ 0 => true | _ => false)
  | none => false

def execSettlingLimit (s : State) : Host.Outcome State Fault Refusal := .next (if settlingDue s then settlingEnds s else s)

/-! ### Lots (R132 to R136) -/

/-- Whether a notice of a lot waits for the send queue. -/
def noticeWaits (n : Nat) (s : State) : Bool :=
  s.lif.wait.any fun w => match w.msg.body with | .lot d => d.id.number == n | _ => false

/-- R132: a lot's offer timer reaches 15,000 ms. -/
def offerTimerEnds (n : Nat) (s : State) : State :=
  match findLot s n with
  | some l =>
    (match l.offer with
     | some t => if 15000 ≤ t ∧ s.lineActive = true ∧ noticeWaits n s = false then offerLot n s else s
     | none => s)
  | none => s

def execOfferTimer (lot : Nat) (s : State) : Host.Outcome State Fault Refusal := .next (offerTimerEnds lot s)

/-- R133: the WGU takes the oldest entry when none is in hand and it is of the kind asked for. -/
def takeLotReq (f : LotReq → Option (State → State)) (s : State) : State :=
  match s.wgu.lotHand, s.wgu.lotQ with
  | none, r :: rest =>
    (match f r with
     | some g => g (s.onWgu fun w => { w with lotQ := rest })
     | none => s)
  | _, _ => s

def takeClaimReq : LotReq → Option (State → State)
  | .claim src seq lot ok => some (decideClaim src seq lot ok)
  | _ => none

def execLotQueueTakeClaim (s : State) : Host.Outcome State Fault Refusal := .next (takeLotReq takeClaimReq s)

def takeReportReq : LotReq → Option (State → State)
  | .report src seq lot ok sold => some (decideReport src seq lot ok sold)
  | _ => none

def execLotQueueTakeLotreport (s : State) : Host.Outcome State Fault Refusal := .next (takeLotReq takeReportReq s)

def takeReleaseReq : LotReq → Option (State → State)
  | .releaseLot n => some (decideRelease n)
  | _ => none

def execLotQueueTakeReleaseLot (s : State) : Host.Outcome State Fault Refusal := .next (takeLotReq takeReleaseReq s)

def takeReofferReq : LotReq → Option (State → State)
  | .reoffer n => some (decideReoffer n)
  | _ => none

def execLotQueueTakeReoffer (s : State) : Host.Outcome State Fault Refusal := .next (takeLotReq takeReofferReq s)

def takeDeleteReq : LotReq → Option (State → State)
  | .delete n => some (decideDelete n)
  | _ => none

def execLotQueueTakeDelete (s : State) : Host.Outcome State Fault Refusal := .next (takeLotReq takeDeleteReq s)

end Sys2Proof.Machine
end

