-- ==== Sys2Proof/Machine/StoreCommands.lean ====
section
/-! DEFINITION. The meanings of the Book Store's events (chapter 3). -/

namespace Sys2Proof.Machine
open Sys2Proof

def execStoreListPlacePending (s : State) : Host.Outcome State Fault Refusal := .next (placePending s)

def execStoreTakeRequest (s : State) : Host.Outcome State Fault Refusal := .next (deliver (takeRequest s))

def execStoreWriteEnd (verified : Bool) (s : State) : Host.Outcome State Fault Refusal := .next (deliver (writeEnd verified s))

def execStoreEraseEnd (verified : Bool) (s : State) : Host.Outcome State Fault Refusal := .next (deliver (eraseEnd verified s))

def execStoreCalPageEnd (verified : Bool) (s : State) : Host.Outcome State Fault Refusal := .next (deliver (calPageEnd verified s))

def execStoreBackgroundStart (s : State) : Host.Outcome State Fault Refusal := .next (backgroundStart s)

end Sys2Proof.Machine
end

