-- ==== Sys2Proof/Machine/Supply.lean ====
section
/-! DEFINITION. The meanings of the supply, reset, restart and erasure commands (chapter 3, section 10.7). -/

namespace Sys2Proof.Machine
open Sys2Proof

def execPowerOn (s : State) : Host.Outcome State Fault Refusal := .next (powerApplied s)

def execResetnLow (s : State) : Host.Outcome State Fault Refusal := .next (resetGoesLow s)

def execResetnRelease (s : State) : Host.Outcome State Fault Refusal := .next (resetReleased s)

def execStartupScanEnd (ds : List (Nat × Decay)) (badPages : List Nat) (idBad : Bool) (s : State) :
    Host.Outcome State Fault Refusal := .next (scanEnds ds badPages idBad s)

def execPowerLoss (s : State) : Host.Outcome State Fault Refusal := .next (supplyLost s)

/-- R208: RESTART begins start-up at once and is not answered. The port's own checks come first (R198). -/
def takeRestart (ok : Bool) (s : State) : State :=
  if s.sys.phase = .off then s
  else
    let s := carryAnswer s
    if portStarting s then s.onPort fun p => { p with buf := bareAnswer s .none }
    else if !ok then compose .badValue .none s
    else beginStartUp .restart s

def execRestart (ok : Bool) (s : State) : Host.Outcome State Fault Refusal := .next (takeRestart ok s)

/-- R70: the checks of ERASE STORE, the lock before the line state (R202). -/
def eraseOwner (s : State) : State × Reply :=
  if s.port.lock then refuse .locked s
  else if s.lif.state ≠ .offline then refuse .notOffline s
  else finish .accepted (markErasure s)

/-- R70: an accepted ERASE STORE goes on with the erasure, its answer composed (R208). -/
def takeEraseStore (ok : Bool) (s : State) : State :=
  let t := frame ok none eraseOwner s
  if s.store.erasing.isNone && t.store.erasing.isSome then goErase t else t

def execEraseStore (ok : Bool) (s : State) : Host.Outcome State Fault Refusal := .next (takeEraseStore ok s)

end Sys2Proof.Machine
end

