-- ==== Sys2Proof/Machine/Dispatch.lean ====
section
/-! DEFINITION. The meaning of each command, one arm per constructor. -/

namespace Sys2Proof.Machine
open Sys2Proof

def exec (i : Instr) (s : State) : Host.Outcome State Fault Refusal :=
  match i with
  | .powerOn => Sys2Proof.Machine.execPowerOn s
  | .resetnLow => Sys2Proof.Machine.execResetnLow s
  | .resetnRelease => Sys2Proof.Machine.execResetnRelease s
  | .startupScanEnd decay badPages idBad => Sys2Proof.Machine.execStartupScanEnd decay badPages idBad s
  | .restart ok => Sys2Proof.Machine.execRestart ok s
  | .eraseStore ok => Sys2Proof.Machine.execEraseStore ok s
  | .nopStatus ok => Sys2Proof.Machine.execNopStatus ok s
  | .ack ok bits => Sys2Proof.Machine.execAck ok bits s
  | .mask ok bits => Sys2Proof.Machine.execMask ok bits s
  | .lock ok => Sys2Proof.Machine.execLock ok s
  | .unlock ok => Sys2Proof.Machine.execUnlock ok s
  | .configure ok items => Sys2Proof.Machine.execConfigure ok items s
  | .join ok => Sys2Proof.Machine.execJoin ok s
  | .leave ok => Sys2Proof.Machine.execLeave ok s
  | .leaveTransmissionDrained => Sys2Proof.Machine.execLeaveTransmissionDrained s
  | .readAccount ok acct => Sys2Proof.Machine.execReadAccount ok acct s
  | .readHold ok node epoch number => Sys2Proof.Machine.execReadHold ok node epoch number s
  | .readLot ok sel => Sys2Proof.Machine.execReadLot ok sel s
  | .readQueue ok sel => Sys2Proof.Machine.execReadQueue ok sel s
  | .readSale ok sel => Sys2Proof.Machine.execReadSale ok sel s
  | .collectSale ok n => Sys2Proof.Machine.execCollectSale ok n s
  | .readOutbound ok sel => Sys2Proof.Machine.execReadOutbound ok sel s
  | .readDamaged ok => Sys2Proof.Machine.execReadDamaged ok s
  | .readPeers ok => Sys2Proof.Machine.execReadPeers ok s
  | .readReading ok sel => Sys2Proof.Machine.execReadReading ok sel s
  | .readCounters ok sel => Sys2Proof.Machine.execReadCounters ok sel s
  | .readList ok coll pos => Sys2Proof.Machine.execReadList ok coll pos s
  | .openAccount ok acct limit => Sys2Proof.Machine.execOpenAccount ok acct limit s
  | .adjust ok acct amount => Sys2Proof.Machine.execAdjust ok acct amount s
  | .remove ok acct => Sys2Proof.Machine.execRemove ok acct s
  | .clearFlags ok acct => Sys2Proof.Machine.execClearFlags ok acct s
  | .retry ok seq => Sys2Proof.Machine.execRetry ok seq s
  | .discard ok seq => Sys2Proof.Machine.execDiscard ok seq s
  | .weigh ok boat species grade ctype count ring => Sys2Proof.Machine.execWeigh ok boat species grade ctype count ring s
  | .zero ok => Sys2Proof.Machine.execZero ok s
  | .tare ok grams => Sys2Proof.Machine.execTare ok grams s
  | .calZero ok => Sys2Proof.Machine.execCalZero ok s
  | .calSpan ok grams => Sys2Proof.Machine.execCalSpan ok grams s
  | .calWrite ok division capacity => Sys2Proof.Machine.execCalWrite ok division capacity s
  | .releaseLot ok n => Sys2Proof.Machine.execReleaseLot ok n s
  | .reoffer ok n => Sys2Proof.Machine.execReoffer ok n s
  | .delete ok n => Sys2Proof.Machine.execDelete ok n s
  | .showLot ok => Sys2Proof.Machine.execShowLot ok s
  | .start ok startPrice floorPrice step tick => Sys2Proof.Machine.execStart ok startPrice floorPrice step tick s
  | .halt ok => Sys2Proof.Machine.execHalt ok s
  | .resume ok => Sys2Proof.Machine.execResume ok s
  | .withdraw ok => Sys2Proof.Machine.execWithdraw ok s
  | .deskIn ok desk buyer amount => Sys2Proof.Machine.execDeskIn ok desk buyer amount s
  | .deskOut ok desk => Sys2Proof.Machine.execDeskOut ok desk s
  | .order ok boat kg acceptLess => Sys2Proof.Machine.execOrder ok boat kg acceptLess s
  | .stop ok => Sys2Proof.Machine.execStop ok s
  | .batchOpen ok kind acct => Sys2Proof.Machine.execBatchOpen ok kind acct s
  | .batchClose ok => Sys2Proof.Machine.execBatchClose ok s
  | .batchCancel ok => Sys2Proof.Machine.execBatchCancel ok s
  | .block ok serial => Sys2Proof.Machine.execBlock ok serial s
  | .unblock ok serial => Sys2Proof.Machine.execUnblock ok serial s
  | .portUnknownCommand code => Sys2Proof.Machine.execPortUnknownCommand code s
  | .portFrameFault f => Sys2Proof.Machine.execPortFrameFault f s
  | .portFrameTimeout => Sys2Proof.Machine.execPortFrameTimeout s
  | .lineGarbledMessage w => Sys2Proof.Machine.execLineGarbledMessage w s
  | .joinMessage h role ring serial epoch => Sys2Proof.Machine.execJoinMessage h role ring serial epoch s
  | .clash h number joinSerial ownSerial => Sys2Proof.Machine.execClash h number joinSerial ownSerial s
  | .present h role ring => Sys2Proof.Machine.execPresent h role ring s
  | .opened h acct => Sys2Proof.Machine.execOpened h acct s
  | .home h acct => Sys2Proof.Machine.execHome h acct s
  | .answer h a => Sys2Proof.Machine.execAnswer h a s
  | .hold h r => Sys2Proof.Machine.execHold h r s
  | .release h r => Sys2Proof.Machine.execRelease h r s
  | .post h r => Sys2Proof.Machine.execPost h r s
  | .locate h acct => Sys2Proof.Machine.execLocate h acct s
  | .claim h scale number => Sys2Proof.Machine.execClaim h scale number s
  | .lotReport h scale number sold => Sys2Proof.Machine.execLotReport h scale number sold s
  | .lot h d => Sys2Proof.Machine.execLot h d s
  | .lineQuietTime => Sys2Proof.Machine.execLineQuietTime s
  | .contentionLoss => Sys2Proof.Machine.execContentionLoss s
  | .lineError => Sys2Proof.Machine.execLineError s
  | .sendComplete => Sys2Proof.Machine.execSendComplete s
  | .sendQueuePlaceWaiting => Sys2Proof.Machine.execSendQueuePlaceWaiting s
  | .listenIdleWindow => Sys2Proof.Machine.execListenIdleWindow s
  | .listenTimeout => Sys2Proof.Machine.execListenTimeout s
  | .clashWindowEnd => Sys2Proof.Machine.execClashWindowEnd s
  | .presentTimer => Sys2Proof.Machine.execPresentTimer s
  | .peerAgeExpiry node => Sys2Proof.Machine.execPeerAgeExpiry node s
  | .excFreePlaceRetry => Sys2Proof.Machine.execExcFreePlaceRetry s
  | .excSend => Sys2Proof.Machine.execExcSend s
  | .excAnswerTimeout seq => Sys2Proof.Machine.execExcAnswerTimeout seq s
  | .excDeferWaitEnd seq => Sys2Proof.Machine.execExcDeferWaitEnd seq s
  | .locateWindowEnd seq => Sys2Proof.Machine.execLocateWindowEnd seq s
  | .locateSearchDeferEnd seq => Sys2Proof.Machine.execLocateSearchDeferEnd seq s
  | .localOpeningRetry seq => Sys2Proof.Machine.execLocalOpeningRetry seq s
  | .bookQueuePlaceWaiting => Sys2Proof.Machine.execBookQueuePlaceWaiting s
  | .bookTakePost => Sys2Proof.Machine.execBookTakePost s
  | .bookTakeHold => Sys2Proof.Machine.execBookTakeHold s
  | .bookTakeRelease => Sys2Proof.Machine.execBookTakeRelease s
  | .bookTakeLocate => Sys2Proof.Machine.execBookTakeLocate s
  | .bookTakeOpened => Sys2Proof.Machine.execBookTakeOpened s
  | .bookTakeHome => Sys2Proof.Machine.execBookTakeHome s
  | .bookTakeLocalOpening => Sys2Proof.Machine.execBookTakeLocalOpening s
  | .bookTakeOpen => Sys2Proof.Machine.execBookTakeOpen s
  | .bookTakeAdjust => Sys2Proof.Machine.execBookTakeAdjust s
  | .bookTakeRemove => Sys2Proof.Machine.execBookTakeRemove s
  | .bookTakeClearFlags => Sys2Proof.Machine.execBookTakeClearFlags s
  | .holdLifetimeSecond node epoch number => Sys2Proof.Machine.execHoldLifetimeSecond node epoch number s
  | .bookYieldRetry acct => Sys2Proof.Machine.execBookYieldRetry acct s
  | .bookStateCommitRetry acct => Sys2Proof.Machine.execBookStateCommitRetry acct s
  | .storeListPlacePending => Sys2Proof.Machine.execStoreListPlacePending s
  | .storeTakeRequest => Sys2Proof.Machine.execStoreTakeRequest s
  | .storeWriteEnd verified => Sys2Proof.Machine.execStoreWriteEnd verified s
  | .storeEraseEnd verified => Sys2Proof.Machine.execStoreEraseEnd verified s
  | .storeCalPageEnd verified => Sys2Proof.Machine.execStoreCalPageEnd verified s
  | .storeBackgroundStart => Sys2Proof.Machine.execStoreBackgroundStart s
  | .sampleFrame count parity whole => Sys2Proof.Machine.execSampleFrame count parity whole s
  | .sampleLossTimeout => Sys2Proof.Machine.execSampleLossTimeout s
  | .settlingLimit => Sys2Proof.Machine.execSettlingLimit s
  | .offerTimer lot => Sys2Proof.Machine.execOfferTimer lot s
  | .lotQueueTakeClaim => Sys2Proof.Machine.execLotQueueTakeClaim s
  | .lotQueueTakeLotreport => Sys2Proof.Machine.execLotQueueTakeLotreport s
  | .lotQueueTakeReleaseLot => Sys2Proof.Machine.execLotQueueTakeReleaseLot s
  | .lotQueueTakeReoffer => Sys2Proof.Machine.execLotQueueTakeReoffer s
  | .lotQueueTakeDelete => Sys2Proof.Machine.execLotQueueTakeDelete s
  | .queueCommitRetry scale number => Sys2Proof.Machine.execQueueCommitRetry scale number s
  | .clockTick => Sys2Proof.Machine.execClockTick s
  | .lotEndRetry => Sys2Proof.Machine.execLotEndRetry s
  | .deskScan pressed => Sys2Proof.Machine.execDeskScan pressed s
  | .saleLogRetry => Sys2Proof.Machine.execSaleLogRetry s
  | .saleRequestRetry sale => Sys2Proof.Machine.execSaleRequestRetry sale s
  | .saleUpdateRetry sale => Sys2Proof.Machine.execSaleUpdateRetry sale s
  | .lotreportReissue sale => Sys2Proof.Machine.execLotreportReissue sale s
  | .augerPulse lowMs => Sys2Proof.Machine.execAugerPulse lowMs s
  | .emergencyStop => Sys2Proof.Machine.execEmergencyStop s
  | .stallTimer => Sys2Proof.Machine.execStallTimer s
  | .coastingEnd => Sys2Proof.Machine.execCoastingEnd s
  | .icmSettleRetry => Sys2Proof.Machine.execIcmSettleRetry s
  | .tagRead bytes => Sys2Proof.Machine.execTagRead bytes s
  | .poolUpdateRetry => Sys2Proof.Machine.execPoolUpdateRetry s
  | .cgtPostingRetry => Sys2Proof.Machine.execCgtPostingRetry s
  | .powerLoss => Sys2Proof.Machine.execPowerLoss s
  | .estopnReturnHigh => Sys2Proof.Machine.execEstopnReturnHigh s

end Sys2Proof.Machine
end

