-- ==== Sys2Proof/Machine/Tick.lean ====
section
/-! DEFINITION. The 1 ms tick of the Time Base (00 section 3): what `step` does when no command waits (log entry 1). Every timer
advances; what a timer's end brings about is a command of its own (log entry 2). -/

namespace Sys2Proof.Machine
open Sys2Proof

/-- A timer that counts up to a limit. -/
def countUp (limit : Nat) (t : Option Nat) : Option Nat := t.map fun n => min limit (n + 1)

def tickLif (l : Lif) : Lif :=
  { l with
    listenT := tickTimer l.listenT, clashT := tickTimer l.clashT, presentT := countUp 10000 l.presentT
    peers := l.peers.map fun p => { p with age := min 35000 (p.age + 1) } }

def tickSearch : Search → Search
  | .window second homes tens left => .window second homes tens (left - 1)
  | .waiting homes left => .waiting homes (left - 1)
  | .openWait left => .openWait (left - 1)
  | x => x

def tickEntry (e : Entry) : Entry := { e with deadline := tickTimer e.deadline, search := e.search.map tickSearch }

def tickExc (x : Exc) : Exc := { x with entries := x.entries.map tickEntry }

def tickYield : YieldStage → YieldStage
  | .askWait left => .askWait (left - 1)
  | .reopenWait left => .reopenWait (left - 1)
  | .finishWait fin notify left => .finishWait fin notify (left - 1)
  | x => x

def tickBook (b : Book) : Book :=
  { b with
    holds := b.holds.map fun h => { h with ms := h.ms + 1 }
    yields := b.yields.map fun y => { y with stage := tickYield y.stage } }

def tickWeigh (g : Weigh) : Weigh :=
  match g.stage with
  | .settling home left => { g with stage := .settling home (left - 1) }
  | _ => g

/-- The offer timer runs only while the lot is OFFERED and the LIF is ACTIVE (R132). -/
def tickLot (active : Bool) (l : Lot) : Lot :=
  if active && l.state == .offered then { l with offer := countUp 15000 l.offer } else l

def tickWgu (active : Bool) (w : Wgu) : Wgu :=
  { w with lossT := tickTimer w.lossT, weigh := w.weigh.map tickWeigh, lots := w.lots.map (tickLot active) }

def tickSale (e : Sale) : Sale :=
  { e with redo := e.redo.map fun x => { x with left := x.left - 1 }, reissue := tickTimer e.reissue }

def tickClu (c : Clu) : Clu :=
  { c with
    claims := c.claims.map fun x => { x with retry := tickTimer x.retry }
    cleaning := c.cleaning.map fun x => { x with retry := tickTimer x.retry }
    tickT := countUp 2000 c.tickT
    settling := c.settling.map fun x => { x with logRetry := tickTimer x.logRetry }
    reqWait := c.reqWait.map fun w => { w with left := w.left - 1 }
    lotEndT := tickTimer c.lotEndT
    sales := c.sales.map tickSale }

def tickIcm (m : Icm) : Icm :=
  { m with
    stallT := tickTimer m.stallT, coastT := tickTimer m.coastT, settleT := tickTimer m.settleT, edgeMs := min 5 (m.edgeMs + 1) }

def tickCgt (c : Cgt) : Cgt := { c with poolT := tickTimer c.poolT, postT := tickTimer c.postT }

/-- One millisecond. Before the hand-over no timer runs (R64). -/
def tick (s : State) : State :=
  if s.sys.phase = .running then
    { s with
      lif := tickLif s.lif, exc := tickExc s.exc, book := tickBook s.book, wgu := tickWgu s.lineActive s.wgu, clu := tickClu s.clu
      icm := tickIcm s.icm, cgt := tickCgt s.cgt }
  else s

end Sys2Proof.Machine
end

