-- ==== Sys2Proof/Safety.lean ====
section
/-! DEFINITION. What the spec promises of every state (the sizes of the tables, queues and lists), and the words in which the
statements speak of port commands and line arrivals. -/

namespace Sys2Proof.Machine
open Sys2Proof

/-- The queues and tables of fixed size hold no more than the spec gives them: 256 slots and 8 requests on the list (R51, R54), 24
messages and 4 reserve messages (R76, R77), 16 entries of the book's queue (R22), 24 holds (R41), 32 desks (R149), 8 entries of the
lot request queue (R133), 32 blocked tags (R183), 8 samples and 16 readings (R114, R118), 16 home map entries (R107), 128 accounts (R20),
32 outbound entries with the free places (R89), 16 lots (R131), 12 queued lots with the claims in flight (R140, R142), 32 sales (R145,
R158), a peer for each of 62 nodes (R84), 64 tags (R186) and 8 damaged accounts (R66). -/
structure WithinSizes (s : State) : Prop where
  slots : s.store.slots.length = 256
  requests : s.store.list.length ≤ 8
  queue : s.lif.queue.length ≤ 24
  reserve : s.lif.reserve.length ≤ 4
  bookQueue : s.book.queue.length ≤ 16
  holds : s.book.holds.length ≤ 24
  desks : s.clu.desks.length = 32
  lotQ : s.wgu.lotQ.length ≤ 8
  blocked : s.cgt.blocked.length ≤ 32
  window : s.wgu.window.length ≤ 8
  history : s.wgu.history.length ≤ 16
  homeMap : s.exc.homeMap.length ≤ 16
  accounts : s.book.accounts.length ≤ 128
  entries : s.exc.entries.length + s.exc.free.length ≤ 32
  lots : s.wgu.lots.length ≤ 16
  lotQueue : s.clu.queue.length + s.clu.claims.length ≤ 12
  sales : s.clu.sales.length ≤ 32
  peers : s.lif.peers.length ≤ 62
  tags : ∀ b, s.cgt.batch = some b → b.tags.length ≤ 64
  damaged : s.store.damaged.length ≤ 8
  /-- The lots of the table have different numbers (R129, R131). -/
  lotNumbers : (s.wgu.lots.map (·.number)).Nodup
  /-- While a WEIGH is in hand the role is SCALE and the lot table has a place left (R126). -/
  weighing : s.wgu.weigh.isSome = true → s.port.role = some .scale ∧ s.wgu.lots.length < 16
  /-- Only in ANNOUNCE and ACTIVE do messages stand in the send queue (R76, R81, R82). -/
  quiet : s.lif.state ≠ .announce → s.lif.state ≠ .active → s.lif.queue = []

/-! ### Port commands (R196 to R198) -/

/-- Port commands are taken: the part has power, start-up has ended, and no erasure is under way (R64, R198, R208). -/
abbrev Taken (s : State) : Prop := s.sys.phase = .running ∧ s.store.erasing = none

/-- Port commands of a role are taken: that role's unit is in service (R198). -/
abbrev TakenBy (r : Role) (s : State) : Prop := Taken s ∧ s.port.role = some r

/-- The Weighing Unit once a frame has carried out the answer of a READ READING (R125). -/
def readEnded (w : Wgu) : Wgu :=
  if w.reading then { w with reading := false, offered := w.waiting.getD w.offered, waiting := none } else w

/-- What a frame that is taken as a command leaves, apart from the command's own effect, which `s` already shows: the answer buffer
holds the code and the data under the status word of the moment, the buffer that stood when the frame started has been carried
out, the port is no longer FRESH, and a READ READING answer carried out ends its read (R125, R196, R198). -/
def answered (code : PCode) (data : PData) (s : State) : State :=
  { s with
    port := { s.port with
      buf := { status := statusWord s .none, code := code, data := data, more := data.more }
      sent := s.port.buf
      fresh := false }
    wgu := readEnded s.wgu }

/-- What a frame that comes while the port is STARTING leaves, or a faulted one but for FRESH: the answer NONE (R64, R197, R208). -/
def unanswered (f : PortFault) (s : State) : State :=
  { s with
    port := { s.port with buf := { status := statusWord s f, code := .none, data := .none, more := false }, sent := s.port.buf }
    wgu := readEnded s.wgu }

/-- What a faulted frame leaves: the answer NONE with its fault; it is a first frame like any other (R197, R198). -/
def faulted (f : PortFault) (s : State) : State :=
  let t := unanswered f s
  { t with port := { t.port with fresh := false } }

/-- Start-up has begun (R64, R208): the store's slots stand as `slots`, its pages and the unit serial stand, the queue of commands and the pin
levels stand, and everything else is at its value of start-up. -/
structure StartedUp (cause : StartCause) (phase : Phase) (slots : List Slot) (s t : State) : Prop where
  pending : t.pending = s.pending
  sys : t.sys = { s.sys with phase := phase, epoch := 0, epochState := .notTaken, lateFlags := 0, free := t.sys.free }
  port : t.port = Port.initial cause t.port.sent
  lif : t.lif = {}
  exc : t.exc = Exc.initial
  book : t.book = Book.initial
  store : t.store = { slots := slots, pages := t.store.pages, serial := s.store.serial, serialOk := s.store.serialOk
                      damaged := s.store.damaged, damagedMore := s.store.damagedMore }
  node : t.node = {}
  wgu : t.wgu = Wgu.initial
  clu : t.clu = Clu.initial
  icm : t.icm = {}
  cgt : t.cgt = {}

/-! ### The hall line (chapter 4) -/

/-- The Line Interface with its queues and timers emptied, in a line state in which nothing is sent (R81, R82). -/
def lineEmptied (st : LineState) (out : JoinOutcome) (l : Lif) : Lif :=
  { l with state := st, lastJoin := out, queue := [], reserve := [], wait := [], tx := none, listenT := none, clashT := none
           presentT := none }

/-- What the line going down does to the WEIGH of a SCALE in service: one in RESOLVING ends NOT ACTIVE, and gives up its LOCATE where that has
not been made (R127, R130). -/
def weighLineDown (s : State) : State :=
  match s.wgu.weigh with
  | some ⟨boat, _, _, _, _, _, .resolving _⟩ =>
    if s.port.role = some .scale then { dropAsk .weighLocate s with
      port := { s.port with flags := s.port.flags ||| flagBit .weighDone }
      wgu := { s.wgu with
        weigh := none, result := some { code := .notActive, boat := boat }
        cnt := { s.wgu.cnt with weighsFailed := bump s.wgu.cnt.weighsFailed } } }
    else s
  | _ => s

/-- What the line going down leaves in the other blocks: SENT and DEFERRED entries return to QUEUED, searches end, the own book's waiting
requests are withdrawn, an entry of the book or of the lot request queue whose answer waited for the send queue ends, a WEIGH that resolves its
boat home ends, and LINE_STATE is latched (R76, R81, R111, R127). -/
def lineDown (l : Lif) (s : State) : State :=
  let waited (e : Ends) : Bool := s.lif.wait.any fun w => w.ends == e
  let t := weighLineDown { s with
    lif := l
    exc := { s.exc with entries := s.exc.entries.map (entryLineDown s.exc.entries), ready := [] }
    book := { s.book with
      wait := s.book.wait.filter fun r => !isHandOver r, hand := if waited .bookHand then none else s.book.hand }
    wgu := { s.wgu with lotHand := if waited .lotHand then none else s.wgu.lotHand } }
  { t with port := { t.port with flags := t.port.flags ||| flagBit .lineState } }

/-- A well-formed message of another node, addressed to this node or to all, while the LIF is ACTIVE (R71 steps 2 to 5). -/
abbrev Heard (toAll : Bool) (h : Hdr) (s : State) : Prop :=
  s.lif.state = .active ∧ headerOk toAll h = true ∧ h.src ≠ s.node.number ∧ (toAll = false → h.dst = s.node.number)

/-- The peer list with a node heard, its age 0; a JOIN or PRESENT brings role and ring (R84). -/
def peerHeard (node : Nat) (told : Option (Role × Nat)) (l : Lif) : Lif :=
  let old : Peer := (findPeer l.peers node).getD ⟨node, none, 0, 0⟩
  { l with peers := putPeer (match told with
      | some (r, ring) => { old with role := some r, ring := ring, age := 0 }
      | none => { old with age := 0 }) l.peers }

/-! ### The shared ends of a step -/

/-- A request stands last on the store request list (R54). -/
def listed (r : Request) (s : State) : State := { s with store := { s.store with list := s.store.list ++ [r] } }

/-- The request list takes one more request (R54), and no erasure discards it (R70). -/
abbrev ListOpen (s : State) : Prop := s.store.erasing = none ∧ listRoom s = true

/-- An attention flag is latched (R199). -/
def flagged (f : Flag) (s : State) : State := { s with port := { s.port with flags := s.port.flags ||| flagBit f } }

/-- A message stands in the send queue, behind those of its class and of lower classes (R76). -/
def queued (m : Msg) (s : State) : State :=
  { s with lif := { s.lif with queue := insertMsg { m with stamp := s.lif.stamp } s.lif.queue, stamp := s.lif.stamp + 1 } }

/-- The send queue takes one more message (R76). -/
abbrev LineOpen (s : State) : Prop := s.lif.state = .active ∧ sendRoom s = true

/-- The book has no entry in hand and this one stands first in its queue (R23). -/
abbrev BookFront (r : BookReq) (rest : List BookReq) (s : State) : Prop := s.book.hand = none ∧ s.book.queue = r :: rest

/-- The entry at the front of the book's queue has ended at once (R23). -/
def bookTaken (rest : List BookReq) (s : State) : State := { s with book := { s.book with queue := rest, hand := none } }

/-- The entry at the front of the book's queue is in hand (R23). -/
def bookHeld (r : BookReq) (rest : List BookReq) (s : State) : State := { s with book := { s.book with queue := rest, hand := some r } }

/-- The book answers a request of the line, whose answer stands in the send queue, or of the own EXC, which takes it at once (R23). -/
def bookReplied (r : BookReq) (k : ReqKind) (acct : Nat) (c : AnsCode) (d : AnsData) (s : State) : State :=
  match r.src with
  | .line node seq => queued (newMsg .answer node seq (.answer k (.account acct) c d) .book 0) s
  | .own seq => takeOwnAnswer seq r.ask c d s
  | .port => s

/-- A request of the line finds a place for its answer (R76). -/
def LineFor (src : Src) (s : State) : Prop := ∀ node seq, src = .line node seq → LineOpen s

/-- The outcome of a station port book command: the book command result and STORE_EVENT (R36). -/
def bookCmdEnded (cmd : BookCmd) (acct : Nat) (code : PCode) (s : State) : State :=
  flagged .storeEvent { s with book := { s.book with result := some ⟨cmd, acct, code⟩, hand := none } }

/-! ### Postings asked for (R91 to R93) -/

/-- A place is open to a request of one entry, and `q` is the one that has been free longest (R89, R91). -/
abbrev PlaceOpen (q : Nat) (qs : List Nat) (s : State) : Prop := s.exc.free = q :: qs ∧ 0 < openPlaces s.exc

/-- The EXC can have a commit made at once: the epoch is in use, no other commit of the EXC runs or waits, and a posting number is left
(R92, R93). -/
abbrev CommitReady (s : State) : Prop :=
  s.sys.epochState = .inUse ∧ s.exc.work = none ∧ s.exc.jobs = [] ∧ s.node.nextPosting ≤ 65535

/-- The EXC can take up a request with one posting at once: a place is free as well (R91). -/
abbrev PostReady (s : State) : Prop := s.exc.free ≠ [] ∧ CommitReady s

/-- A request with one posting is taken up: a place is kept for it, and the commit of its OUTBOUND record and of the next posting number
stands on the store request list (R93). -/
def postAsked (ref : Ref) (p : Posting) (dest : Nat) (s : State) : State :=
  let p' : Posting := { p with id := ⟨s.node.number, s.sys.epoch, s.node.nextPosting⟩ }
  let r : CreateReq := ⟨ref, [⟨.post p, ref, some p.account, some dest, false⟩]⟩
  listed ⟨.excWork, .group [.outbound ⟨p', ref, dest, none⟩, .node (nodeAfter s.sys.epoch s.node.nextPosting 1)]⟩
    { s with exc := { s.exc with work := some (.create r [p']) } }

/-- The re-identification of a posting is taken up: the entry waits, and the commit of its OUTBOUND record under a fresh identity, which
carries the old one, stands on the store request list with the next posting number (R110). -/
def reidentAsked (e : Entry) (p : Posting) (s : State) : State :=
  let t := putEntry { e with committing := true } s
  let id : Ident := ⟨s.node.number, s.sys.epoch, s.node.nextPosting⟩
  listed ⟨.excWork, .group [.outbound ⟨{ p with id := id }, e.ref, e.dest.getD 0, some p.id⟩,
      .node (nodeAfter s.sys.epoch s.node.nextPosting 1)]⟩
    { t with exc := { t.exc with work := some (.reident e.seq id) } }

/-- An entry has become FAILED: the count rises and its unit has the outcome; an entry of another kind than POST gives up its place, and a
POST stays, with POSTING_FAILED latched and the empty failure capture filled (R100). -/
def entryFailed (e : Entry) (last : LastAns) (s : State) : State :=
  let s : State := { s with exc := { s.exc with cnt := { s.exc.cnt with failed := bump s.exc.cnt.failed } } }
  match e.body with
  | .post p =>
    let e' : Entry := { e with state := .failed, last := some last, deadline := none, tok := 0 }
    let t := putEntry e' s
    unitOutcome e' (.failed last) (flagged .postingFailed { t with exc := { t.exc with
      capture := some (t.exc.capture.getD ⟨e.seq, p.kind, p.account, e.dest.getD 0, p.id, last⟩) } })
  | _ => unitOutcome e (.failed last) (freePlace e.seq s)

/-- An entry without a posting stands in the table, with its destination, in the place that has been free longest (R89, R91). -/
def entryMade (q : Nat) (qs : List Nat) (i : NewEntry) (s : State) : State :=
  refreshReady { s with exc := { s.exc with free := qs, entries := putEntryIn (makeEntry q i) s.exc.entries } }

/-! ### Outcomes at the units (R102) -/

/-- A posting's entry is DONE-to-unit, its unit reports the outcome taken, and the request list takes the removal of its OUTBOUND record. -/
abbrev Ended (e : Entry) (p : Posting) (s : State) : Prop :=
  findEntry s e.seq = some e ∧ e.state = .doneToUnit ∧ e.body = .post p ∧ e.removing = false ∧ ListOpen s

/-- The outcome of a posting has been reported taken: the removal of its OUTBOUND record stands on the store request list (R102). -/
def outcomeTaken (e : Entry) (p : Posting) (s : State) : State :=
  listed ⟨.outRemoval p.id, .removal (.outbound p.id.epoch p.id.number)⟩ (putEntry { e with removing := true } s)

/-! ### Offered lots (R132) -/

/-- NO RING of an OFFERED lot is decided afresh, by whether a clock of its ring is a peer; a change is a lot event (R132, R138). -/
def ringDecided (l : Lot) (s : State) : State :=
  let now := !clockPresent s l.ring
  if now = l.noRing then s
  else { s with
    port := { s.port with flags := s.port.flags ||| flagBit .lotEvent }
    wgu := { s.wgu with
      lots := putLotIn { l with noRing := now } s.wgu.lots
      lotEvent := some ⟨l.number, if now then .noRing else .ringFound, none⟩ } }

/-- An OFFERED lot is offered: its notice stands in the send queue, its offer timer starts afresh, and its NO RING is decided (R132). -/
def lotOffered (l : Lot) (s : State) : State :=
  queued (newMsg .notice 0 0 (.lot (describeLot s.node.number l)) .wgu 0)
    (ringDecided { l with offer := some 0 } { s with wgu := { s.wgu with lots := putLotIn { l with offer := some 0 } s.wgu.lots } })

/-! ### Commands by role -/

/-- The role whose unit must be in service for a port command; none for the commands of every role (10.1). -/
def commandRole : Instr → Option Role
  | .readLot .. | .weigh .. | .zero _ | .tare .. | .calZero _ | .calSpan .. | .calWrite .. | .releaseLot .. | .reoffer ..
  | .delete .. => some .scale
  | .readQueue .. | .readSale .. | .collectSale .. | .showLot _ | .start .. | .halt _ | .resume _ | .withdraw _ | .deskIn ..
  | .deskOut .. => some .clock
  | .order .. | .stop _ => some .ice
  | .batchOpen .. | .batchClose _ | .batchCancel _ | .block .. | .unblock .. => some .gate
  | _ => none

/-- Whether the argument length of a port command is good; none for a command that is no port frame (R198). -/
def argumentOk : Instr → Option Bool
  | .restart ok | .eraseStore ok | .nopStatus ok | .ack ok _ | .mask ok _ | .lock ok | .unlock ok | .configure ok _ | .join ok
  | .leave ok | .readAccount ok _ | .readHold ok _ _ _ | .readLot ok _ | .readQueue ok _ | .readSale ok _ | .collectSale ok _
  | .readOutbound ok _ | .readDamaged ok | .readPeers ok | .readReading ok _ | .readCounters ok _ | .readList ok _ _
  | .openAccount ok _ _ | .adjust ok _ _ | .remove ok _ | .clearFlags ok _ | .retry ok _ | .discard ok _ | .weigh ok _ _ _ _ _ _
  | .zero ok | .tare ok _ | .calZero ok | .calSpan ok _ | .calWrite ok _ _ | .releaseLot ok _ | .reoffer ok _ | .delete ok _
  | .showLot ok | .start ok _ _ _ _ | .halt ok | .resume ok | .withdraw ok | .deskIn ok _ _ _ | .deskOut ok _ | .order ok _ _ _
  | .stop ok | .batchOpen ok _ _ | .batchClose ok | .batchCancel ok | .block ok _ | .unblock ok _ => some ok
  | _ => none

end Sys2Proof.Machine
end

