-- ==== Sys2Proof/WellFormed.lean ====
section
/-! DEFINITION. Which commands can reach the part: every binary operand within its field, every list within the length that a
message or a frame can carry (sections 4.1 and 10.1), slots and pages by number. Values that fit their fields and are out of range
are well formed: the part itself answers them. -/

namespace Sys2Proof

def byteFits (n : Nat) : Bool := n < 256
def wordFits (n : Nat) : Bool := n < 65536
def serialFits (n : Nat) : Bool := n < 281474976710656
def tagFits (n : Nat) : Bool := n < 16777216

/-- The longest packed decimal layout is 5 bytes (section 4.2). -/
def fieldFits (f : Field) : Bool := f.length ≤ 5

/-- Six bits of source and destination, five of sequence (section 4.1). -/
def Hdr.fits (h : Hdr) : Bool := h.src < 64 && h.dst < 64 && h.seq < 32

def RawItem.fits (r : RawItem) : Bool := byteFits r.ctype && fieldFits r.count && fieldFits r.deposit

def RawCarried.fits (r : RawCarried) : Bool :=
  byteFits r.node && wordFits r.epoch && wordFits r.number && fieldFits r.remaining && wordFits r.life

def RawTransfer.fits (r : RawTransfer) : Bool :=
  fieldFits r.balance && fieldFits r.floor && fieldFits r.unmatched && r.counts.all fieldFits && decide (r.counts.length ≤ 255)
    && r.holds.all RawCarried.fits && decide (r.holds.length ≤ 255)

def RawPost.fits (r : RawPost) : Bool :=
  byteFits r.origin && wordFits r.epoch && wordFits r.number && fieldFits r.account && fieldFits r.amount
    && (match r.items with | some is => is.all RawItem.fits && decide (is.length ≤ 255) | none => true)
    && (match r.holdKey with | some k => wordFits k.1 && wordFits k.2 | none => true)
    && (match r.transfer with | some t => t.fits | none => true)

def RawHold.fits (r : RawHold) : Bool :=
  wordFits r.epoch && wordFits r.number && fieldFits r.account && fieldFits r.amount && wordFits r.life

def RawRelease.fits (r : RawRelease) : Bool := wordFits r.epoch && wordFits r.number && fieldFits r.account

def RawLot.fits (r : RawLot) : Bool :=
  byteFits r.scale && wordFits r.number && fieldFits r.boat && byteFits r.boatHome && wordFits r.species && byteFits r.grade
    && fieldFits r.net && byteFits r.ctype && fieldFits r.count && byteFits r.ring && byteFits r.unsold

def RawSubject.fits : RawSubject → Bool
  | .account f => fieldFits f
  | .lot s n => byteFits s && wordFits n

def RawData.fits : RawData → Bool
  | .none => true
  | .amount f => fieldFits f
  | .counts cs => cs.all (fun c => byteFits c.1 && fieldFits c.2) && decide (cs.length ≤ 255)
  | .dropped n => byteFits n
  | .newHome n => byteFits n
  | .wait t => byteFits t
  | .lot d => d.fits
  | .holder n => byteFits n

def RawAnswer.fits (a : RawAnswer) : Bool := a.subject.fits && byteFits a.code && a.data.fits

def ConfigItem.fits : ConfigItem → Bool
  | .nodeNumber n => byteFits n
  | .role c => byteFits c
  | .ring n => byteFits n
  | .levyRate f => fieldFits f
  | .boatFloor f => fieldFits f
  | .iceTariff f => fieldFits f
  | .gramsPerPulse f => fieldFits f
  | .crateTable rows => rows.all (fun r => fieldFits r.1 && fieldFits r.2) && decide (rows.length ≤ 255)
  | .lineRate n => byteFits n

/-- The longest message is 255 body bytes, 5 before them and 2 of check (section 4.1). -/
def RawLine.fits (w : RawLine) : Bool := w.bytes.length ≤ 262

/-- A scan reads 256 slots, each once, and four calibration pages (R62, R65). -/
def decayFits (ds : List (Nat × Decay)) : Bool := ds.all (fun d => byteFits d.1) && decide ((ds.map (·.1)).Nodup)
def pageFits (n : Nat) : Bool := 1 ≤ n && n ≤ 4

/-- The header of a line arrival. -/
def Instr.header? : Instr → Option Hdr
  | .joinMessage h _ _ _ _ | .clash h _ _ _ | .present h _ _ | .opened h _ | .home h _ | .answer h _ | .hold h _ | .release h _
  | .post h _ | .locate h _ | .claim h _ _ | .lotReport h _ _ _ | .lot h _ => some h
  | _ => none

/-- The operands of a command, its header apart. -/
def Instr.bodyFits : Instr → Bool
  | .startupScanEnd ds ps _ => decayFits ds && ps.all pageFits
  | .configure _ items => items.all ConfigItem.fits && decide (items.length ≤ 250)
  | .readAccount _ f | .remove _ f | .clearFlags _ f | .tare _ f | .calSpan _ f | .batchOpen _ _ f => fieldFits f
  | .readHold _ n e k => byteFits n && wordFits e && wordFits k
  | .readLot _ (.number n) | .readSale _ (.number n) | .collectSale _ n => wordFits n
  | .readOutbound _ (.entry q) | .retry _ q | .discard _ q => byteFits q
  | .readList _ _ p => wordFits p
  | .openAccount _ f l => fieldFits f && l.all fieldFits
  | .adjust _ f g | .calWrite _ f g | .order _ f g _ => fieldFits f && fieldFits g
  | .weigh _ b sp g ty c r => fieldFits b && wordFits sp && byteFits g && byteFits ty && fieldFits c && byteFits r
  | .releaseLot _ n | .reoffer _ n | .delete _ n => wordFits n
  | .start _ p f st t => fieldFits p && fieldFits f && fieldFits st && wordFits t
  | .deskIn _ d b a => byteFits d && fieldFits b && fieldFits a
  | .deskOut _ d => byteFits d
  | .block _ n | .unblock _ n => tagFits n
  | .joinMessage _ r g sn e => byteFits r && byteFits g && serialFits sn && wordFits e
  | .clash _ n j o => byteFits n && serialFits j && serialFits o
  | .present _ r g => byteFits r && byteFits g
  | .opened _ f | .home _ f | .locate _ f => fieldFits f
  | .answer _ a => a.fits
  | .hold _ r => r.fits
  | .release _ r => r.fits
  | .post _ r => r.fits
  | .claim _ sc n | .lotReport _ sc n _ => byteFits sc && wordFits n
  | .lot _ d => d.fits
  | .peerAgeExpiry n => byteFits n
  | .excAnswerTimeout q | .excDeferWaitEnd q | .locateWindowEnd q | .locateSearchDeferEnd q | .localOpeningRetry q => q < 32
  | .holdLifetimeSecond n e k => byteFits n && wordFits e && wordFits k
  | .bookYieldRetry a | .bookStateCommitRetry a => a < 1000000
  | .offerTimer n => wordFits n
  | .queueCommitRetry sc n => byteFits sc && wordFits n
  | .saleRequestRetry n | .saleUpdateRetry n | .lotreportReissue n => wordFits n
  | .tagRead bs => bs.length ≤ 255
  | .portFrameFault f => f.oddBits < 8
  | .lineGarbledMessage w => w.fits
  | .powerOn | .resetnLow | .resetnRelease | .restart _ | .eraseStore _ | .nopStatus _ | .ack _ _ | .mask _ _ | .lock _ | .unlock _
  | .join _ | .leave _ | .leaveTransmissionDrained | .readLot _ .event | .readLot _ .other | .readQueue _ _ | .readSale _ .event
  | .readSale _ .other | .readOutbound _ .capture | .readOutbound _ .other | .readDamaged _ | .readPeers _ | .readReading _ _ | .readCounters _ _ | .zero _ | .calZero _
  | .showLot _ | .halt _ | .resume _ | .withdraw _ | .stop _ | .batchClose _ | .batchCancel _ | .portUnknownCommand _
  | .portFrameTimeout | .lineQuietTime | .contentionLoss | .lineError | .sendComplete
  | .sendQueuePlaceWaiting | .listenIdleWindow | .listenTimeout | .clashWindowEnd | .presentTimer | .excFreePlaceRetry | .excSend
  | .bookQueuePlaceWaiting | .bookTakePost | .bookTakeHold | .bookTakeRelease | .bookTakeLocate | .bookTakeOpened | .bookTakeHome
  | .bookTakeLocalOpening | .bookTakeOpen | .bookTakeAdjust | .bookTakeRemove | .bookTakeClearFlags | .storeListPlacePending
  | .storeTakeRequest | .storeWriteEnd _ | .storeEraseEnd _ | .storeCalPageEnd _ | .storeBackgroundStart | .sampleFrame _ _ _
  | .sampleLossTimeout | .settlingLimit | .lotQueueTakeClaim | .lotQueueTakeLotreport | .lotQueueTakeReleaseLot
  | .lotQueueTakeReoffer | .lotQueueTakeDelete | .clockTick | .lotEndRetry | .deskScan _ | .saleLogRetry | .augerPulse _
  | .emergencyStop | .stallTimer | .coastingEnd | .icmSettleRetry | .poolUpdateRetry | .cgtPostingRetry | .powerLoss
  | .estopnReturnHigh => true

/-- A command can reach the part. -/
def Instr.wf (i : Instr) : Bool :=
  (match i.header? with | some h => h.fits | none => true) && i.bodyFits

end Sys2Proof
end

