-- ==== Sys2Proof/Certificates/Slice0/Obligations.lean ====
section
/-! DEFINITION. The statements for the provers, each of one or several commands or of one calculation. -/

open Sys2Proof Sys2Proof.Machine

/-! ### The machine -/

/-- A step with a command at the front of the queue is that command's `exec` on the state with the rest of the queue. -/
def Obligations.StepTakesFront : Prop :=
  ∀ (c : Instr) (rest : List Instr) (s : State),
    s.pending = c :: rest → step s = exec c { s with pending := rest }

/-- The model's choice (log entry 1): on an empty queue a millisecond passes. Before the hand-over nothing changes; afterwards the timers of
the blocks advance, each to its limit, and nothing else does. -/
def Obligations.EmptyQueueTicks : Prop :=
  ∀ s : State, s.pending = [] →
    (s.sys.phase ≠ .running → step s = .next s) ∧
    (s.sys.phase = .running →
      let down (t : Timer) : Timer := t.map (· - 1)
      step s = .next { s with
        lif := { s.lif with
          listenT := down s.lif.listenT, clashT := down s.lif.clashT, presentT := s.lif.presentT.map fun n => min 10000 (n + 1)
          peers := s.lif.peers.map fun p => { p with age := min 35000 (p.age + 1) } }
        exc := { s.exc with entries := s.exc.entries.map fun e => { e with
          deadline := down e.deadline
          search := e.search.map fun x => match x with
            | .window second homes tens left => .window second homes tens (left - 1)
            | .waiting homes left => .waiting homes (left - 1)
            | .openWait left => .openWait (left - 1)
            | y => y } }
        book := { s.book with
          holds := s.book.holds.map fun h => { h with ms := h.ms + 1 }
          yields := s.book.yields.map fun y => { y with stage := match y.stage with
            | .askWait left => .askWait (left - 1)
            | .reopenWait left => .reopenWait (left - 1)
            | .finishWait fin notify left => .finishWait fin notify (left - 1)
            | x => x } }
        wgu := { s.wgu with
          lossT := down s.wgu.lossT
          weigh := s.wgu.weigh.map fun g => match g.stage with
            | .settling home left => { g with stage := .settling home (left - 1) }
            | _ => g
          lots := s.wgu.lots.map fun l =>
            if s.lif.state = .active ∧ l.state = .offered then { l with offer := l.offer.map fun n => min 15000 (n + 1) } else l }
        clu := { s.clu with
          claims := s.clu.claims.map fun x => { x with retry := down x.retry }
          cleaning := s.clu.cleaning.map fun x => { x with retry := down x.retry }
          tickT := s.clu.tickT.map fun n => min 2000 (n + 1)
          settling := s.clu.settling.map fun x => { x with logRetry := down x.logRetry }
          reqWait := s.clu.reqWait.map fun w => { w with left := w.left - 1 }
          lotEndT := down s.clu.lotEndT
          sales := s.clu.sales.map fun e => { e with
            redo := e.redo.map fun x => { x with left := x.left - 1 }, reissue := down e.reissue } }
        icm := { s.icm with
          stallT := down s.icm.stallT, coastT := down s.icm.coastT, settleT := down s.icm.settleT
          edgeMs := min 5 (s.icm.edgeMs + 1) }
        cgt := { s.cgt with poolT := down s.cgt.poolT, postT := down s.cgt.postT } })

/-- No command touches the commands that wait behind it. -/
def Obligations.ExecKeepsQueue : Prop :=
  ∀ (c : Instr) (s t : State), exec c s = .next t → t.pending = s.pending

/-- Every step keeps the sizes that `WithinSizes` lists: 256 slots (R51), 8 store requests (R54), 24 messages (R76), 4 reserve messages
(R77), 16 entries of the book's queue (R22), 24 holds (R41), 16 home map entries (R107), 8 samples and 16 readings (R114, R118), 8 lot
requests (R133), 32 desks (R149), 32 blocked tags (R183), 128 accounts (R21, R37), 32 outbound entries with the free places (R89), 16 lots
(R131), 12 queued lots with the claims in flight (R140), 32 sales (R145, R159), 62 peers (R84), 64 tags (R186), 8 damaged accounts (R66).
The lots of the table keep different numbers (R129), and the table keeps a place for the lot of a WEIGH in hand (R126). -/
def Obligations.SizesKept : Prop :=
  ∀ s t : State, WithinSizes s → step s = .next t → WithinSizes t

/-- The sizes that `SizesKept` lists hold right after reset. -/
def Obligations.SizesAtReset : Prop := WithinSizes State.reset

/-- What the spec says of the part right after power-on: the LIF OFFLINE with empty queues, no flag latched, every flag enabled, the lock
clear, the port STARTING with the answer NONE, no role in service, the twelve attention flags and ATN quiet, the request lists empty, ADRIVE
inactive, the clock IDLE with the 32 desks OUT and the last winning desk at 32, the hold-number and batch counters at 1 (R64, R83, R92,
R112, R137, R156, R164, R179, R194, R199, R201, R202, R208). (That the free places stand in ascending sequence is the model's choice, log
entry 93.) -/
def Obligations.ResetValues : Prop :=
  State.reset.lif.state = .offline ∧ State.reset.lif.queue = [] ∧ State.reset.lif.reserve = [] ∧ State.reset.lif.peers = [] ∧
  State.reset.port.flags = 0 ∧ State.reset.port.mask = BitVec.allOnes 12 ∧ State.reset.port.lock = false ∧
  portStateCode State.reset = 1 ∧ State.reset.port.buf.code = .none ∧ State.reset.port.role = none ∧
  atnAsserted State.reset.port = false ∧ State.reset.store.list = [] ∧ State.reset.exc.entries = [] ∧
  State.reset.exc.free = List.range 32 ∧ State.reset.exc.holdNo = 1 ∧ State.reset.book.holds = [] ∧ State.reset.book.queue = [] ∧
  State.reset.wgu.weigh = none ∧ State.reset.clu.state = .idle ∧ State.reset.clu.lastWin = 32 ∧
  State.reset.clu.desks.length = 32 ∧ (∀ d ∈ State.reset.clu.desks, d.state = .out) ∧
  State.reset.icm.state = .idle ∧ State.reset.icm.adrive = false ∧ State.reset.cgt.state = .idle ∧ State.reset.cgt.nextBatch = 1

/-! ### Amounts (chapter 1) -/

/-- R4, R5: the signed addition of two magnitudes, digit by digit with the decimal carry or through the ten's complement, is the addition of
integers, in decimal digits and with a zero result positive, whenever the result fits the working width. -/
def Obligations.SignedAdditionIsInteger : Prop :=
  ∀ (w : Nat) (x y : SignMag), x.digs.length = w → y.digs.length = w → (∀ d ∈ x.digs, d ≤ 9) → (∀ d ∈ y.digs, d ≤ 9) →
    (x.value + y.value).natAbs < 10 ^ w →
    (addSigned x y).value = x.value + y.value ∧ (addSigned x y).digs.length = w ∧ (∀ d ∈ (addSigned x y).digs, d ≤ 9) ∧
      (digVal (addSigned x y).digs = 0 → (addSigned x y).neg = false)

/-- R8: decimal long division by a divisor other than zero gives the truncated quotient, one quotient digit of 0 to 9 for each digit of the
dividend, and the remainder that is discarded. Digits are highest first. -/
def Obligations.LongDivisionTruncates : Prop :=
  ∀ (d : Nat) (ds : List Nat), 0 < d → (∀ x ∈ ds, x ≤ 9) →
    let n := ds.foldl (fun a x => 10 * a + x) 0
    (longDiv d ds 0).1.foldl (fun a x => 10 * a + x) 0 = n / d ∧ (longDiv d ds 0).2 = n % d ∧
      (longDiv d ds 0).1.length = ds.length ∧ ∀ q ∈ (longDiv d ds 0).1, q ≤ 9

/-- R2, R72: what a sender packs, a receiver reads: an unsigned field of any digit count, and the signed field of nine digits. -/
def Obligations.PackedRoundTrip : Prop :=
  (∀ n v : Nat, v < 10 ^ n → readUnsigned n (writeUnsigned n v) = some v) ∧
  (∀ v : Int, v.natAbs ≤ 999999999 → readSigned (writeSigned v) = some v)

/-- R9 to R11: the sale amount is within half a cent of net times price over 1,000, a half rounded up; the levy is truncated; the proceeds
and the levy make up the sale amount; the buyer charge is the sale amount with the deposit sum, OVER RANGE above 999,999,999; and within
their ranges the sale amount and the levy keep theirs. -/
def Obligations.SaleFigures : Prop :=
  ∀ net price rate count deposit : Nat,
    let amount := saleAmount net price
    (1000 * amount ≤ net * price + 500 ∧ net * price < 1000 * amount + 500) ∧
    (10000 * levyOf amount rate ≤ amount * rate ∧ amount * rate < 10000 * (levyOf amount rate + 1)) ∧
    (rate ≤ 2000 → proceedsOf amount rate + levyOf amount rate = amount ∧ 5 * levyOf amount rate ≤ amount) ∧
    buyerCharge net price count deposit = amount + count * deposit ∧
    (overRange (buyerCharge net price count deposit) = true ↔ 999999999 < amount + count * deposit) ∧
    (net ≤ 9999999 → price ≤ 99999 → amount ≤ 999989900)

/-- R12 to R14: the ice hold amount is kilograms times tariff; the target of a grant is a whole number of pulses that the granted amount
pays for, and one pulse more would pass the grams purchasable; a grant in full buys the order's grams; and settling exactly the target never
asks for more than was granted. -/
def Obligations.IceFigures : Prop :=
  ∀ kg tariff gpp granted : Nat, 0 < tariff → 0 < gpp →
    iceHoldAmount kg tariff = kg * tariff ∧
    gramsPurchasable (kg * tariff) tariff = kg * 1000 ∧
    (granted ≤ kg * tariff → targetGrams granted tariff gpp ≤ kg * 1000) ∧
    targetGrams granted tariff gpp = targetPulses granted tariff gpp * gpp ∧
    targetGrams granted tariff gpp ≤ gramsPurchasable granted tariff ∧
    gramsPurchasable granted tariff < targetGrams granted tariff gpp + gpp ∧
    (targetPulses granted tariff gpp = 0 ↔ gramsPurchasable granted tariff < gpp) ∧
    iceSettleAmount (targetGrams granted tariff gpp) tariff ≤ granted

/-- R15 and R18: a balance addition stays within plus and minus 999,999,999, sets SATURATED exactly when the sum passes an end and never
clears it; OVERDRAWN is clear at or above the floor, set by an unchecked debit that ends below it, and otherwise as before; every other
field of the record stands. -/
def Obligations.BalanceAddition : Prop :=
  ∀ (k : DebitKind) (change : Int) (a : Account),
    let b := addBalance k change a
    let sum := a.balance + change
    (-999999999 ≤ b.balance ∧ b.balance ≤ 999999999) ∧
    (-999999999 ≤ sum → sum ≤ 999999999 → b.balance = sum ∧ b.saturated = a.saturated) ∧
    (999999999 < sum → b.balance = 999999999 ∧ b.saturated = true) ∧
    (sum < -999999999 → b.balance = -999999999 ∧ b.saturated = true) ∧
    (a.floor ≤ b.balance → b.overdrawn = false) ∧
    (b.balance < a.floor → b.overdrawn = match k with | .unchecked => true | .other => a.overdrawn) ∧
    { b with balance := a.balance, saturated := a.saturated, overdrawn := a.overdrawn } = a

/-- R16, R17 and R19: a grant leaves available funds at or above the floor, is at least 1 cent and at most the amount asked for, and lowers
available funds by what it grants; without accept-less it is all or nothing; with it, a refusal says that not one cent was free. An allowed
checked debit leaves available funds at or above the floor. -/
def Obligations.GrantsAndCheckedDebits : Prop :=
  ∀ (hs : List Hold) (a : Account) (amount : Nat) (less : Bool), 1 ≤ amount →
    (∀ g c, grantAmount hs a amount less = some (g, c) →
      1 ≤ g ∧ g ≤ amount ∧ a.floor ≤ availableFunds hs a - g ∧
      (c = .granted → g = amount) ∧ (c = .grantedLess → less = true ∧ g < amount ∧ availableFunds hs a - g = a.floor) ∧
      (c = .granted ∨ c = .grantedLess) ∧
      ∀ (key : Ident) (life : Nat),
        availableFunds (hs ++ [⟨key, a.number, g, g, life, 0⟩]) a = availableFunds hs a - g) ∧
    (grantAmount hs a amount less = none ↔
      availableFunds hs a - amount < a.floor ∧ (less = true → availableFunds hs a - 1 < a.floor)) ∧
    (debitAllowed hs a amount = true ↔ a.floor ≤ availableFunds hs a - amount) ∧
    (debitAllowed hs a amount = true →
      a.floor + heldFunds hs a.number ≤ a.balance - amount)

/-- R66: after the scan of start-up the CURRENT copy of a record is a candidate with the highest write count, in the lowest-numbered slot
among equals; and a record with a candidate has a CURRENT copy. -/
def Obligations.ScanChoosesNewest : Prop :=
  ∀ (xs : List Slot) (i : Nat) (x : Slot) (c : Copy), xs[i]? = some x → candidate x = some c → x.state ≠ .current →
    let ys := chooseCopies xs
    ((∃ y, ys[i]? = some y ∧ y.state = .current) ↔
      ∀ (j : Nat) (z : Slot) (d : Copy), xs[j]? = some z → candidate z = some d → d.key = c.key →
        d.wc < c.wc ∨ (d.wc = c.wc ∧ i ≤ j))

/-- Section 4.1: the check word of a message makes the check over message and check word come out at zero. -/
def Obligations.CheckWordCloses : Prop :=
  ∀ bs : List Byte, lineCheck (bs ++ beBytes 2 (lineCheck bs).toNat) = 0

/-! ### The Station Port (chapter 10) -/

/-- R198, R64, R208: a port command without supply does nothing; while the port is STARTING it is not executed and its answer is NONE; with
a bad argument length it is refused BAD VALUE; at a node whose role in service is another it is refused WRONG ROLE. A refusal changes
nothing but the port's buffers. (That nothing happens without supply is the model's choice, log entry 48.) -/
def Obligations.PortChecksCommands : Prop :=
  ∀ (i : Instr) (s : State), (argumentOk i).isSome = true →
    (s.sys.phase = .off → exec i s = .next s) ∧
    (s.sys.phase ≠ .off → portStarting s = true → exec i s = .next (unanswered .none s)) ∧
    (Taken s → argumentOk i = some false → exec i s = .next (answered .badValue .none s)) ∧
    (Taken s → argumentOk i = some true → (commandRole i).isSome = true → commandRole i ≠ s.port.role →
      exec i s = .next (answered .wrongRole .none s))

/-- R200: ACK clears every latched flag whose bit is 1 and no other, is answered DONE, and empties the failure capture when it clears
POSTING_FAILED; a bit above bit 11 has it refused BAD VALUE. -/
def Obligations.AckClearsFlags : Prop :=
  ∀ (s : State) (bits : Word16), Taken s →
    (bits.toNat < 4096 → exec (.ack true bits) s = .next (answered .done .none { s with
      port := { s.port with flags := s.port.flags &&& ~~~(bits.setWidth 12) }
      exc := if s.port.flags.getLsbD 6 && bits.getLsbD 6 then { s.exc with capture := none } else s.exc })) ∧
    (4096 ≤ bits.toNat → exec (.ack true bits) s = .next (answered .badValue .none s))

/-- R198, R201, R202: NOP/STATUS is answered DONE and changes nothing; MASK replaces the mask; LOCK sets the lock and UNLOCK clears it in
every state of the lock; ATN is driven low while a latched flag is enabled; the status word shows ATN, the lock, and the latched flags, the
disabled ones as well. While the lock is set, CONFIGURE, CAL ZERO, CAL SPAN, CAL WRITE, ADJUST, REMOVE and ERASE STORE are refused LOCKED,
ERASE STORE in every line state; start-up leaves it clear. (That a field out of its range is refused BAD VALUE before the lock is looked at
is the model's order, log entry 46.) -/
def Obligations.MaskAndLock : Prop :=
  ∀ (s : State) (bits : Word16), Taken s →
    exec (.nopStatus true) s = .next (answered .done .none s) ∧
    exec (.lock true) s = .next (answered .done .none { s with port := { s.port with lock := true } }) ∧
    exec (.unlock true) s = .next (answered .done .none { s with port := { s.port with lock := false } }) ∧
    (bits.toNat < 4096 →
      exec (.mask true bits) s = .next (answered .done .none { s with port := { s.port with mask := bits.setWidth 12 } })) ∧
    (4096 ≤ bits.toNat → exec (.mask true bits) s = .next (answered .badValue .none s)) ∧
    (atnAsserted s.port = true ↔ ∃ i, i < 12 ∧ s.port.flags.getLsbD i = true ∧ s.port.mask.getLsbD i = true) ∧
    (∀ f : PortFault,
      (statusWord s f).getLsbD 25 = atnAsserted s.port ∧ (statusWord s f).getLsbD 27 = s.port.lock ∧
      ∀ i, i < 12 → (statusWord s f).getLsbD i = s.port.flags.getLsbD i) ∧
    (∀ c, (beginStartUp c s).port.lock = false) ∧
    (s.port.lock = true →
      (∀ items, (readConfig items).isSome = true → exec (.configure true items) s = .next (answered .locked .none s)) ∧
      (∀ acct amount, (readAdjust acct amount).isSome = true →
        exec (.adjust true acct amount) s = .next (answered .locked .none s)) ∧
      (∀ acct, (readAccountNo acct).isSome = true → exec (.remove true acct) s = .next (answered .locked .none s)) ∧
      exec (.eraseStore true) s = .next (answered .locked .none s) ∧
      (s.port.role = some .scale →
        exec (.calZero true) s = .next (answered .locked .none s) ∧
        (∀ g, (inRange 1000 9999999 (readWeight g)).isSome = true →
          exec (.calSpan true g) s = .next (answered .locked .none s)) ∧
        ∀ d c, exec (.calWrite true d c) s = .next (answered .locked .none s)))

/-- R203 and the owners' rules: each read answers from the working copies, with the record, table or counters asked for, and changes
nothing; READ LIST answers with as many whole entries of its collection as fit from a position on, and the position after the last, or END;
a selection that holds nothing is answered with its own code; COLLECT SALE shows its sale as it stands and has a sale that is not collected
yet committed as collected. (That a number out of its range is looked for and not found is the model's choice, log entry 59, and the figures
and the price that READ QUEUE shows are its reading of the rules, log entry 44; so are BAD VALUE for a selection or a collection that R203
does not list and the bytes that an entry and the position take, log entry 6, and the code DONE beside data, log entry 82.) -/
def Obligations.ReadsAnswer : Prop :=
  ∀ s : State, Taken s →
    (∀ f a, readAccountNo f = some a →
      (∀ acc, accountOf s a = some acc → exec (.readAccount true f) s = .next (answered .done (.account acc) s)) ∧
      (accountOf s a = none → exec (.readAccount true f) s = .next (answered .noAccount .none s))) ∧
    (∀ f, readAccountNo f = none → exec (.readAccount true f) s = .next (answered .badValue .none s)) ∧
    (∀ n e k h, findHold s.book.holds ⟨n, e, k⟩ = some h → exec (.readHold true n e k) s = .next (answered .done (.hold h) s)) ∧
    (∀ q e, findEntry s q = some e → exec (.readOutbound true (.entry q)) s = .next (answered .done (.entry e) s)) ∧
    exec (.readOutbound true .capture) s = .next (answered .done (.capture s.exc.capture) s) ∧
    exec (.readDamaged true) s = .next (answered .done (.damaged s.store.damaged s.store.damagedMore) s) ∧
    exec (.readPeers true) s =
      .next (answered .done (.peers (s.lif.peers.map fun p => (p.node, p.role, p.ring, p.age / 1000))) s) ∧
    exec (.readCounters true .port) s =
      .next (answered .done (.port s.port.cnt s.port.cause s.port.mask s.port.flags s.port.lock) s) ∧
    exec (.readCounters true .line) s = .next (answered .done (.line s.lif.state s.lif.lastJoin s.lif.rate s.lif.cnt) s) ∧
    exec (.readCounters true .book) s = .next (answered .done (.book s.book.cnt s.book.result) s) ∧
    exec (.readCounters true .configuration) s =
      .next (answered .done (.configuration s.port.cfg s.port.staged s.node.number s.port.role) s) ∧
    (s.port.role = none → exec (.readCounters true .role) s = .next (answered .wrongRole .none s)) ∧
    exec (.readCounters true .other) s = .next (answered .badValue .none s) ∧
    exec (.readOutbound true .other) s = .next (answered .badValue .none s) ∧
    (∀ pos, exec (.readList true .other pos) s = .next (answered .badValue .none s)) ∧
    (let slots (x : SlotState) : Nat := (s.store.slots.filter fun y => y.state == x).length
     exec (.readCounters true .store) s = .next (answered .done (.store s.store.cnt
       [slots .free, slots .current, slots .dirty, slots .retired] (calCount s.store)
       (if s.store.serialOk then s.store.serial else 0) s.sys.epoch s.sys.epochState) s)) ∧
    (let entries (x : EntryState) : Nat := (s.exc.entries.filter fun e => e.state == x).length
     exec (.readCounters true .exchange) s = .next (answered .done (.exchange s.exc.cnt
       [entries .unresolved, entries .queued, entries .sent, entries .deferred, entries .doneToUnit, entries .failed]
       s.node.nextPosting s.exc.holdNo) s)) ∧
    (let roleCounters (r : Role) (d : PData) : Prop :=
       s.port.role = some r → exec (.readCounters true .role) s = .next (answered .done d s)
     roleCounters .scale (.scale s.wgu.cnt s.wgu.ctr (calCount s.store)) ∧ roleCounters .clock (.clockCounters s.clu.cnt) ∧
     roleCounters .ice (.ice s.icm.cnt) ∧ roleCounters .gate (.gate s.cgt.cnt s.node.pool s.cgt.pend)) ∧
    (let lists (α : Type) (c : Collection) (l : List α) (mk : List α → ListData) : Prop := ∀ pos, ∃ n,
       exec (.readList true c pos) s = .next (answered .done
         (.list (mk ((l.drop pos).take n)) (if pos + n < l.length then some (pos + n) else none)) s) ∧
       let sizes := (mk (l.drop pos)).entries.map List.length
       (sizes.take n).sum ≤ 247 ∧ (n < sizes.length → 247 < (sizes.take (n + 1)).sum)
     let wrongRole (c : Collection) : Prop := ∀ pos, exec (.readList true c pos) s = .next (answered .wrongRole .none s)
     lists Account .accounts s.book.accounts .accounts ∧ lists Hold .holds s.book.holds .holds ∧
     lists Entry .outbound s.exc.entries .outbound ∧ lists (Nat × Nat) .homeMap s.exc.homeMap .homeMap ∧
     lists (Nat × Option Role × Nat × Nat) .peers (s.lif.peers.map fun p => (p.node, p.role, p.ring, p.age / 1000)) .peers ∧
     (s.port.role = some .scale → lists Lot .lots s.wgu.lots .lots) ∧
     (s.port.role = some .clock → lists LotId .claims (s.clu.claims.map (·.lot)) .claims ∧
       lists SaleRec .sales (s.clu.sales.map (·.entry)) .sales ∧ lists Desk .desks s.clu.desks .desks) ∧
     (s.port.role = some .gate → lists Nat .blocked s.cgt.blocked .blocked ∧
       lists (Nat × Nat) .tags (match s.cgt.batch with | some b => b.tags | none => []) .tags) ∧
     (s.port.role ≠ some .scale → wrongRole .lots) ∧
     (s.port.role ≠ some .clock → wrongRole .claims ∧ wrongRole .sales ∧ wrongRole .desks) ∧
     (s.port.role ≠ some .gate → wrongRole .blocked ∧ wrongRole .tags)) ∧
    (s.port.role = some .scale →
      (∀ n l, findLot s n = some l → exec (.readLot true (.number n)) s = .next (answered .done (.lot l) s)) ∧
      (∀ n, findLot s n = none → exec (.readLot true (.number n)) s = .next (answered .noLot .none s)) ∧
      exec (.readLot true .event) s = .next (answered .done (.lotEvent s.wgu.lotEvent) s)) ∧
    (s.port.role = some .clock →
      exec (.readQueue true .clock) s = .next (answered .done
        (.clock s.clu.state (shownPrice s.clu) (headLot s) s.clu.figs s.clu.queue s.clu.claims.length) s) ∧
      exec (.readQueue true .event) s = .next (answered .done (.clockEvent s.clu.lotEvent) s) ∧
      exec (.readSale true .event) s = .next (answered .done (.saleEvent s.clu.saleEvent) s) ∧
      (∀ n, findSale s n = none → exec (.collectSale true n) s = .next (answered .noSale .none s)) ∧
      ∀ n e, findSale s n = some e →
        exec (.readSale true (.number n)) s = .next (answered .done (.sale e.entry) s) ∧
        (e.entry.collected = true → exec (.collectSale true n) s = .next (answered .done (.sale e.entry) s)) ∧
        (e.entry.collected = false → listRoom s = true →
          exec (.collectSale true n) s = .next (answered .done (.sale e.entry) { s with store := { s.store with
            list := s.store.list ++ [⟨.sale n .collected, .group [.saleUpdate n .collected]⟩] } })))

/-- R125, R177, R192, R205: READ READING at a scale shows the offered reading and begins its hold; a frame that comes when one is held ends
that hold, and the waiting reading becomes the offered one. At an ice node it shows the order, with the fields of the meter from DISPENSING
on, at a gate the batch; without a role it is refused WRONG ROLE. (That a CLOCK, which has no reading, refuses it WRONG ROLE is read from
the rules, log entry 43; BAD VALUE for a selection that R203 does not list is its choice, log entry 6, and so is the code DONE beside a
read's data, log entry 82.) -/
def Obligations.ReadReadingHolds : Prop :=
  ∀ s : State, Taken s →
    (s.port.role = some .scale →
      let t := answered .done (.reading (readEnded s.wgu).offered (pageInForce s.store)) s
      exec (.readReading true .live) s = .next { t with wgu := { t.wgu with reading := true } }) ∧
    (s.wgu.reading = true → ∃ t, exec (.nopStatus true) s = .next t ∧ t.port.sent = s.port.buf ∧
      t.wgu = { s.wgu with reading := false, offered := s.wgu.waiting.getD s.wgu.offered, waiting := none }) ∧
    (s.port.role = some .ice →
      (s.icm.order = none → exec (.readReading true .live) s = .next (answered .done (.order s.icm.state none) s)) ∧
      ∀ o, s.icm.order = some o →
        ∃ x, exec (.readReading true .live) s = .next (answered .done (.order s.icm.state (some x)) s) ∧
          x.account = o.account ∧ x.kg = o.kg ∧ x.tariff = o.tariff ∧ x.gpp = o.gpp ∧ x.key = o.key ∧ x.settle = o.settle ∧
          (o.metered = true → x.auger = some o.augerOn ∧ x.pulses = some o.pulses ∧ x.grams = some (o.pulses * o.gpp) ∧
            x.checkpoint = some o.checkpoint) ∧
          (o.metered = false → x.auger = none ∧ x.pulses = none ∧ x.grams = none ∧ x.checkpoint = none)) ∧
    (s.port.role = some .ice → exec (.readReading true .late) s = .next (answered .done (.lateSettle s.icm.late) s)) ∧
    (s.port.role = some .gate → exec (.readReading true .live) s = .next (answered .done (.batch s.cgt.state s.cgt.batch) s)) ∧
    (s.port.role = some .gate → exec (.readReading true .result) s = .next (answered .done (.batchResult s.cgt.result) s)) ∧
    (s.port.role = none ∨ s.port.role = some .clock →
      ∀ sel, exec (.readReading true sel) s = .next (answered .wrongRole .none s)) ∧
    (s.port.role.isSome = true → s.port.role ≠ some .clock →
      exec (.readReading true .other) s = .next (answered .badValue .none s))

/-- R204, R205, R137, R164, R179, R194: a good CONFIGURE past the lock is refused NUMBER FIXED or ROLE FIXED, and otherwise is applied at
once while the LIF is OFFLINE, its fields leaving the staged ones, and staged in every other line state. The first role applied comes into
service: a SCALE takes its lots from the LOT records; a CLOCK its queue and its sale log, an update of the QUEUE record being placed for
each queued lot that was sold, which stays in the working queue until that update is written (R56); of a restored sale, a PENDING part whose
entry was restored goes on, one that was never posted is asked for, one that was posted and is gone becomes FAILED and is counted unsettled,
and a collected sale with no PENDING part has its removal placed; an ICE settles the order of its ICE ORDER record at the checkpoint, or
drops the record when its SETTLE stands already; a GATE starts empty. (That a queued lot found sold is passed over meanwhile, and its update
placed again when it fails, is the model's reading, log entry 28. That a restored lot has NO RING clear is its choice, log entry 86; so are
that a restored sale whose LOTREPORT part stands FAILED is asked for nothing, log entry 87, and the counted pulses and the auger that a
restored order shows, log entry 97, that NUMBER FIXED comes before ROLE FIXED, log entry 99, and when SALE_EVENT is raised for a part that
becomes FAILED, log entry 114.) -/
def Obligations.ConfigureAppliesOrStages : Prop :=
  ∀ (s : State) (items : List ConfigItem) (c : Cfg), Taken s → readConfig items = some c → s.port.lock = false →
    (numberFixed s c = true → exec (.configure true items) s = .next (answered .numberFixed .none s)) ∧
    (numberFixed s c = false → roleFixed s c = true → exec (.configure true items) s = .next (answered .roleFixed .none s)) ∧
    (numberFixed s c = false → roleFixed s c = false →
          (s.lif.state = .offline → s.port.role.isSome = true → exec (.configure true items) s =
            .next (answered .done .none { s with port := { s.port with
              cfg := s.port.cfg.update c, staged := s.port.staged.without c } })) ∧
          (s.lif.state = .offline → s.port.role = none →
            let served (r : Role) : State := { s with port := { s.port with
              cfg := s.port.cfg.update c, staged := s.port.staged.without c, role := some r } }
            ((s.port.cfg.update c).role = some .gate → exec (.configure true items) s = .next (answered .done .none (served .gate))) ∧
            ((s.port.cfg.update c).role = some .scale →
              ∃ lots, exec (.configure true items) s =
                  .next (answered .done .none { served .scale with wgu := { s.wgu with lots := lots } }) ∧
                ∀ l, .lot l ∈ currentBodies s.store → (∀ x, .lot x ∈ currentBodies s.store → x.number = l.number → x = l) →
                  ((currentBodies s.store).filter fun b => b matches .lot _).length ≤ 16 →
                  lots.find? (fun x => x.number == l.number) =
                    some { l with noRing := false, offer := if l.state = .offered then some 0 else none }) ∧
            ((s.port.cfg.update c).role = some .clock →
              (∀ e ∈ restoredSales s, e.entry.drawPart ≠ .pending ∧ e.entry.salePart ≠ .pending ∧ e.entry.reportPart ≠ .pending ∧
                e.entry.collected = false) →
              let clu (sold : List LotId) : Clu := { s.clu with
                queue := restoredQueue s, claims := [], cleaning := sold.map fun id => { lot := id }
                sales := restoredSales s, released := List.replicate 32 0 }
              (soldLots (restoredQueue s) (restoredSales s) = [] → exec (.configure true items) s =
                .next (answered .done .none { served .clock with clu := clu [] })) ∧
              ∀ id, soldLots (restoredQueue s) (restoredSales s) = [id] → ListOpen s → exec (.configure true items) s =
                .next (answered .done .none (listed ⟨.queueClean id, .group [.queue (.drop id)]⟩ { served .clock with
                  clu := clu [id] }))) ∧
            (∀ r, (s.port.cfg.update c).role = some .clock → restoredSales s = [{ entry := r }] →
              soldLots (restoredQueue s) (restoredSales s) = [] →
              let back (e : Sale) : State := { served .clock with clu := { s.clu with
                queue := restoredQueue s, claims := [], cleaning := [], sales := [e], released := List.replicate 32 0 } }
              let leaves (t : State) : Prop := exec (.configure true items) s = .next (answered .done .none t)
              let stands (p : SalePart) : Prop := ∃ x ∈ s.exc.entries, x.ref = .salePart r.number p
              let settled (p : SalePart) : Prop := partState r p ≠ .pending ∨ stands p
              ((∀ p, settled p) → (∃ p, partState r p = .pending) ∨ r.collected = false → leaves (back { entry := r })) ∧
              ((∀ p, partState r p ≠ .pending) → r.collected = true → ListOpen s →
                leaves (listed ⟨.saleRemove r.number, .removal (.sale r.number)⟩ (back { entry := r, removing := true }))) ∧
              ∀ p, partState r p = .pending → ¬ stands p → (∀ x, x ≠ p → settled x) →
                (∀ q qs, p = .report → PlaceOpen q qs s →
                  leaves (entryMade q qs (reportItem r.lot true (.salePart r.number .report)) (back { entry := r }))) ∧
                (r.posted = false → PostReady s → ListOpen s →
                  (p = .draw → leaves (postAsked (.salePart r.number .draw)
                    ⟨default, .draw, r.buyer, r.charge, saleItems r, some (r.key.epoch, r.key.number), none⟩ r.buyerHome (back { entry := r }))) ∧
                  (p = .sale → leaves (postAsked (.salePart r.number .sale)
                    ⟨default, .sale, r.boat, r.proceeds, saleItems r, none, none⟩ r.boatHome (back { entry := r })))) ∧
                (r.posted = true → p ≠ .report → ListOpen s →
                  let failed : SaleChange := .part p .failed none none
                  let t := listed ⟨.sale r.number failed, .group [.saleUpdate r.number failed]⟩ (back (noteUpdate failed { entry := r }))
                  leaves (flagged .saleEvent { t with clu := { t.clu with
                    saleEvent := some (r.number, .part p .failed), cnt := { s.clu.cnt with unsettled := bump s.clu.cnt.unsettled } } }))) ∧
            ((s.port.cfg.update c).role = some .ice →
              (restoredOrder s = none → exec (.configure true items) s =
                .next (answered .done .none { served .ice with icm := { s.icm with edgeMs := 0 } })) ∧
              ∀ o k h, restoredOrder s = some o → o.key = some k → o.home = some h → ListOpen s →
                let amount := iceSettleAmount (o.checkpoint * o.gpp) o.tariff
                ((∃ e ∈ s.exc.entries, e.ref = .settle k) → exec (.configure true items) s =
                  .next (answered .done .none (listed ⟨.iceRemove, .removal .iceOrder⟩ { served .ice with
                    icm := { result := s.icm.result, late := s.icm.late, edgeMs := 0
                             cnt := { s.icm.cnt with restored := bump s.icm.cnt.restored } } }))) ∧
                ((∀ e ∈ s.exc.entries, e.ref ≠ .settle k) → PostReady s → exec (.configure true items) s =
                  .next (answered .done .none (postAsked (.settle k)
                    ⟨default, .settle, o.account, amount, [], some (k.epoch, k.number), none⟩ h { served .ice with
                      icm := { s.icm with
                        state := .settling, restoring := true, closed := true, ckPlaced := o.checkpoint, edgeMs := 0
                        order := some { o with
                          metered := true, pulses := o.checkpoint, augerOn := false, settle := some amount } } }))))) ∧
          (s.lif.state ≠ .offline → exec (.configure true items) s =
            .next (answered .staged .none { s with port := { s.port with staged := s.port.staged.update c } })))

/-- R196, R197, R198, R203, R207: a frame sends the answer buffer as it stands, its check last and bytes of 0 after it, with at most 250
data bytes. A frame is faulted TIMEOUT when it is late, LENGTH when the command or the answer's check is not whole or a byte is begun, CHECK
when the check received is not that of bytes 0 to 1 + N, in that order; it executes nothing, is answered NONE with its fault, and is counted
under it. A complete frame with a good check is the command of its code, whatever bytes follow; the codes are 1 to 51, NOP/STATUS the first
and UNBLOCK the last, and any other code is refused UNKNOWN COMMAND. (That a faulted frame takes FRESH away is the model's reading, log
entry 50; that the row for a faulted frame does nothing with a frame that has none is its choice, log entry 53, and so are the layout of a
command's arguments, log entry 63, and that of the answer's data, log entry 6.) -/
def Obligations.FaultyFrames : Prop :=
  (∀ (a : PAnswer) (n : Nat),
    a.data.bytes.length ≤ 250 ∧ a.bytes.length = 8 + a.data.bytes.length ∧
    (a.bytes[5]?).map (·.toNat) = some a.data.bytes.length ∧ (a.bytes.drop 6).take a.data.bytes.length = a.data.bytes ∧
    lineCheck a.bytes = 0 ∧ (a.sent n).length = n ∧ (a.sent n).take a.bytes.length = a.bytes.take n ∧
    ∀ b ∈ (a.sent n).drop a.bytes.length, b = 0) ∧
  (∀ code args, (readCommand code args).isSome = true ↔ 1 ≤ code.toNat ∧ code.toNat ≤ 51) ∧
  (∀ args : List Byte, readCommand 1 args = some (.nopStatus (args.length == 0)) ∧
    (∀ x y z : Byte, readCommand 51 [x, y, z] = some (.unblock true (65536 * x.toNat + 256 * y.toNat + z.toNat)))) ∧
  ∀ s : State,
    (s.sys.phase ≠ .off →
      let check := faulted .check { s with port := { s.port with cnt := { s.port.cnt with check := min 65535 (s.port.cnt.check + 1) } } }
      let length := faulted .length { s with port := { s.port with cnt := { s.port.cnt with length := min 65535 (s.port.cnt.length + 1) } } }
      let late := faulted .timeout { s with port := { s.port with cnt := { s.port.cnt with timeout := min 65535 (s.port.cnt.timeout + 1) } } }
      exec .portFrameTimeout s = .next late ∧
      (∀ f, f.late = true → exec (.portFrameFault f) s = .next late) ∧
      (∀ f, f.late = false → f.oddBits ≠ 0 ∨ f.pdi.length < 4 ∨ f.pdi.length < s.port.buf.bytes.length ∨
          (∃ c n rest, f.pdi = c :: n :: rest ∧ rest.length < n.toNat + 2) →
        exec (.portFrameFault f) s = .next length) ∧
      (∀ (c n x y : Byte) (args more : List Byte), args.length = n.toNat →
        s.port.buf.bytes.length ≤ (c :: n :: args ++ x :: y :: more).length →
        [x, y] ≠ beBytes 2 (lineCheck (c :: n :: args)).toNat →
        exec (.portFrameFault ⟨c :: n :: args ++ x :: y :: more, 0, false⟩) s = .next check)) ∧
    (∀ (c : Byte) (args more : List Byte), args.length ≤ 250 →
      s.port.buf.bytes.length ≤ (commandBytes c args ++ more).length →
      let f : RawFrame := ⟨commandBytes c args ++ more, 0, false⟩
      exec (.portFrameFault f) s = .next s ∧
      (∀ i, readCommand c args = some i → step (s.withFrame f) = exec i s) ∧
      (readCommand c args = none → step (s.withFrame f) = exec (.portUnknownCommand c) s)) ∧
    (Taken s → ∀ code : Byte, (code.toNat = 0 ∨ 51 < code.toNat) →
      exec (.portUnknownCommand code) s = .next (answered .unknownCommand .none s))

/-! ### Supply, start-up and erasure (chapter 3) -/

/-- R64, R83, R208: power-on, the reset pin and RESTART begin start-up with their own start cause, RESETN holding it at its beginning until
it returns high; losing the supply leaves a part that holds nothing outside the store; and an operation in progress is abandoned, so that
the slot being written afterwards holds what it held, nothing readable, or the whole copy. (POWER_ON at a part that has power is the model's
choice, log entry 38, and so are the form of a cut-off operation, log entry 5, and the values of the working fields before the epoch
advance, epoch 0 and NOT TAKEN among them, log entry 4.) -/
def Obligations.StartUpBegins : Prop :=
  ∀ s : State,
    (s.store.op = none → s.sys.resetLow = false →
      ∃ t, exec .powerOn s = .next t ∧ StartedUp .power .scanning s.store.slots s t ∧ t.store.pages = s.store.pages) ∧
    (s.store.op = none → s.sys.phase ≠ .off →
      ∃ t, exec .resetnLow s = .next t ∧
        StartedUp .pin .held s.store.slots { s with sys := { s.sys with resetLow := true } } t ∧ t.store.pages = s.store.pages) ∧
    (exec .resetnRelease s = .next { s with sys := { s.sys with
      resetLow := false, phase := if s.sys.phase = .held then .scanning else s.sys.phase } }) ∧
    (s.store.op = none → Taken s → s.sys.resetLow = false →
      ∃ t, exec (.restart true) s = .next t ∧ StartedUp .restart .scanning s.store.slots s t ∧ t.store.pages = s.store.pages) ∧
    (s.sys.phase ≠ .off → ∀ i c n x, s.store.op = some (.write i c n) → s.store.slots[i]? = some x →
      ∃ t slots y, exec .powerLoss s = .next t ∧ StartedUp .power .off slots s t ∧ t.store.pages = s.store.pages ∧
        slots[i]? = some y ∧ (∀ j, j ≠ i → slots[j]? = s.store.slots[j]?) ∧
        (y = x ∨ y = { x with data := .torn } ∨ y = { x with data := .copy c true false }))

/-- R51, R62, R65 to R69, R49, R112, R201: at the end of the slot scan the copies chosen are CURRENT, the account table and the watermarks
are rebuilt from them, the NODE record is taken, and an epoch one above the greatest found is put to a commit of the NODE record; past the
last epoch start-up hands over with the epoch EXHAUSTED. A part of a slot that needs a correction leaves the copy readable, one that cannot
be corrected does not; one of the four calibration pages that cannot be corrected, written or not, is spent and counts as written, as one
whose bad mark is written does, and raises STORE_EVENT unless that mark is written. When the commit ends DONE the part runs with the new
epoch IN USE, and when it fails with the epoch NOT TAKEN and STORE_EVENT. (That a marked page raises nothing is the model's choice, log
entry 92, and that the scan writes no mark, log entry 102; that an erased slot with a decayed byte reads as torn is its reading, log entry
101.) The hand-over makes the port FRESH, latches what start-up raised, and DAMAGED; hands the unit serial to the LIF, the epoch to the CGT
and the calibration to the WGU; restores the OUTBOUND records as QUEUED entries in identity order, but for one that another has replaced;
and leaves a YIELDING record with its TRANSFER, or has it committed as OPEN when it has none. (That the greatest epoch found stays in force
when the epoch is EXHAUSTED is the model's reading, log entry 68; that the places left free stand in ascending sequence is its choice, log
entry 93.) -/
def Obligations.ScanRebuilds : Prop :=
  (∀ (s : State) (ds : List (Nat × Decay)) (pages : List Nat) (idBad : Bool),
    let st := scanStore ds pages idBad s.store
    (∀ i x c k d, s.store.slots[i]? = some x → x.retired = false → ds.find? (fun p => p.1 == i) = some (i, d) →
      (x.data = .copy c true k → (st.slots[i]?).map (·.data) = some
        (if d.header = .uncorrectable then .torn
         else if d.body = .uncorrectable then .copy c false false
         else .copy c true (d.header == .corrected || d.body == .corrected))) ∧
      (x.data = .erased → d.header ≠ .clean ∨ d.body ≠ .clean → (st.slots[i]?).map (·.data) = some .torn)) ∧
    (s.sys.phase = .scanning →
      (s.store.erasing = none → s.store.list = [] → s.store.pend = [] → greatestEpoch st < 65534 →
        let late := s.sys.lateFlags ||| (if pageFails pages s.store then flagBit .storeEvent else 0)
        exec (.startupScanEnd ds pages idBad) s = .next { s with
          sys := { s.sys with phase := .epochCommit, epoch := greatestEpoch st, lateFlags := late }
          store := { st with list := [⟨.startEpoch (greatestEpoch st + 1), .group [.node (.startEpoch (greatestEpoch st + 1))]⟩] }
          book := { s.book with accounts := restoredAccounts st, marks := rebuildMarks st (restoredAccounts st) }
          node := restoredNode st }) ∧
      (65534 ≤ greatestEpoch st → ∃ t, exec (.startupScanEnd ds pages idBad) s = .next t ∧
        t.sys.phase = .running ∧ t.sys.epochState = .exhausted ∧ t.sys.epoch = greatestEpoch st ∧ t.port.fresh = true)) ∧
    (pageFails pages s.store = true ↔ ∃ n ∈ pages, 1 ≤ n ∧ n ≤ 4 ∧ ∀ p, s.store.pages[n - 1]? = some p → p.marked = false) ∧
    (∀ i p, s.store.pages[i]? = some p → ∃ q, st.pages[i]? = some q ∧ q.fields = p.fields ∧
      q.spent = (p.marked || pages.contains (i + 1)) ∧ q.taken = (p.fields.isSome || p.marked || pages.contains (i + 1)))) ∧
  (∀ (s : State) (e : Nat),
    let os := outRecords s.store
    let entry (seq : Nat) (o : OutRec) : Entry :=
      { seq := seq, body := .post o.posting, ref := o.ref, account := some o.posting.account, dest := some o.dest
        openIfNone := false, sends := 0, deferrals := 0, moves := 0, deadline := none, last := none, state := .queued
        search := none, fromMap := false, committing := false, reident := none, removing := false, replaced := o.replaced, tok := 0 }
    let running (epoch : Nat) (st : EpochState) (flags : BitVec 12) (es : List Entry) : State := { s with
      sys := { s.sys with phase := .running, epoch := epoch, epochState := st, lateFlags := 0 }
      port := { s.port with
        flags := s.port.flags ||| s.sys.lateFlags ||| flags ||| (if somethingDamaged s.store then flagBit .damaged else 0)
        fresh := true }
      lif := { s.lif with serial := if s.store.serialOk then s.store.serial else 0 }
      exc := { s.exc with entries := es, free := List.range' es.length (32 - es.length) }
      wgu := match calInForce s.store with
        | some f => { s.wgu with zero := f.zero, offered := { noReading := true } }
        | none => s.wgu
      cgt := { s.cgt with startEpoch := epoch } }
    s.sys.phase = .epochCommit →
      ((∀ a ∈ s.book.accounts, a.state ≠ .yielding) → (∀ o ∈ os, outDropped s.book.accounts os o = false) → os.length ≤ 32 →
        storeOutcome (.startEpoch e) .done s = running e .inUse 0 (os.mapIdx entry) ∧
        ∀ r, r ≠ .done → storeOutcome (.startEpoch e) r s = running s.sys.epoch .notTaken (flagBit .storeEvent) (os.mapIdx entry)) ∧
      (∀ o p, (∀ a ∈ s.book.accounts, a.state ≠ .yielding) → os = [o, p] → p.replaced = some o.posting.id →
        p.replaced ≠ some p.posting.id → o.replaced = none → p.posting.kind ≠ .transfer → ListOpen s →
        storeOutcome (.startEpoch e) .done s =
          listed ⟨.outRemoval o.posting.id, .removal (.outbound o.posting.id.epoch o.posting.id.number)⟩
            (running e .inUse 0 [entry 0 p])) ∧
      (∀ a, s.book.accounts = [a] → a.state = .yielding → s.book.yields = [] →
        (os = [] → ListOpen s →
          (storeOutcome (.startEpoch e) .done s).store.list =
            s.store.list ++ [⟨.bookState a.number, .group [.account a.number (.setState .opened)]⟩] ∧
          (storeOutcome (.startEpoch e) .done s).book.yields = [⟨a.number, 0, .finishing .opened true⟩]) ∧
        (∀ o, os = [o] → o.ref = .transfer a.number → o.posting.kind = .transfer → o.posting.account = a.number →
          o.replaced = none →
          (storeOutcome (.startEpoch e) .done s).exc.entries = [entry 0 o] ∧
          (storeOutcome (.startEpoch e) .done s).book = { s.book with yields := [⟨a.number, o.dest, .running⟩] })))

/-- R70, R202: an unlocked ERASE STORE of an OFFLINE node is ACCEPTED: every request is discarded, and with no operation in progress the
lowest-numbered slot that is not RETIRED begins to be erased and counts as DIRTY (R52); in any other line state it is refused NOT OFFLINE.
From then on the port is STARTING (R208), and the status word of the ACCEPTED answer shows it already, which is the model's reading, log
entry 49. -/
def Obligations.EraseStoreBegins : Prop :=
  ∀ (s : State) (j : Nat), Taken s → s.port.lock = false →
    (s.lif.state ≠ .offline → exec (.eraseStore true) s = .next (answered .notOffline .none s)) ∧
    (s.lif.state = .offline → s.store.op = none → findSlot (fun x => x.state != .retired) s.store.slots 0 = some j →
      ∃ t, exec (.eraseStore true) s = .next t ∧ t.port.buf.code = .accepted ∧ portStateCode t = 1 ∧
        (t.port.buf.status).extractLsb' 30 2 = 1 ∧
        t = { s with
          port := { s.port with buf := t.port.buf, sent := s.port.buf, fresh := false }
          wgu := readEnded s.wgu
          store := { s.store with list := [], pend := [], cur := none, listed := false, idx := 0, refresh := []
                                  slots := s.store.slots.modify j fun x => { x with state := .dirty }
                                  erasing := some j, op := some (.erase j .erasure 1) } })

/-! ### The hall line (chapter 4) -/

/-- R78, R79, R206: an accepted JOIN of a node whose number is fixed puts the LIF into LISTEN with the configured rate and its 2,000 ms
timer; without a fixed number the number's commit comes first. A staged configuration is applied before the JOIN is judged (R205). 20 ms of
idle line lead to ANNOUNCE with a JOIN in the send queue, 2,000 ms without to LINE FAULT; the end of the clash window makes the node ACTIVE,
and the requests of the EXC that become ready at that moment, a LOCATE of an entry resolved afresh among them, are placed in sequence order
(R95, R111), the OPENED notices that start-up left waiting are placed (R49), and at a SCALE so is the LOT notice of every OFFERED lot
(R132). A JOIN while the number's commit runs takes the configured rate and nothing else (log entry 52), an unset rate is no refusal (log
entry 69), and these requests are placed in the same step (log entry 90): these three are the model's choices. -/
def Obligations.JoinTowardsActive : Prop :=
  ∀ s : State, s.sys.phase = .running →
    (Taken s → s.lif.state ≠ .offline → exec (.join true) s = .next (answered .notOffline .none s)) ∧
    (let u : State := { s with port := { s.port with cfg := s.port.cfg.update s.port.staged, staged := {} } }
     Taken s → s.lif.state = .offline → s.port.role.isSome = true ∨ u.port.cfg.role = none →
      (∀ c, joinRefusal u = some c → exec (.join true) s = .next (answered c .none u)) ∧
      (joinRefusal u = none → s.lif.numbering = false → s.node.number ≠ 0 → exec (.join true) s =
        .next (answered .accepted .none { u with
          lif := { s.lif with state := .listen, listenT := some 2000, rate := u.port.cfg.lineRate
                              cnt := { s.lif.cnt with consecErrors := 0 } }
          port := { u.port with flags := s.port.flags ||| flagBit .lineState } })) ∧
      (joinRefusal u = none → s.lif.numbering = false → s.node.number = 0 → listRoom s = true → exec (.join true) s =
        .next (answered .accepted .none { u with
          lif := { s.lif with numbering := true, rate := u.port.cfg.lineRate, cnt := { s.lif.cnt with consecErrors := 0 } }
          store := { s.store with
            list := s.store.list ++ [⟨.number, .group [.node (.number (u.port.cfg.nodeNumber.getD 0))]⟩] } })) ∧
      (joinRefusal u = none → s.lif.numbering = true → exec (.join true) s = .next (answered .accepted .none { u with
        lif := { s.lif with rate := u.port.cfg.lineRate, cnt := { s.lif.cnt with consecErrors := 0 } } }))) ∧
    (s.lif.state = .listen → exec .listenIdleWindow s = .next { s with
      lif := { s.lif with
        state := .announce, listenT := none, stamp := s.lif.stamp + 1
        queue := insertMsg { newMsg .notice 0 0 (.join s.port.role (ownRing s) s.lif.serial s.sys.epoch) .lif 0 with
          stamp := s.lif.stamp } s.lif.queue }
      port := { s.port with flags := s.port.flags ||| flagBit .lineState } }) ∧
    (s.lif.state = .listen → s.lif.listenT = some 0 →
      exec .listenTimeout s = .next (lineDown (lineEmptied .lineFault .lineFault s.lif) s)) ∧
    (s.lif.state = .announce → s.lif.clashT = some 0 →
      (let offered : List Lot := if s.port.role = some .scale then s.wgu.lots.filter fun l => l.state == .offered else []
       let up : State := refreshReady { s with
         lif := { s.lif with state := .active, lastJoin := .active, clashT := none, presentT := some 0 }
         port := { s.port with flags := s.port.flags ||| flagBit .lineState } }
       let opened : State := s.book.openedWait.foldl (fun t a => queued (newMsg .notice 0 0 (.opened a) .book 0) t) up
       (∀ e ∈ s.exc.entries, e.state ≠ .unresolved ∧ e.state ≠ .queued ∧ e.search = none) →
        (s.wgu.lots.map (·.number)).Nodup →
        s.lif.queue.length + s.lif.wait.length + s.book.openedWait.length + offered.length ≤ 24 →
        exec .clashWindowEnd s = .next (offered.foldl (fun t l => lotOffered l t)
          { opened with book := { s.book with openedWait := [] } })) ∧
      ∀ x e a d, s.book.openedWait = [] → s.wgu.lots = [] → s.exc.entries = [x, e] → x.seq < e.seq → x.state = .unresolved → x.search = none → x.account = some a →
        accountOf s a = none → mapFind s.exc.homeMap a = none → e.state = .queued → e.search = none → e.committing = false →
        e.dest = some d → d ≠ s.node.number → s.lif.queue.length + s.lif.wait.length < 23 →
        ∃ t, exec .clashWindowEnd s = .next t ∧ t.lif.state = .active ∧
          t.exc.entries = [{ x with search := some (.placing false [] none), tok := s.exc.tok },
            { e with state := .sent, sends := e.sends + 1, deadline := none, tok := s.exc.tok + 1 }] ∧
          t.lif.queue = insertMsg { newMsg .request d e.seq (.request e.account e.body) .exc (s.exc.tok + 1) with stamp := s.lif.stamp + 1 }
            (insertMsg { newMsg .request 0 x.seq (.request (some a) .locate) .exc s.exc.tok with stamp := s.lif.stamp } s.lif.queue))

/-- R82: LEAVE takes the node off the line at once, or when the transmission in progress has run to its end: queues, peers and home map are
emptied and LINE_STATE is raised, and a WEIGH that resolves its boat home ends NOT ACTIVE (R127). LEAVE is answered DONE in every line
state. (That the end of the transmission completes a LEAVE in every state in which one waits is the model's reading, log entry 31.) -/
def Obligations.LeaveGoesOffline : Prop :=
  ∀ s : State, s.sys.phase = .running →
    let gone := lineDown { lineEmptied .offline .left s.lif with leaving := false, peers := [] }
      { s with exc := { s.exc with homeMap := [] } }
    (Taken s →
      (s.lif.state = .offline → exec (.leave true) s = .next (answered .done .none s)) ∧
      (s.lif.state ≠ .offline → s.lif.tx = none → exec (.leave true) s = .next (answered .done .none gone)) ∧
      (s.lif.state ≠ .offline → s.lif.tx.isSome = true →
        exec (.leave true) s = .next (answered .done .none { s with lif := { s.lif with leaving := true } }))) ∧
    (s.lif.leaving = true → exec .leaveTransmissionDrained s = .next gone)

/-- R73 to R76, R79, R81, R82, R95, R96, R104: at a quiet time the LIF starts the message of the lowest class, the oldest of its class, from
the send queue and the answer reserve; a loss of contention costs no attempt; a message read back whole leaves its queue: a request of the
EXC starts the answer timeout of its entry, a LOCATE the collection window of its search, and the JOIN of an ANNOUNCE the clash window. A
line error costs an attempt, and the fourth drops the message: a request of the EXC is sent again at once, or after its fourth send makes
its entry FAILED as a timeout does, a LOCATE is placed again, and a JOIN in ANNOUNCE takes the line to LINE FAULT, as the sixteenth error in
a row does; a waiting message takes a place that has become free, and the book or the lot request queue goes on when it was the answer to
the entry in hand: a request counts as a send then (R113), and a LOT notice starts its lot's offer timer and has NO RING decided (R132).
While a LEAVE waits, the errors count and drop as they always do, but nothing is reported, which is the model's reading, log entry 31. (R72:
the bytes that the transmission carries; the order and the codes of a body's fields are the model's choice, log entry 77. That the drop of a
request after its fourth send counts as an answer timeout, log entry 20, that a LOCATE placed again counts as a send, log entry 21, and what
a waiting LOT notice does as it is placed, log entry 33, are the model's reading.) -/
def Obligations.LineSends : Prop :=
  ∀ s : State,
    (∀ m, maySend s.lif = true → firstMsg (s.lif.queue ++ s.lif.reserve) = some m →
      exec .lineQuietTime s = .next { s with lif := { s.lif with tx := some ⟨m.stamp, m.onLine s.node.number⟩ } } ∧
      m ∈ s.lif.queue ++ s.lif.reserve ∧
      ∀ x ∈ s.lif.queue ++ s.lif.reserve, m.cls.code < x.cls.code ∨ (m.cls = x.cls ∧ m.stamp ≤ x.stamp)) ∧
    (∀ m, sending s = some m →
      let rest (l : List Msg) : List Msg := l.filter fun x => x.stamp != m.stamp
      let rise (l : List Msg) : List Msg := l.map fun x => if x.stamp = m.stamp then { x with attempts := x.attempts + 1 } else x
      exec .contentionLoss s = .next { s with lif := { s.lif with
        tx := none, cnt := { s.lif.cnt with contentionLosses := bump s.lif.cnt.contentionLosses } } } ∧
      (s.lif.leaving = false →
        let sent : State := { s with lif := { s.lif with
          tx := none, queue := rest s.lif.queue, reserve := rest s.lif.reserve, presentT := s.lif.presentT.map fun _ => 0
          cnt := { s.lif.cnt with consecErrors := 0, sent := bump s.lif.cnt.sent } } }
        (m.block ≠ .exc → (m.block = .lif → ∀ r g n ep, m.body ≠ .join r g n ep) → exec .sendComplete s = .next sent) ∧
        (∀ r g n ep, m.block = .lif → m.body = .join r g n ep → s.lif.state = .announce →
          exec .sendComplete s = .next { sent with lif := { sent.lif with clashT := some 200 } }) ∧
        (∀ e, m.block = .exc → findEntry s m.seq = some e → e.tok = m.tok →
          (e.state = .sent → exec .sendComplete s = .next (putEntry { e with deadline := some 150 } sent)) ∧
          (∀ second homes tens, e.state = .unresolved → e.search = some (.placing second homes tens) →
            exec .sendComplete s = .next (putEntry { e with search := some (.window second homes tens 150) } sent)))) ∧
      (s.lif.cnt.consecErrors < 15 →
        let errors : LifCounters := { s.lif.cnt with
          lineErrors := bump s.lif.cnt.lineErrors, consecErrors := s.lif.cnt.consecErrors + 1 }
        (m.attempts < 3 → exec .lineError s = .next { s with lif := { s.lif with
          tx := none, queue := rise s.lif.queue, reserve := rise s.lif.reserve, cnt := errors } }) ∧
        (3 ≤ m.attempts →
          let out : State := { s with lif := { s.lif with
            tx := none, queue := rest (rise s.lif.queue), reserve := rest (rise s.lif.reserve)
            cnt := { errors with dropped := bump s.lif.cnt.dropped } } }
          ((m.block ≠ .exc ∧ (m.block = .lif → ∀ r g n ep, m.body ≠ .join r g n ep)) ∨ s.lif.leaving = true →
            exec .lineError s = .next out) ∧
          (∀ r g n ep, m.block = .lif → m.body = .join r g n ep → s.lif.leaving = false → s.lif.state = .announce →
            s.sys.phase = .running → exec .lineError s = .next (lineDown (lineEmptied .lineFault .lineFault out.lif) out)) ∧
          (∀ e, m.block = .exc → s.lif.leaving = false → findEntry s m.seq = some e → e.seq = m.seq → e.tok = m.tok →
            let again (e' : Entry) (d : Nat) (b : ReqBody) : State :=
              queued (newMsg .request d e.seq (.request e.account b) .exc s.exc.tok) (putEntry e' { out with exc := { s.exc with
                tok := s.exc.tok + 1, cnt := { s.exc.cnt with sends := bump s.exc.cnt.sends } } })
            let cnt : ExcCounters := { s.exc.cnt with timeouts := bump s.exc.cnt.timeouts, failed := bump s.exc.cnt.failed }
            (∀ d, e.state = .sent → e.dest = some d → d ≠ s.node.number → e.sends < 4 → LineOpen out →
              exec .lineError s =
                .next (again { e with state := .sent, sends := e.sends + 1, deadline := none, tok := s.exc.tok } d e.body)) ∧
            (e.state = .sent → 4 ≤ e.sends → e.isPost = false → exec .lineError s =
              .next (unitOutcome e (.failed .noAnswer) (freePlace e.seq { out with exc := { s.exc with cnt := cnt } }))) ∧
            (∀ p, e.state = .sent → 4 ≤ e.sends → e.body = .post p → s.sys.phase = .running → unitInService s e.ref = false →
              s.exc.capture = none →
              ∃ t, exec .lineError s = .next t ∧ t.port.flags = s.port.flags ||| flagBit .postingFailed ∧
                t.exc.capture = some ⟨e.seq, p.kind, p.account, e.dest.getD 0, p.id, .noAnswer⟩ ∧
                t.exc.entries = setEntryIn { e with state := .failed, last := some .noAnswer, deadline := none, tok := 0 } s.exc.entries ∧
                t.exc.cnt = cnt ∧ t.lif = out.lif) ∧
            (∀ second homes tens, e.state = .unresolved → e.search = some (.placing second homes tens) → LineOpen out →
              exec .lineError s =
                .next (again { e with search := some (.placing second homes tens), tok := s.exc.tok } 0 .locate))))) ∧
      (s.lif.leaving = true → exec .sendComplete s = .next { s with lif := { s.lif with
        tx := none, queue := rest s.lif.queue, reserve := rest s.lif.reserve, presentT := s.lif.presentT.map fun _ => 0
        cnt := { s.lif.cnt with consecErrors := 0, sent := bump s.lif.cnt.sent } } }) ∧
      (s.lif.cnt.consecErrors = 15 → s.sys.phase = .running →
        exec .lineError s = .next (lineDown (lineEmptied .lineFault .lineFault { s.lif with
          cnt := { s.lif.cnt with lineErrors := bump s.lif.cnt.lineErrors, consecErrors := 16
                                  dropped := bump s.lif.cnt.dropped } }) s))) ∧
    (∀ w rest, s.lif.state = .active → s.lif.queue.length < 24 → s.lif.wait = w :: rest → s.sys.phase = .running →
      let placed : State := { s with lif := { s.lif with
        wait := rest, queue := insertMsg { w.msg with stamp := s.lif.stamp } s.lif.queue, stamp := s.lif.stamp + 1 } }
      let ends (t : State) : Prop := exec .sendQueuePlaceWaiting s = .next { t with
        book := { t.book with hand := if w.ends = .bookHand then none else t.book.hand }
        wgu := { t.wgu with lotHand := if w.ends = .lotHand then none else t.wgu.lotHand } }
      ((∀ a b, w.msg.body ≠ .request a b) → (∀ d, w.msg.body ≠ .lot d) → ends placed) ∧
      (∀ a b, w.msg.body = .request a b →
        ends { placed with exc := { s.exc with cnt := { s.exc.cnt with sends := bump s.exc.cnt.sends } } }) ∧
      (∀ d, w.msg.body = .lot d →
        ((∀ l, findLot s d.id.number = some l → l.state ≠ .offered) → ends placed) ∧
        ∀ l, findLot s d.id.number = some l → l.state = .offered →
          ends (ringDecided { l with offer := some 0 }
            { placed with wgu := { s.wgu with lots := putLotIn { l with offer := some 0 } s.wgu.lots } })))

/-- R80, R84, R85: after 10,000 ms without a transmission of its own an ACTIVE node places PRESENT, unless one stands or waits already; a
peer not heard for 35,000 ms leaves the list, and with it every home map entry that names it; at a SCALE NO RING of every OFFERED lot is
then decided afresh (R132). (That a timer event which is not due changes nothing is the model's choice, log entry 2.) -/
def Obligations.PresentAndPeers : Prop :=
  ∀ s : State,
    let without (node : Nat) : State := { s with
      lif := { s.lif with
        peers := s.lif.peers.filter fun x => x.node != node
        cnt := { s.lif.cnt with peersRemoved := bump s.lif.cnt.peersRemoved } }
      exc := { s.exc with homeMap := s.exc.homeMap.filter fun e => e.2 != node } }
    (s.lif.presentT = some 10000 → s.lif.state = .active → sendRoom s = true → s.lif.queue.any isPresent = false →
      (s.lif.wait.any fun w => isPresent w.msg) = false →
      exec .presentTimer s = .next { s with lif := { s.lif with
        stamp := s.lif.stamp + 1
        queue := insertMsg { newMsg .notice 0 0 (.present s.port.role (ownRing s)) .lif 0 with stamp := s.lif.stamp }
          s.lif.queue } }) ∧
    (∀ node p, findPeer s.lif.peers node = some p → 35000 ≤ p.age → s.port.role ≠ some .scale →
      exec (.peerAgeExpiry node) s = .next (without node)) ∧
    (∀ node p, findPeer s.lif.peers node = some p → 35000 ≤ p.age → s.port.role = some .scale → s.sys.phase = .running →
      (s.wgu.lots.map (·.number)).Nodup → exec (.peerAgeExpiry node) s =
        .next ((s.wgu.lots.filter fun l => l.state == .offered).foldl (fun t l => ringDecided l t) (without node))) ∧
    (∀ node p, findPeer s.lif.peers node = some p → p.age < 35000 → exec (.peerAgeExpiry node) s = .next s)

/-- R71, R78 to R80, R87: in OFFLINE the LIF hears nothing and counts nothing. In every other line state a transmission that is cut short,
has a bad stop bit or a wrong check is counted as a check error, and one whose arbitration code, source, destination, reserved bits or kind
are not as the layout and the kinds table ask as a format error; every other transmission comes to the row of its kind (the fields of the
bodies are the model's choice, log entries 77 and 100, but for JOIN, PRESENT and CLASH). A JOIN or PRESENT heard in ACTIVE brings its
sender's role and ring into the peer list. A JOIN of the own number from another serial is answered in ACTIVE by a CLASH from the answer
reserve; in LISTEN and ANNOUNCE it leads to CONFLICT, and so does a CLASH that names the own number in ANNOUNCE, and in ACTIVE a JOIN of the
own number from the own serial. Every other message whose source is the own number leads to CONFLICT in LISTEN, ANNOUNCE and ACTIVE, and in
CONFLICT and LINE FAULT it does not. A message to another node is counted not addressed, and in a line state other than ACTIVE every other
one is counted not routed, once the peer list has taken its sender. (That a CLASH of another source is only counted in ACTIVE though it
names the own number is the model's reading, log entry 39; so is that the own number is judged before a JOIN's role and ring, log entry 41.)
-/
def Obligations.LineStateMessages : Prop :=
  ∀ s : State,
    (s.lif.state = .offline →
      (∀ i h, i.header? = some h → exec i s = .next s) ∧ ∀ w, exec (.lineGarbledMessage w) s = .next s) ∧
    (let checkError : State := { s with lif := { s.lif with cnt := { s.lif.cnt with checkErrors := bump s.lif.cnt.checkErrors } } }
      let formatError : State := { s with lif := { s.lif with cnt := { s.lif.cnt with formatErrors := bump s.lif.cnt.formatErrors } } }
      (∀ w : RawLine, s.lif.state ≠ .offline →
        w.bytes.length < 5 ∨ (∃ n, w.bytes[4]? = some n ∧ w.bytes.length < n.toNat + 7) ∨ w.stopBad = true →
        exec (.lineGarbledMessage w) s = .next checkError) ∧
      ∀ (a b src dst seq n : Byte) (body check : List Byte), body.length = n.toNat → check.length = 2 →
        let w : RawLine := ⟨a, b :: src :: dst :: seq :: n :: body ++ check, false⟩
        let h : Hdr := ⟨src.toNat, dst.toNat, seq.toNat⟩
        let sound : Prop := check = beBytes 2 (lineCheck (b :: src :: dst :: seq :: n :: body)).toNat
        let good (k : LineKind) : Prop := lineKindOf (b.toNat / 64) (b.toNat % 64) = some k ∧
          a.toNat = 64 * (b.toNat / 64) + src.toNat ∧ 1 ≤ src.toNat ∧ src.toNat ≤ 62 ∧ seq.toNat ≤ 31 ∧
          if k.toAll then dst = 0 else 1 ≤ dst.toNat ∧ dst.toNat ≤ 62
        (s.lif.state ≠ .offline → ¬ sound → exec (.lineGarbledMessage w) s = .next checkError) ∧
        (s.lif.state ≠ .offline → sound → (∀ k, ¬ good k) → exec (.lineGarbledMessage w) s = .next formatError) ∧
        (∀ k, sound → good k → exec (.lineGarbledMessage w) s = .next s ∧
          step (s.withHeard w) = exec (messageInstr s k h body) s)) ∧
    (∀ cls code, (lineKindOf cls code).isSome = true ↔
      (cls = 0 ∧ code = 1) ∨ (cls = 1 ∧ 1 ≤ code ∧ code ≤ 2) ∨ (cls = 2 ∧ 1 ≤ code ∧ code ≤ 6) ∨ (cls = 3 ∧ 1 ≤ code ∧ code ≤ 4)) ∧
    (∀ h role ring serial epoch n j, ring < 256 → serial < 281474976710656 → epoch < 65536 → n < 256 → j < 281474976710656 →
      messageInstr s .join h ((MsgBody.join (some role) ring serial epoch).bytes h.src) =
        .joinMessage h (roleCode role) ring serial epoch ∧
      messageInstr s .present h ((MsgBody.present (some role) ring).bytes h.src) = .present h (roleCode role) ring ∧
      messageInstr s .clash h ((MsgBody.clash n j serial).bytes h.src) = .clash h n j serial) ∧
    (∀ h role ring serial epoch told, Heard true h s → readRoleRing role ring = some told →
      let l := peerHeard h.src (some told) s.lif
      let t : State := { s with lif := { l with cnt := { l.cnt with received := bump l.cnt.received } } }
      exec (.joinMessage h role ring serial epoch) s = .next t ∧ exec (.present h role ring) s = .next t) ∧
    (∀ h n j o, Heard true h s →
      let l := peerHeard h.src none s.lif
      exec (.clash h n j o) s = .next { s with lif := { l with cnt := { l.cnt with received := bump l.cnt.received } } }) ∧
    (let down : State := let u := lineDown (lineEmptied .conflict .conflict s.lif) s;
       { u with port := { u.port with flags := u.port.flags ||| flagBit .conflict } }
     let unrouted (h : Hdr) (t : State) : State := { t with lif := { t.lif with cnt :=
       if h.dst = 0 ∨ h.dst = s.node.number then { t.lif.cnt with notRouted := bump t.lif.cnt.notRouted }
       else { t.lif.cnt with notAddressed := bump t.lif.cnt.notAddressed } } }
     let sound (i : Instr) (h : Hdr) : Prop := i.header? = some h ∧
       headerOk (i matches .joinMessage .. | .clash .. | .present .. | .opened .. | .home .. | .locate .. | .lot ..) h = true
     s.sys.phase = .running →
      (∀ h role ring serial epoch, h.src = s.node.number → headerOk true h = true →
        let i : Instr := .joinMessage h role ring serial epoch
        (s.lif.state = .active → serial ≠ s.lif.serial → s.lif.reserve.length < 4 →
          exec i s = .next { s with lif := { s.lif with
            reserve := s.lif.reserve ++ [{ newMsg .urgent 0 0 (.clash s.node.number serial s.lif.serial) .lif 0 with
              stamp := s.lif.stamp }]
            stamp := s.lif.stamp + 1
            cnt := { s.lif.cnt with received := bump s.lif.cnt.received, reserveOverflows := min 65535 s.lif.cnt.reserveOverflows } } }) ∧
        (s.lif.state = .listen ∨ s.lif.state = .announce ∨ (s.lif.state = .active ∧ serial = s.lif.serial) →
          exec i s = .next (unrouted h down)) ∧
        (s.lif.state = .conflict ∨ s.lif.state = .lineFault → exec i s = .next (unrouted h s))) ∧
      (∀ i h, sound i h → h.src = s.node.number → (∀ role ring serial epoch, i ≠ .joinMessage h role ring serial epoch) →
        (s.lif.state = .listen ∨ s.lif.state = .announce ∨ s.lif.state = .active → exec i s = .next (unrouted h down)) ∧
        (s.lif.state = .conflict ∨ s.lif.state = .lineFault → exec i s = .next (unrouted h s))) ∧
      (∀ h j o, s.lif.state = .announce → h.src ≠ s.node.number → headerOk true h = true → exec (.clash h s.node.number j o) s =
        .next (unrouted h { down with lif := peerHeard h.src none down.lif })) ∧
      (∀ i h, sound i h → h.src ≠ s.node.number → s.lif.state ≠ .offline →
        s.lif.state ≠ .active ∨ (h.dst ≠ 0 ∧ h.dst ≠ s.node.number) →
        ((∀ role ring serial epoch, i ≠ .joinMessage h role ring serial epoch) → (∀ role ring, i ≠ .present h role ring) →
          (s.lif.state = .announce → ∀ j o, i ≠ .clash h s.node.number j o) →
          exec i s = .next (unrouted h { s with lif := peerHeard h.src none s.lif })) ∧
        ∀ role ring serial epoch told, readRoleRing role ring = some told →
          i = .joinMessage h role ring serial epoch ∨ i = .present h role ring →
          exec i s = .next (unrouted h { s with lif := peerHeard h.src (some told) s.lif })))

/-- R22, R45, R86, R104: an OPENED or a HOME heard in ACTIVE enters the book's queue with its sender; a HOME for a searching entry is
collected into its window, whether the book's queue is full or not; a notice that finds the book's queue full is dropped and counted.
(Requests of the own EXC that wait for the queue stand before an arrival, log entry 12; a notice with a malformed account enters as it came
and is counted when the book takes it, log entry 41.) -/
def Obligations.NoticesReachTheBook : Prop :=
  ∀ (s : State) (h : Hdr) (f : Field), Heard true h s →
    let l := peerHeard h.src none s.lif
    let t : State := { s with lif := { l with cnt := { l.cnt with received := bump l.cnt.received } } }
    (bookRoom s = true → exec (.opened h f) s = .next { t with book := { s.book with
      queue := s.book.queue ++ [⟨.line h.src h.seq, .opened h.src (readAcctField f)⟩] } }) ∧
    (bookRoom s = false → exec (.opened h f) s = .next { t with book := { s.book with
      cnt := { s.book.cnt with droppedNotices := bump s.book.cnt.droppedNotices } } }) ∧
    (bookRoom s = true → findEntry s h.seq = none → exec (.home h f) s = .next { t with book := { s.book with
      queue := s.book.queue ++ [⟨.line h.src h.seq, .home h.src (readAcctField f)⟩] } }) ∧
    (∀ a e second homes tens left, bookRoom s = true → readAcctField f = .ok a → findEntry s h.seq = some e →
      e.account = some a → e.state = .unresolved → e.search = some (.window second homes tens left) →
      exec (.home h f) s = .next (putEntry { e with search := some (.window second (homes ++ [h.src]) tens left) } { t with
        book := { s.book with queue := s.book.queue ++ [⟨.line h.src h.seq, .home h.src (.ok a)⟩] } })) ∧
    (let dropped : State := { t with book := { s.book with
        cnt := { s.book.cnt with droppedNotices := bump s.book.cnt.droppedNotices } } }
     (bookRoom s = false → findEntry s h.seq = none → exec (.home h f) s = .next dropped) ∧
     ∀ a e second homes tens left, bookRoom s = false → readAcctField f = .ok a → findEntry s h.seq = some e →
      e.account = some a → e.state = .unresolved → e.search = some (.window second homes tens left) →
      exec (.home h f) s = .next (putEntry { e with search := some (.window second (homes ++ [h.src]) tens left) } dropped))

/-- R22, R77, R86: a request heard in ACTIVE enters the book's queue under its source and sequence; when that queue is full, the answer
reserve takes a DEFER of 50 ms while it holds fewer than four, and counts an overflow when it holds four. (Requests of the own EXC that wait
for the queue stand before an arrival, log entry 12; a request that finds no place is not counted received, log entry 19.) -/
def Obligations.RequestsReachTheBook : Prop :=
  ∀ (s : State) (h : Hdr),
    let l := peerHeard h.src none s.lif
    let queued (a : BookAsk) : State := { s with
      lif := { l with cnt := { l.cnt with received := bump l.cnt.received } }
      book := { s.book with queue := s.book.queue ++ [⟨.line h.src h.seq, a⟩] } }
    (Heard false h s → bookRoom s = true →
      (∀ r, exec (.hold h r) s = .next (queued (.hold (readHoldReq h.src r)))) ∧
      (∀ r, exec (.release h r) s = .next (queued (.release (readReleaseReq h.src r)))) ∧
      (∀ r, exec (.post h r) s = .next (queued (.post (readPost h.src r))))) ∧
    (Heard true h s → bookRoom s = true → ∀ f, exec (.locate h f) s = .next (queued (.locate (readAcctField f)))) ∧
    (bookRoom s = false →
      let deferred (k : ReqKind) (a : Nat) : State := { s with lif :=
        if s.lif.reserve.length < 4 then { l with
          reserve := l.reserve ++ [{ newMsg .answer h.src h.seq (.answer k (.account a) .defer (.wait 5)) .lif 0 with
            stamp := l.stamp }]
          stamp := l.stamp + 1
          cnt := { l.cnt with deferrals := bump l.cnt.deferrals, reserveOverflows := min 65535 l.cnt.reserveOverflows } }
        else { l with cnt := { l.cnt with reserveOverflows := bump l.cnt.reserveOverflows } } }
      (Heard false h s →
        (∀ r a, readHoldReq h.src r = .ok a → exec (.hold h r) s = .next (deferred .hold a.account)) ∧
        (∀ r a, readReleaseReq h.src r = .ok a → exec (.release h r) s = .next (deferred .release a.account)) ∧
        (∀ r p, readPost h.src r = .ok p → exec (.post h r) s = .next (deferred .post p.account))) ∧
      (Heard true h s → ∀ f a, readAcctField f = .ok a → exec (.locate h f) s = .next (deferred .locate a)))

/-- R133, R77, R86 to R88, R140: a CLAIM or LOTREPORT goes to the lot request queue of a scale, is dropped and counted there when eight
stand in it, and is answered UNKNOWN from the reserve at every other role, or counted as an overflow when the reserve holds four (it is not
counted received then, log entry 19). A LOT notice of another ring is only counted at a clock, one of its own ring makes a claim, and at
every other role it is counted as not for the role. (That a lot identity out of range makes the request malformed, as its entry in the queue
notes, is the model's reading, log entry 73.) -/
def Obligations.LotMessages : Prop :=
  ∀ (s : State) (h : Hdr) (scale number : Nat),
    let l := peerHeard h.src none s.lif
    let received : Lif := { l with cnt := { l.cnt with received := bump l.cnt.received } }
    let dropped : State := { s with
      lif := received
      wgu := { s.wgu with cnt := { s.wgu.cnt with droppedReqs := bump s.wgu.cnt.droppedReqs } } }
    let unknown (k : ReqKind) : State := { s with lif :=
      if s.lif.reserve.length < 4 then { l with
        reserve := l.reserve ++ [{ newMsg .answer h.src h.seq (.answer k (.lot ⟨scale, number⟩) .unknown .none) .lif 0 with
          stamp := l.stamp }]
        stamp := l.stamp + 1
        cnt := { l.cnt with reserveOverflows := min 65535 l.cnt.reserveOverflows } }
      else { l with cnt := { l.cnt with reserveOverflows := bump l.cnt.reserveOverflows } } }
    (Heard false h s →
      (s.port.role = some .scale → s.wgu.lotQ.length < 8 →
        exec (.claim h scale number) s = .next { s with
          lif := received
          wgu := { s.wgu with lotQ := s.wgu.lotQ ++ [.claim h.src h.seq ⟨scale, number⟩ (nodeOk scale && numOk number)] } } ∧
        ∀ sold, exec (.lotReport h scale number sold) s = .next { s with
          lif := received
          wgu := { s.wgu with
            lotQ := s.wgu.lotQ ++ [.report h.src h.seq ⟨scale, number⟩ (nodeOk scale && numOk number && sold.isSome) (sold.getD false)] } }) ∧
      (s.port.role = some .scale → 8 ≤ s.wgu.lotQ.length →
        exec (.claim h scale number) s = .next dropped ∧ ∀ sold, exec (.lotReport h scale number sold) s = .next dropped) ∧
      (s.port.role ≠ some .scale → exec (.claim h scale number) s = .next (unknown .claim) ∧
        ∀ sold, exec (.lotReport h scale number sold) s = .next (unknown .lotReport))) ∧
    (Heard true h s → ∀ raw d, readLotDesc raw = some d →
      (s.port.role ≠ some .clock → exec (.lot h raw) s = .next { s with
        lif := { l with cnt := { l.cnt with notForRole := bump l.cnt.notForRole } } }) ∧
      (s.port.role = some .clock → s.port.cfg.ring ≠ some d.ring → exec (.lot h raw) s = .next { s with
        lif := received
        clu := { s.clu with cnt := { s.clu.cnt with otherRing := bump s.clu.cnt.otherRing } } }) ∧
      (∀ q qs, s.port.role = some .clock → s.port.cfg.ring = some d.ring → mayClaim s d.id = true → PlaceOpen q qs s →
        exec (.lot h raw) s = .next (let t := refreshReady { s with
            lif := received
            exc := { s.exc with
              free := qs
              entries := putEntryIn (makeEntry q ⟨.claim d.id, .claim d.id, none, some d.id.scale, false⟩) s.exc.entries } }
          { t with clu := { s.clu with
            claims := s.clu.claims ++ [{ lot := d.id }]
            cnt := { s.clu.cnt with claimsMade := bump s.clu.cnt.claimsMade } } })))

/-- R97 to R100, R107 to R110: an ANSWER of the line is matched to the entry of its sequence by state, destination, kind, subject and code;
one that matches nothing is counted and changes nothing else, and one whose answered kind is no request kind matches nothing (log entry 34).
A matched DEFER has the entry wait, the twenty-first makes it FAILED; a MOVED re-addresses a HOLD or RELEASE and has a posting
re-identified, and the home map is updated, the ninth makes the entry FAILED; a MALFORMED, and an UNKNOWN to a posting other than a
TRANSFER, makes it FAILED; an UNKNOWN to an entry whose destination the home map gave takes the account from the map and has the entry
resolved afresh; every other answer is final and its outcome goes to the unit that asked. A FAILED posting takes final answers only. A DEFER
to a LOCATE goes to the search of its sequence and account, of whatever source, and every other answer to one matches nothing. As the
OUTBOUND write of a re-identification ends DONE, the entry takes its fresh identity; the outcome of the group leaves it QUEUED and has the
record under the old identity removed; one whose write fails leaves it FAILED. (These are the model's reading: that MALFORMED and UNKNOWN
change nothing at a FAILED posting, log entry 35; the destination of a posting whose re-identification failed, log entry 36, and that the
next posting number stands then and rises when the NODE write alone fails, log entry 14; that a posting under re-identification shows QUEUED
and keeps its deferrals until its OUTBOUND write ends, log entry 70; that a DEFER to a search that waits for one already is matched and
changes nothing, log entry 71; that a DEFER to a LOCATE raises no count of DEFERs is its choice, log entry 111.) -/
def Obligations.AnswersAreMatched : Prop :=
  (∀ (s : State) (h : Hdr) (a : RawAnswer), Heard false h s → a.kind = none →
    let l := peerHeard h.src none s.lif
    exec (.answer h a) s = .next { s with
      lif := { l with cnt := { l.cnt with received := bump l.cnt.received } }
      exc := { s.exc with cnt := { s.exc.cnt with unmatched := bump s.exc.cnt.unmatched } } }) ∧
  (∀ (s : State) (h : Hdr) (a : RawAnswer) (k : ReqKind) (sub : Subject) (c : AnsCode) (d : AnsData), Heard false h s → a.kind = some k →
    ansCodeOf a.code = some c → readSubject a.subject = some sub → readAnsData a.data = some d → ansDataFits k c d = true →
    let l := peerHeard h.src none s.lif
    let t : State := { s with lif := { l with cnt := { l.cnt with received := bump l.cnt.received } } }
    let counted (cnt : ExcCounters) : State := { t with exc := { s.exc with cnt := cnt } }
    (k = .locate → (∀ w, c = .defer → d = .wait w → ∀ e acct, findEntry s h.seq = some e → e.state = .unresolved →
        e.account = some acct → sub = .account acct →
        (∀ second homes tens left, e.search = some (.window second homes tens left) →
          exec (.answer h a) s = .next (putEntry { e with
            last := some (.code .defer), search := some (.window second homes (some (max (tens.getD 0) w)) left) } t)) ∧
        (∀ second homes tens, e.search = some (.placing second homes tens) →
          exec (.answer h a) s = .next (putEntry { e with
            last := some (.code .defer), search := some (.placing second homes (some (max (tens.getD 0) w))) } t)) ∧
        (∀ homes left, e.search = some (.waiting homes left) → exec (.answer h a) s = .next t)) ∧
      (c ≠ .defer ∨ (∀ e, findEntry s h.seq = some e → e.state ≠ .unresolved ∨ e.account.map Subject.account ≠ some sub ∨
          ∀ second homes tens left, e.search ≠ some (.placing second homes tens) ∧ e.search ≠ some (.window second homes tens left) ∧
            e.search ≠ some (.waiting homes left)) →
        exec (.answer h a) s = .next (counted { s.exc.cnt with unmatched := bump s.exc.cnt.unmatched }))) ∧
    (k ≠ .locate → (∀ e, findEntry s h.seq = some e → awaits e = false ∨ e.dest ≠ some h.src ∨ e.body.kind ≠ k ∨
        entrySubject e ≠ some sub ∨ codeAllowed e.body c = false) →
      exec (.answer h a) s = .next (counted { s.exc.cnt with unmatched := bump s.exc.cnt.unmatched })) ∧
    (∀ e, k ≠ .locate → findEntry s h.seq = some e → awaits e = true → e.dest = some h.src → e.body.kind = k →
      entrySubject e = some sub → codeAllowed e.body c = true →
      let isTransfer : Prop := ∃ p, e.body = .post p ∧ p.kind = .transfer
      let final : Prop :=
        let e' : Entry := { e with state := .doneToUnit, last := some (.code c), sends := 0, deadline := none, tok := 0 }
        exec (.answer h a) s = .next (unitOutcome e' (.answer c d h.src) (if e.body.isPost then putEntry e' t else freePlace e.seq t))
      (c ≠ .defer → c ≠ .moved → c ≠ .malformed → c ≠ .unknown → final) ∧
      (c = .done → e.ref = .cluRelease → k = .release → s.port.role = some .clock →
        exec (.answer h a) s = .next (freePlace e.seq t)) ∧
      (c = .unknown → isTransfer ∨ (e.body.isPost = false ∧ e.fromMap = false) → final) ∧
      (e.state = .failed → c = .defer ∨ c = .moved ∨ c = .malformed ∨ (c = .unknown ∧ ¬ isTransfer) →
        exec (.answer h a) s = .next t) ∧
      (e.state ≠ .failed → s.sys.phase = .running →
        (∀ w, d = .wait w → c = .defer →
          let defers := counted { s.exc.cnt with defers := bump s.exc.cnt.defers }
          (e.deferrals < 20 → exec (.answer h a) s = .next (putEntry { e with
            state := .deferred, sends := 0, deferrals := e.deferrals + 1, deadline := some (w * 10), tok := 0
            last := some (.code .defer) } defers)) ∧
          (20 ≤ e.deferrals → exec (.answer h a) s = .next (entryFailed { e with
            sends := 0, last := some (.code .defer) } (.code .defer) defers))) ∧
        (∀ n, d = .newHome n → c = .moved →
          let e' : Entry := { e with sends := 0, last := some (.code .moved), deadline := none, tok := 0 }
          let followed (acct : Nat) : State := mapMoved acct n (counted { s.exc.cnt with moved := bump s.exc.cnt.moved })
          let readdressed : Entry := { e' with state := .queued, dest := some n, moves := e.moves + 1, fromMap := false }
          (8 ≤ e.moves → exec (.answer h a) s = .next (entryFailed e' (.code .moved) t)) ∧
          (∀ acct, e.moves < 8 → e.account = some acct → e.body.isPost = false →
            exec (.answer h a) s = .next (putEntry { readdressed with deferrals := 0 } (followed acct))) ∧
          (∀ acct p, e.moves < 8 → e.account = some acct → e.body = .post p → CommitReady s → ListOpen s →
            exec (.answer h a) s = .next (reidentAsked readdressed p (followed acct)))) ∧
        (c = .malformed → exec (.answer h a) s = .next (entryFailed { e with sends := 0 } (.code .malformed) t)) ∧
        (c = .unknown → e.body.isPost = true → ¬ isTransfer →
          exec (.answer h a) s = .next (entryFailed { e with sends := 0 } (.code .unknown) t)) ∧
        (∀ acct, c = .unknown → e.body.isPost = false → e.fromMap = true → e.account = some acct →
          let afresh : Entry := { e with
            state := .unresolved, dest := none, sends := 0, deferrals := 0, deadline := none, tok := 0, last := some (.code .unknown)
            fromMap := false, search := none }
          ∃ u, exec (.answer h a) s = .next u ∧ u.exc.homeMap = s.exc.homeMap.filter (fun m => m.1 != acct) ∧
            ((accountOf s acct).isSome = true → u.lif = t.lif) ∧
            (∀ acc, accountOf s acct = some acc → acc.state = .opened ∨ acc.state = .yielding →
              findEntry u e.seq = some { afresh with state := .queued, dest := some s.node.number }) ∧
            (accountOf s acct = none → sendRoom s = true → (∀ x ∈ s.exc.entries, x.state ≠ .unresolved) →
              findEntry u e.seq = some { afresh with search := some (.placing false [] none), tok := s.exc.tok } ∧
              u.lif = (queued (newMsg .request 0 e.seq (.request e.account .locate) .exc s.exc.tok) t).lif))))) ∧
  (∀ (s : State) (acct n : Nat), let m := s.exc.homeMap.filter fun x => x.1 != acct
    (mapMoved acct n s).exc.homeMap = if n = s.node.number then m else (acct, n) :: m.take 15) ∧
  ∀ (s : State) (e : Entry) (p : Posting) (id : Ident), s.exc.work = some (.reident e.seq id) → s.exc.jobs = [] →
    findEntry s e.seq = some e → e.body = .post p → s.sys.phase = .running → unitInService s e.ref = false →
    (∀ i c n o ch j, s.store.erasing = none → s.store.op = some (.write i c n) →
      s.store.cur = some ⟨.excWork, .group [.outbound o, .node ch]⟩ → s.store.idx = 0 → p.id ≠ id →
      lowest isFree (slotWritten i c s).store = some j → currentCount (slotWritten i c s).store .node < 4294967295 →
      ∃ t, exec (.storeWriteEnd true) s = .next t ∧ t.exc.work = s.exc.work ∧ findEntry t e.seq =
        some { e with body := .post { p with id := id }, replaced := some p.id, sends := 0, deferrals := 0 }) ∧
    (∀ old, p.id = id → e.replaced = some old → ListOpen s → s.node.epoch = s.sys.epoch →
      let ended (n : Nat) : State := listed ⟨.outRemoval old, .removal (.outbound old.epoch old.number)⟩
        (putEntry { e with committing := false, reident := none } { s with
          node := { s.node with nextPosting := n }
          exc := { s.exc with work := none, cnt := { s.exc.cnt with reidents := bump s.exc.cnt.reidents } } })
      (s.node.nextPosting ≤ 65535 → storeOutcome .excWork .done s = ended s.node.nextPosting) ∧
      ∀ res, res = .full 1 ∨ res = .fault 1 → s.node.nextPosting < 65535 →
        storeOutcome .excWork res s = ended (s.node.nextPosting + 1)) ∧
    ∀ res, res = .full 0 ∨ res = .fault 0 → storeOutcome .excWork res s =
      entryFailed { e with committing := false, reident := e.dest } (.code .moved) { s with exc := { s.exc with work := none } }

/-! ### The Account Book (chapter 2) -/

/-- R36 to R40: a book command of the station port whose fields are good is answered ACCEPTED and enters the book's queue, while no other is
queued or in hand and the queue has a place; otherwise it is refused BUSY; an account, a credit limit or an amount that is malformed or out
of range has it refused BAD VALUE, before the lock and BUSY are looked at. (That requests of the own EXC that wait for the queue have its
free places first, so that BUSY may come while a place is free, is the model's reading, log entry 12; so is that an OPEN of a boat with a
limit, or of a buyer without one, is refused BAD VALUE, log entry 45.) -/
def Obligations.BookCommandsQueue : Prop :=
  ∀ s : State, Taken s →
    let accepted (ask : BookAsk) : State := { s with book := { s.book with queue := s.book.queue ++ [⟨.port, ask⟩] } }
    (∀ f a, readAccountNo f = some a →
      (bookCmdBusy s = false →
        (isBoat a = true → exec (.openAccount true f none) s = .next (answered .accepted .none (accepted (.cmdOpen a 0)))) ∧
        (∀ l v, isBuyer a = true → readAmount l = some v →
          exec (.openAccount true f (some l)) s = .next (answered .accepted .none (accepted (.cmdOpen a v)))) ∧
        exec (.clearFlags true f) s = .next (answered .accepted .none (accepted (.cmdClear a))) ∧
        (s.port.lock = false →
          exec (.remove true f) s = .next (answered .accepted .none (accepted (.cmdRemove a))) ∧
          ∀ m v, readBalance m = some v →
            exec (.adjust true f m) s = .next (answered .accepted .none (accepted (.cmdAdjust a v))))) ∧
      (bookCmdBusy s = true →
        (isBoat a = true → exec (.openAccount true f none) s = .next (answered .busy .none s)) ∧
        (∀ l v, isBuyer a = true → readAmount l = some v → exec (.openAccount true f (some l)) s = .next (answered .busy .none s)) ∧
        exec (.clearFlags true f) s = .next (answered .busy .none s) ∧
        (s.port.lock = false → exec (.remove true f) s = .next (answered .busy .none s) ∧
          ∀ m v, readBalance m = some v → exec (.adjust true f m) s = .next (answered .busy .none s))) ∧
      (∀ l, isBuyer a = true → readAmount l = none → exec (.openAccount true f (some l)) s = .next (answered .badValue .none s)) ∧
      (isBuyer a = true → exec (.openAccount true f none) s = .next (answered .badValue .none s)) ∧
      (∀ l, isBoat a = true → exec (.openAccount true f (some l)) s = .next (answered .badValue .none s)) ∧
      (∀ m, readBalance m = none → exec (.adjust true f m) s = .next (answered .badValue .none s))) ∧
    (∀ f, readAccountNo f = none →
      (∀ l, exec (.openAccount true f l) s = .next (answered .badValue .none s)) ∧
      exec (.clearFlags true f) s = .next (answered .badValue .none s) ∧
      exec (.remove true f) s = .next (answered .badValue .none s) ∧
      ∀ m, exec (.adjust true f m) s = .next (answered .badValue .none s))

/-- R23 to R27: a POST at the front of the book's queue is answered DONE_ALREADY when its identity is not above its origin's watermark,
whatever the account's state; above it, the account's state answers UNKNOWN, DEFER(100 ms) or MOVED; for an OPEN account the commit of the
account record and the ORIGIN record is placed, and the entry stays in hand; a malformed one is answered MALFORMED. (The account that this
answer names when the account field does not read is the free value of log entry 78.) -/
def Obligations.PostIsDecided : Prop :=
  ∀ (s : State) (src : Src) (x : Parsed Posting) (rest : List BookReq),
    let r : BookReq := ⟨src, .post x⟩
    BookFront r rest s →
    (∀ node seq f, src = .line node seq → x = .bad f → LineOpen s →
      exec .bookTakePost s = .next (queued (newMsg .answer node seq (.answer .post (.account (badAccount f)) .malformed .none) .book 0) (bookTaken rest s))) ∧
    (∀ p, x = .ok p →
      let reply (c : AnsCode) (d : AnsData) : State := bookReplied r .post p.account c d (bookTaken rest s)
      (LineFor src s → aboveMark s p.id = false →
        exec .bookTakePost s = .next (bookReplied r .post p.account .doneAlready .none { s with book := { s.book with
          queue := rest, hand := none, cnt := { s.book.cnt with duplicates := bump s.book.cnt.duplicates } } })) ∧
      (LineFor src s → aboveMark s p.id = true →
        (accountOf s p.account = none → exec .bookTakePost s = .next (reply .unknown .none)) ∧
        (∀ a, accountOf s p.account = some a →
          (a.state = .yielding → exec .bookTakePost s = .next (reply .defer (.wait 10))) ∧
          (∀ h, a.state = .moved h → exec .bookTakePost s = .next (reply .moved (.newHome h))))) ∧
      (∀ a, aboveMark s p.id = true → accountOf s p.account = some a → a.state = .opened → p.kind ≠ .issue → ListOpen s →
        exec .bookTakePost s =
          .next (listed ⟨.bookPost, .group [.account p.account (.post p), .origin p.id]⟩ (bookHeld r rest s))))

/-- R17: an ISSUE is the checked debit. It is refused REFUSED_FUNDS, and nothing of the record changes, exactly when available funds less
its amount lie below the floor; otherwise its commit is placed, and the posting, once applied, has lowered the balance by its amount, left
it at or above the floor and the remaining amounts of the holds, and left SATURATED as it was. -/
def Obligations.IssueIsCheckedDebit : Prop :=
  ∀ (s : State) (src : Src) (p : Posting) (rest : List BookReq) (a : Account),
    let r : BookReq := ⟨src, .post (.ok p)⟩
    BookFront r rest s → p.kind = .issue → aboveMark s p.id = true → accountOf s p.account = some a → a.state = .opened →
    -999999999 ≤ a.floor → a.balance ≤ 999999999 →
    (LineFor src s → availableFunds s.book.holds a - p.amount < a.floor →
      exec .bookTakePost s = .next (bookReplied r .post p.account .refusedFunds .none (bookTaken rest s))) ∧
    (ListOpen s → a.floor ≤ availableFunds s.book.holds a - p.amount →
      exec .bookTakePost s =
        .next (listed ⟨.bookPost, .group [.account p.account (.post p), .origin p.id]⟩ (bookHeld r rest s))) ∧
    (a.floor ≤ availableFunds s.book.holds a - p.amount →
      (applyPosting p a).balance = a.balance - p.amount ∧ (applyPosting p a).saturated = a.saturated ∧
      a.floor + heldFunds s.book.holds a.number ≤ (applyPosting p a).balance)

/-- R15, R18, R29 to R35: what each kind of posting does to its account record when the crate types of its items are 1 to 8, each at most
once. A SALE credits its amount and the deposits of the crates met, takes those crates, and adds the others to the unmatched crates; a DRAW
and an ISSUE debit their amount and add the items; a SETTLE only debits, and of 0 cents leaves the record; a RETURN credits the deposits of
the crates met and takes them; a TRANSFER adds the carried balance, counts and unmatched crates, and combines the flags. The balance stops
at its ends and SATURATED is set; OVERDRAWN follows R18, a DRAW, a SETTLE and a negative carried balance being unchecked. Number, state and
floor stand, and the posting's identity is the record's last. Carried holds are adopted while the table has room, and counted as dropped
once it is full. -/
def Obligations.PostingEffects : Prop :=
  (∀ (p : Posting) (a : Account), a.crates.length = 8 → a.unmatched ≤ 65535 →
    let b := applyPosting p a
    let changed (sum : Int) (saturated unchecked overdrawn : Bool) : Prop :=
      b.balance = max (-999999999) (min 999999999 sum) ∧
      (b.saturated = true ↔ saturated = true ∨ sum < -999999999 ∨ 999999999 < sum) ∧
      b.overdrawn = (decide (b.balance < a.floor) && (unchecked || overdrawn))
    (b.number = a.number ∧ b.state = a.state ∧ b.floor = a.floor ∧ b.last = some p.id) ∧
    ((p.items.map (·.ctype)).Nodup → (∀ i ∈ p.items, 1 ≤ i.ctype ∧ i.ctype ≤ 8) → p.kind ≠ .transfer →
      let credit : Nat := (p.items.map fun i => min i.count (crateCount a.crates i.ctype) * i.deposit).sum
      b.crates.length = 8 ∧
      (p.kind = .sale → changed (a.balance + (p.amount + credit)) a.saturated false a.overdrawn ∧
        b.unmatched = min 65535 (a.unmatched + (p.items.map fun i => i.count - crateCount a.crates i.ctype).sum)) ∧
      (p.kind = .ret → changed (a.balance + credit) a.saturated false a.overdrawn) ∧
      (p.kind = .draw → changed (a.balance - p.amount) a.saturated true a.overdrawn) ∧
      (p.kind = .issue → changed (a.balance - p.amount) a.saturated false a.overdrawn) ∧
      (p.kind = .settle → 0 < p.amount → changed (a.balance - p.amount) a.saturated true a.overdrawn) ∧
      (p.kind = .settle → p.amount = 0 → b = { a with last := some p.id }) ∧
      (p.kind ≠ .sale → b.unmatched = a.unmatched) ∧
      (p.kind = .sale ∨ p.kind = .ret → ∀ i ∈ p.items,
        crateCount b.crates i.ctype = crateCount a.crates i.ctype - min i.count (crateCount a.crates i.ctype)) ∧
      (p.kind = .draw ∨ p.kind = .issue → ∀ i ∈ p.items,
        crateCount b.crates i.ctype = min 65535 (crateCount a.crates i.ctype + i.count)) ∧
      (p.kind = .settle → b.crates = a.crates) ∧
      (p.kind ≠ .settle → ∀ ty, 1 ≤ ty → ty ≤ 8 → (∀ i ∈ p.items, i.ctype ≠ ty) → crateCount b.crates ty = crateCount a.crates ty)) ∧
    (∀ t, p.kind = .transfer → p.transfer = some t → t.counts.length = 8 →
      changed (a.balance + t.balance) (a.saturated || t.saturated) (decide (t.balance < 0)) (a.overdrawn || t.overdrawn) ∧
      b.unmatched = min 65535 (a.unmatched + t.unmatched) ∧
      ∀ ty, 1 ≤ ty → ty ≤ 8 → crateCount b.crates ty = min 65535 (crateCount a.crates ty + crateCount t.counts ty))) ∧
  (∀ (acct : Nat) (cs : List CarriedHold) (hs : List Hold),
    (cs.map (·.key)).Nodup → (∀ c ∈ cs, findHold hs c.key = none) → hs.length ≤ 24 →
    adoptHolds acct cs hs =
      (hs ++ (cs.take (24 - hs.length)).map (fun c => ⟨c.key, acct, c.remaining, c.remaining, c.life, 0⟩), hs.length + cs.length - 24))

/-- R26 to R28, R30, R31, R35, R55: when the account write of a posting's commit ends DONE, the posting is applied whatever the ORIGIN write
does: the record takes the posting, no other record changes, the watermark of its origin becomes its identity and no other changes, so that
the same posting is never applied again, and the hold table and the answer are those of R28. When the account write fails, nothing is
applied and the answer is DEFER(1,000 ms). A posting of the line is answered there, one of the own EXC at the EXC. (That the record takes
the write count of its CURRENT copy at this point is the model's reading, log entry 25; that a RETURN without crates is DONE is its choice,
log entry 64.) -/
def Obligations.PostingAppliedOnce : Prop :=
  ∀ (s : State) (src : Src) (p : Posting) (a : Account) (res : StoreRes),
    let r : BookReq := ⟨src, .post (.ok p)⟩
    s.book.hand = some r → LineFor src s → nodeOk p.id.node = true → s.book.marks.length = 62 →
    accountOf s p.account = some a → s.sys.phase = .running →
    let after : Account := { applyPosting p a with writes := currentCount s.store (.account p.account) }
    let applied (holds : List Hold) (cnt : BookCounters) : State := { s with book := { s.book with
      hand := none, holds := holds, cnt := cnt, accounts := putAccount after s.book.accounts
      marks := s.book.marks.set (p.id.node - 1) ⟨p.id.epoch, p.id.number⟩ } }
    let answers (c : AnsCode) (d : AnsData) (t : State) : Prop := storeOutcome .bookPost res s = bookReplied r .post p.account c d t
    (res = .done ∨ res = .full 1 ∨ res = .fault 1 →
      let met : AnsData := .counts (p.items.map fun i => (i.ctype, min i.count (crateCount a.crates i.ctype)))
      let plain := applied s.book.holds s.book.cnt
      let lapsed := applied s.book.holds { s.book.cnt with lapsedAnswers := bump s.book.cnt.lapsedAnswers }
      (∀ holds cnt, let u := applied holds cnt
        aboveMark u p.id = false ∧ accountOf u p.account = some after ∧ ∀ n, n ≠ p.account → accountOf u n = accountOf s n) ∧
      (p.kind = .sale → answers .done met plain) ∧
      (p.kind = .issue → answers .done .none plain) ∧
      (p.kind = .ret →
        ((∀ i ∈ p.items, i.count ≤ crateCount a.crates i.ctype) → answers .done met plain) ∧
        (∀ i ∈ p.items, crateCount a.crates i.ctype < i.count → answers .clamped met plain)) ∧
      (∀ e n, p.kind = .draw → p.holdKey = some (e, n) →
        (findHold s.book.holds ⟨p.id.node, e, n⟩ = none → answers .lapsed .none lapsed) ∧
        ((findHold s.book.holds ⟨p.id.node, e, n⟩).isSome = true → answers .done .none (applied (s.book.holds.filterMap fun x =>
          if x.key ≠ ⟨p.id.node, e, n⟩ then some x
          else if p.amount < x.remaining then some { x with remaining := x.remaining - p.amount } else none) s.book.cnt))) ∧
      (∀ e n, p.kind = .settle → p.holdKey = some (e, n) →
        (findHold s.book.holds ⟨p.id.node, e, n⟩ = none → answers .lapsed .none lapsed) ∧
        ((findHold s.book.holds ⟨p.id.node, e, n⟩).isSome = true →
          answers .done .none (applied (s.book.holds.filter fun x => x.key != ⟨p.id.node, e, n⟩) s.book.cnt))) ∧
      (∀ part, p.kind = .transfer → p.transfer = some part →
        let q := adoptHolds p.account part.holds s.book.holds
        (q.2 = 0 → answers .done (.dropped 0) (applied q.1 s.book.cnt)) ∧
        (0 < q.2 → answers .done (.dropped q.2) (flagged .holdDropped
          (applied q.1 { s.book.cnt with droppedHolds := bumpBy q.2 s.book.cnt.droppedHolds }))))) ∧
    (res = .full 0 ∨ res = .fault 0 → answers .defer (.wait 100) { s with book := { s.book with
      hand := none, cnt := { s.book.cnt with storeRefusals := bump s.book.cnt.storeRefusals } } })

/-- R42, R19: a HOLD at the front of the book's queue. A key that stands for an OPEN account is answered GRANTED from its hold; a new key is
answered by the account's state, REFUSED_NO_ROOM when 24 holds stand, REFUSED_FUNDS when R19 gives nothing, and otherwise with the grant of
R19, which joins the table as granted and remaining amount with the lifetime asked for. A key that stands for an account which is not OPEN
is answered as a new key is, but that no second hold is granted under it: DEFER(100 ms), which is the model's choice, log entry 9. -/
def Obligations.HoldIsDecided : Prop :=
  ∀ (s : State) (src : Src) (h : HoldReq) (rest : List BookReq),
    let r : BookReq := ⟨src, .hold (.ok h)⟩
    BookFront r rest s → LineFor src s →
    let reply (c : AnsCode) (d : AnsData) : State := bookReplied r .hold h.account c d (bookTaken rest s)
    (∀ held, findHold s.book.holds h.key = some held → isOpen s held.account = true →
      exec .bookTakeHold s = .next (reply .granted (.amount held.remaining))) ∧
    ((∀ held, findHold s.book.holds h.key = some held → isOpen s held.account = false) →
      (accountOf s h.account = none → exec .bookTakeHold s = .next (reply .unknown .none)) ∧
      ∀ a, accountOf s h.account = some a →
        (a.state = .yielding → exec .bookTakeHold s = .next (reply .defer (.wait 10))) ∧
        (∀ n, a.state = .moved n → exec .bookTakeHold s = .next (reply .moved (.newHome n))) ∧
        (a.state = .opened → 24 ≤ s.book.holds.length → exec .bookTakeHold s = .next (reply .refusedNoRoom .none)) ∧
        (a.state = .opened → s.book.holds.length < 24 → grantAmount s.book.holds a h.amount h.acceptLess = none →
          exec .bookTakeHold s = .next (reply .refusedFunds .none)) ∧
        (∀ g c, a.state = .opened → s.book.holds.length < 24 → grantAmount s.book.holds a h.amount h.acceptLess = some (g, c) →
          (findHold s.book.holds h.key = none →
            exec .bookTakeHold s = .next (bookReplied r .hold h.account c (.amount g) { s with book := { s.book with
              queue := rest, hand := none, holds := s.book.holds ++ [⟨h.key, h.account, g, g, h.life, 0⟩] } })) ∧
          ((findHold s.book.holds h.key).isSome = true → exec .bookTakeHold s = .next (reply .defer (.wait 10)))))

/-- R43: a RELEASE whose key stands for an OPEN account removes that hold and is answered DONE, which frees its remaining amount; otherwise
the account's state gives the answer, and nothing is removed. No account record changes. -/
def Obligations.ReleaseIsDecided : Prop :=
  ∀ (s : State) (src : Src) (q : ReleaseReq) (rest : List BookReq),
    let r : BookReq := ⟨src, .release (.ok q)⟩
    BookFront r rest s → LineFor src s →
    let reply (c : AnsCode) (d : AnsData) : State := bookReplied r .release q.account c d (bookTaken rest s)
    (∀ held, findHold s.book.holds q.key = some held → isOpen s held.account = true →
      exec .bookTakeRelease s = .next (bookReplied r .release q.account .done .none { s with book := { s.book with
        queue := rest, hand := none, holds := dropHold q.key s.book.holds } }) ∧
      ((s.book.holds.map (·.key)).Nodup → ∀ a : Account, a.number = held.account →
        availableFunds (dropHold q.key s.book.holds) a = availableFunds s.book.holds a + held.remaining)) ∧
    (findHold s.book.holds q.key = none ∨ (∃ held, findHold s.book.holds q.key = some held ∧ isOpen s held.account = false) →
      (accountOf s q.account = none → exec .bookTakeRelease s = .next (reply .unknown .none)) ∧
      ∀ a, accountOf s q.account = some a →
        (a.state = .opened → exec .bookTakeRelease s = .next (reply .done .none)) ∧
        (a.state = .yielding → exec .bookTakeRelease s = .next (reply .defer (.wait 10))) ∧
        (∀ n, a.state = .moved n → exec .bookTakeRelease s = .next (reply .moved (.newHome n))))

/-- R24, R45 to R47: a LOCATE of the line is answered HOME to all nodes for an OPEN account and not at all otherwise. An OPENED or a HOME of
a node with a higher number has the book place an OPENED of its own for an OPEN account; of a lower number, it has the book place the commit
of the record as YIELDING; for an account that is not OPEN, or naming the node itself, it ends without a change. When that commit ends DONE
the record is YIELDING and a TRANSFER to the lower node is asked for; when it fails the record stays OPEN. The TRANSFER, once created,
carries the record and its holds, which leave the hold table. (The write count taken is the model's reading, log entry 25; that the TRANSFER
stands at the head of the free places at the moment of its creation is its choice, log entry 91.) -/
def Obligations.HomesAreCompared : Prop :=
  ∀ (s : State) (rest : List BookReq) (a : Nat) (src : Src),
    (∀ node seq, src = .line node seq → BookFront ⟨src, .locate (.ok a)⟩ rest s →
      (isOpen s a = true → LineOpen s →
        exec .bookTakeLocate s = .next (queued (newMsg .answer 0 seq (.home a) .book 0) (bookTaken rest s))) ∧
      (isOpen s a = false → exec .bookTakeLocate s = .next (bookTaken rest s))) ∧
    (∀ n (c : Instr) (ask : BookAsk),
      (c = .bookTakeOpened ∧ ask = .opened n (.ok a)) ∨ (c = .bookTakeHome ∧ ask = .home n (.ok a)) →
      BookFront ⟨src, ask⟩ rest s →
      (isOpen s a = false ∨ n = s.node.number → exec c s = .next (bookTaken rest s)) ∧
      (isOpen s a = true → s.node.number < n → LineOpen s →
        exec c s = .next (queued (newMsg .notice 0 0 (.opened a) .book 0) (bookTaken rest s))) ∧
      (isOpen s a = true → n < s.node.number → ListOpen s →
        exec c s =
          .next (listed ⟨.bookYield a n, .group [.account a (.setState .yielding)]⟩ (bookHeld ⟨src, ask⟩ rest s)))) ∧
    (∀ n acc, accountOf s a = some acc →
      let yields (st : YieldStage) : List Yield := (s.book.yields.filter fun y => y.acct != a) ++ [⟨a, n, st⟩]
      (PostReady s → ListOpen s → storeOutcome (.bookYield a n) .done s =
        postAsked (.transfer a) ⟨default, .transfer, a, 0, [], none, none⟩ n { s with book := { s.book with
          hand := none, yields := yields .asking
          accounts := putAccount { acc with state := .yielding, writes := currentCount s.store (.account a) } s.book.accounts } }) ∧
      (∀ res, res ≠ .done → storeOutcome (.bookYield a n) res s = { s with book := { s.book with
        hand := none, cnt := { s.book.cnt with storeRefusals := bump s.book.cnt.storeRefusals } } }) ∧
      (∀ q qs p, s.exc.work = some (.create (transferReq a n) [p]) → s.exc.free = q :: qs → s.exc.jobs = [] → p.account = a → p.kind = .transfer →
        yieldOf s a = some ⟨a, n, .asking⟩ → s.node.epoch = s.sys.epoch → s.node.nextPosting ≤ 65535 → s.exc.entries = [] →
        let t := storeOutcome .excWork .done s
        t.book = { s.book with holds := s.book.holds.filter (fun h => h.account != a), yields := yields .running } ∧
        let part : TransferPart := {
          balance := acc.balance, floor := acc.floor, saturated := acc.saturated, overdrawn := acc.overdrawn
          unmatched := acc.unmatched, counts := acc.crates
          holds := (s.book.holds.filter fun h => h.account == a).map fun h => ⟨h.key, h.remaining, h.life⟩ }
        t.exc.entries = [makeEntry q ⟨.post { p with transfer := some part }, .transfer a, some a, some n, false⟩] ∧
        t.store = s.store))

/-- R37 to R40: the book commands of the station port, once taken. OPEN ends HOME HERE, DEFER, MOVED, NOT ACTIVE, NOT CONFIGURED or BOOK
FULL, in this order, or has the creation committed; ADJUST, REMOVE and CLEAR FLAGS end NO ACCOUNT, BUSY or MOVED by the account's state, or
have their commit or removal placed; REMOVE ends NOT EMPTY when anything is left, and CLEAR FLAGS ends DONE when SATURATED is clear. A local
opening is decided in the same order, has the same commit placed, with a limit of 0 for a buyer, and gives its outcome to the EXC. When its
commit ends DONE, OPEN brings the new record into the table and sends OPENED, ADJUST adds the amount, REMOVE drops the record and CLEAR
FLAGS clears SATURATED; a failed commit leaves the table as it was and gives its code and a store refusal (one refused for the reserve too,
log entry 65; the write count taken is log entry 25; MOVED comes without the new home, log entry 66). -/
def Obligations.BookCommandsTaken : Prop :=
  ∀ (s : State) (rest : List BookReq) (a : Nat), s.sys.phase = .running → ListOpen s →
    let front (ask : BookAsk) : Prop := BookFront ⟨.port, ask⟩ rest s
    let ended (cmd : BookCmd) (c : PCode) : State := bookCmdEnded cmd a c (bookTaken rest s)
    let placed (ask : BookAsk) (o : Owner) (w : StoreWork) : State := listed ⟨o, w⟩ (bookHeld ⟨.port, ask⟩ rest s)
    (accountOf s a = none →
      (∀ l, front (.cmdOpen a l) →
        (s.lif.state ≠ .active → exec .bookTakeOpen s = .next (ended .openCmd .notActive)) ∧
        (s.lif.state = .active → isBoat a = false → 128 ≤ s.book.accounts.length →
          exec .bookTakeOpen s = .next (ended .openCmd .bookFull)) ∧
        (s.lif.state = .active → isBoat a = false → s.book.accounts.length < 128 →
          exec .bookTakeOpen s =
            .next (placed (.cmdOpen a l) (.bookOpen (-(l : Int))) (.group [.account a (.create (-(l : Int)))]))) ∧
        (s.lif.state = .active → isBoat a = true → s.port.cfg.boatFloor = none →
          exec .bookTakeOpen s = .next (ended .openCmd .notConfigured)) ∧
        (∀ f, s.lif.state = .active → isBoat a = true → s.port.cfg.boatFloor = some f →
          (128 ≤ s.book.accounts.length → exec .bookTakeOpen s = .next (ended .openCmd .bookFull)) ∧
          (s.book.accounts.length < 128 →
            exec .bookTakeOpen s = .next (placed (.cmdOpen a l) (.bookOpen f) (.group [.account a (.create f)]))))) ∧
      (∀ q, BookFront ⟨.own q, .localOpen q a⟩ rest s →
        let told (r : OpenRes) : Prop := exec .bookTakeLocalOpening s = .next (openingEnded q r (bookTaken rest s))
        let creates (f : Int) : Prop := exec .bookTakeLocalOpening s =
          .next (listed ⟨.bookOpen f, .group [.account a (.create f)]⟩ (bookHeld ⟨.own q, .localOpen q a⟩ rest s))
        (s.lif.state ≠ .active → told (.code .notActive)) ∧
        (s.lif.state = .active →
          (isBoat a = true → s.port.cfg.boatFloor = none → told (.code .notConfigured)) ∧
          (isBoat a = false ∨ s.port.cfg.boatFloor ≠ none → 128 ≤ s.book.accounts.length → told (.code .bookFull)) ∧
          (isBoat a = false → s.book.accounts.length < 128 → creates 0) ∧
          (∀ f, isBoat a = true → s.port.cfg.boatFloor = some f → s.book.accounts.length < 128 → creates f))) ∧
      (∀ v, front (.cmdAdjust a v) → exec .bookTakeAdjust s = .next (ended .adjust .noAccount)) ∧
      (front (.cmdRemove a) → exec .bookTakeRemove s = .next (ended .remove .noAccount)) ∧
      (front (.cmdClear a) → exec .bookTakeClearFlags s = .next (ended .clearFlags .noAccount))) ∧
    (∀ acc, accountOf s a = some acc →
      (∀ l, front (.cmdOpen a l) →
        (acc.state = .opened → exec .bookTakeOpen s = .next (ended .openCmd .homeHere)) ∧
        (acc.state = .yielding → exec .bookTakeOpen s = .next (ended .openCmd .defer)) ∧
        (∀ h, acc.state = .moved h → exec .bookTakeOpen s = .next (ended .openCmd .moved))) ∧
      (∀ q, BookFront ⟨.own q, .localOpen q a⟩ rest s →
        let told (r : OpenRes) : Prop := exec .bookTakeLocalOpening s = .next (openingEnded q r (bookTaken rest s))
        (acc.state = .opened → told .done) ∧ (acc.state = .yielding → told .defer) ∧ (∀ h, acc.state = .moved h → told (.moved h))) ∧
      (∀ v, front (.cmdAdjust a v) →
        (acc.state = .opened → exec .bookTakeAdjust s =
          .next (placed (.cmdAdjust a v) .bookAdjust (.group [.account a (.adjust v)]))) ∧
        (acc.state = .yielding → exec .bookTakeAdjust s = .next (ended .adjust .busy)) ∧
        (∀ h, acc.state = .moved h → exec .bookTakeAdjust s = .next (ended .adjust .moved))) ∧
      (front (.cmdRemove a) →
        (acc.state = .opened → removable s acc = true →
          exec .bookTakeRemove s = .next (placed (.cmdRemove a) .bookRemove (.removal (.account a)))) ∧
        (acc.state = .opened → removable s acc = false → exec .bookTakeRemove s = .next (ended .remove .notEmpty)) ∧
        (acc.state = .yielding → exec .bookTakeRemove s = .next (ended .remove .busy)) ∧
        (∀ h, acc.state = .moved h →
          exec .bookTakeRemove s = .next (placed (.cmdRemove a) .bookRemove (.removal (.account a))))) ∧
      (front (.cmdClear a) →
        (acc.state = .opened → acc.saturated = true →
          exec .bookTakeClearFlags s = .next (placed (.cmdClear a) .bookClear (.group [.account a .clearFlags]))) ∧
        (acc.state = .opened → acc.saturated = false → exec .bookTakeClearFlags s = .next (ended .clearFlags .done)) ∧
        (acc.state = .yielding → exec .bookTakeClearFlags s = .next (ended .clearFlags .busy)) ∧
        (∀ h, acc.state = .moved h → exec .bookTakeClearFlags s = .next (ended .clearFlags .moved)))) ∧
    (let inHand (ask : BookAsk) : Prop := s.book.hand = some ⟨.port, ask⟩
     let writes := currentCount s.store (.account a)
     let table (accounts : List Account) : State := { s with book := { s.book with accounts := accounts } }
     let refused : State := { s with book := { s.book with
       cnt := { s.book.cnt with storeRefusals := bump s.book.cnt.storeRefusals } } }
     let fails (cmd : BookCmd) (o : Owner) : Prop := ∀ i,
       storeOutcome o (.full i) s = bookCmdEnded cmd a .storeFull refused ∧
       storeOutcome o (.fault i) s = bookCmdEnded cmd a .storeFault refused
     let opened (f : Int) : State := queued (newMsg .notice 0 0 (.opened a) .book 0) (table (putAccount
       { number := a, state := .opened, balance := 0, floor := f, crates := List.replicate 8 0, unmatched := 0, saturated := false
         overdrawn := false, last := none, writes := writes } s.book.accounts))
     let free (t : State) : State := { t with book := { t.book with hand := none } }
     (∀ l f, inHand (.cmdOpen a l) → fails .openCmd (.bookOpen f) ∧
       (accountOf s a = none → LineOpen s → storeOutcome (.bookOpen f) .done s = bookCmdEnded .openCmd a .done (opened f))) ∧
     (∀ q f, s.book.hand = some ⟨.own q, .localOpen q a⟩ →
       (∀ i, storeOutcome (.bookOpen f) (.full i) s = openingEnded q (.code .storeFull) (free refused) ∧
         storeOutcome (.bookOpen f) (.fault i) s = openingEnded q (.code .storeFault) (free refused)) ∧
       (accountOf s a = none → LineOpen s → storeOutcome (.bookOpen f) .done s = openingEnded q .done (free (opened f)))) ∧
     (inHand (.cmdRemove a) → ∀ r, storeOutcome .bookRemove r s =
       bookCmdEnded .remove a .done (table (s.book.accounts.filter fun x => x.number != a))) ∧
     (∀ acc v, accountOf s a = some acc → inHand (.cmdAdjust a v) → fails .adjust .bookAdjust ∧
       storeOutcome .bookAdjust .done s = bookCmdEnded .adjust a .done (table (putAccount
         { addBalance (if v < 0 then .unchecked else .other) v acc with writes := writes } s.book.accounts))) ∧
     (∀ acc, accountOf s a = some acc → inHand (.cmdClear a) → fails .clearFlags .bookClear ∧
       storeOutcome .bookClear .done s = bookCmdEnded .clearFlags a .done (table (putAccount
         { acc with saturated := false, writes := writes } s.book.accounts))))

/-- R22, R44, R46, R47, R113: the events of the book's waits. A waiting request of the own EXC takes a place in the queue that has become
free, and counts as a send unless it is a local opening; a second of a hold's lifetime lowers it, and the last one removes the hold and
counts it; 1,000 ms after a failed commit the state of a yielding record is committed again. The outcome of the TRANSFER has the stub, or
the OPEN record, committed, and that commit's end ends the yield, with OPENED after UNKNOWN; a TRANSFER that FAILED is withdrawn, its record
removed, and the account committed OPEN; holds dropped or lost are counted, with HOLD_DROPPED. A TRANSFER that the EXC refuses, at once or
with its commit, is asked for again 1,000 ms later, or, at EPOCH EXHAUSTED, the account is committed OPEN. (The write count taken is log
entry 25. That HOLD_DROPPED is not raised when no hold is dropped or lost is the model's reading, log entry 22; that a local opening counts
as no send is its choice, log entry 80. That a timer event which is not due changes nothing is the model's choice, log entry 2.) -/
def Obligations.BookWaits : Prop :=
  ∀ s : State,
    (∀ r rest, s.book.wait = r :: rest → s.book.queue.length < 16 →
      exec .bookQueuePlaceWaiting s = .next { s with
        book := { s.book with queue := s.book.queue ++ [r], wait := rest }
        exc := { s.exc with cnt := { s.exc.cnt with
          sends := if isHandOver r then bump s.exc.cnt.sends else s.exc.cnt.sends } } }) ∧
    (∀ k h, findHold s.book.holds k = some h → 1000 ≤ h.ms →
      (h.life ≤ 1 → exec (.holdLifetimeSecond k.node k.epoch k.number) s = .next { s with book := { s.book with
        holds := s.book.holds.filter fun x => x.key != k
        cnt := { s.book.cnt with lapsedHolds := bump s.book.cnt.lapsedHolds } } }) ∧
      (1 < h.life → exec (.holdLifetimeSecond k.node k.epoch k.number) s = .next { s with book := { s.book with
        holds := s.book.holds.map fun x => if x.key = k then { x with life := x.life - 1, ms := x.ms - 1000 } else x } })) ∧
    (∀ k h, findHold s.book.holds k = some h → h.ms < 1000 → exec (.holdLifetimeSecond k.node k.epoch k.number) s = .next s) ∧
    (∀ a y, yieldOf s a = some y → y.acct = a → ListOpen s →
      let staged (st : YieldStage) : State := { s with book := { s.book with
        yields := (s.book.yields.filter fun x => x.acct != a) ++ [{ y with stage := st }] } }
      (y.stage = .reopenWait 0 → exec (.bookYieldRetry a) s =
        .next (listed ⟨.bookState a, .group [.account a (.setState .opened)]⟩ (staged .reopening))) ∧
      (∀ fin notify, y.stage = .finishWait fin notify 0 → exec (.bookStateCommitRetry a) s =
        .next (listed ⟨.bookState a, .group [.account a (.setState fin)]⟩ (staged (.finishing fin notify))))) ∧
    (∀ a y e p node, yieldOf s a = some y → y.acct = a → y.stage = .running → e.ref = .transfer a → e.body = .post p →
      findEntry s e.seq = none → ListOpen s → s.sys.phase = .running →
      let finishing (fin : AcctState) (notify : Bool) (dropped : Nat) (out : ExcOut) : Prop :=
        let u := unitOutcome e out s
        u.store.list = s.store.list ++ [⟨.bookState a, .group [.account a (.setState fin)]⟩] ∧
        u.book.yields = (s.book.yields.filter fun x => x.acct != a) ++ [{ y with stage := .finishing fin notify }] ∧
        u.book.accounts = s.book.accounts ∧
        u.book.cnt.droppedHolds = (if dropped = 0 then s.book.cnt.droppedHolds else bumpBy dropped s.book.cnt.droppedHolds) ∧
        u.port.flags = (if dropped = 0 then s.port.flags else s.port.flags ||| flagBit .holdDropped)
      (∀ n, finishing (.moved node) false n (.answer .done (.dropped n) node)) ∧
      finishing (.moved node) false 0 (.answer .doneAlready .none node) ∧
      finishing .opened true (match p.transfer with | some t => t.holds.length | none => 0) (.answer .unknown .none node)) ∧
    (∀ a y e p last, yieldOf s a = some y → y.acct = a → y.stage = .running → e.ref = .transfer a → e.body = .post p →
      s.exc.entries.find? (fun x => x.ref == .transfer a && x.state == .failed) = some e → findEntry s e.seq = some e → e.removing = false →
      s.store.erasing = none → s.store.list.length + s.store.pend.length < 7 → s.sys.phase = .running →
      let dropped := match p.transfer with | some t => t.holds.length | none => 0
      let u := unitOutcome e (.failed last) s
      findEntry u e.seq = some { e with state := .doneToUnit, deadline := none, tok := 0, removing := true } ∧
      u.store.list = s.store.list ++ [⟨.outRemoval p.id, .removal (.outbound p.id.epoch p.id.number)⟩,
        ⟨.bookState a, .group [.account a (.setState .opened)]⟩] ∧
      u.book.yields = (s.book.yields.filter fun x => x.acct != a) ++ [{ y with stage := .finishing .opened false }] ∧
      u.book.accounts = s.book.accounts ∧
      u.book.cnt.droppedHolds = (if dropped = 0 then s.book.cnt.droppedHolds else bumpBy dropped s.book.cnt.droppedHolds) ∧
      u.port.flags = (if dropped = 0 then s.port.flags else s.port.flags ||| flagBit .holdDropped)) ∧
    (∀ a y, yieldOf s a = some y → y.acct = a →
      let staged (st : YieldStage) : State := { s with book := { s.book with
        yields := (s.book.yields.filter fun x => x.acct != a) ++ [{ y with stage := st }] } }
      (y.stage = .askWait 0 → openPlaces s.exc ≠ 0 →
        (PostReady s → ListOpen s → exec (.bookYieldRetry a) s =
          .next (postAsked (.transfer a) ⟨default, .transfer, a, 0, [], none, none⟩ y.target (staged .asking))) ∧
        (s.sys.epochState = .exhausted → ListOpen s → exec (.bookYieldRetry a) s =
          .next (listed ⟨.bookState a, .group [.account a (.setState .opened)]⟩ (staged .reopening))) ∧
        (s.sys.epochState = .notTaken → exec (.bookYieldRetry a) s = .next (staged (.askWait 1000)))) ∧
      (∀ p res, y.stage = .asking → s.exc.work = some (.create (transferReq a y.target) [p]) → s.exc.jobs = [] →
        res = .full 0 ∨ res = .fault 0 → storeOutcome .excWork res s =
          { staged (.askWait 1000) with exc := { s.exc with work := none } }) ∧
      (y.stage = .reopening →
        (∀ acc, accountOf s a = some acc → storeOutcome (.bookState a) .done s = { s with book := { s.book with
          yields := s.book.yields.filter fun x => x.acct != a
          accounts := putAccount { acc with state := .opened, writes := currentCount s.store (.account a) } s.book.accounts } }) ∧
        ∀ r, r ≠ .done → storeOutcome (.bookState a) r s =
          (let t := staged (.reopenWait 1000);
            { t with book := { t.book with cnt := { s.book.cnt with storeRefusals := bump s.book.cnt.storeRefusals } } }))) ∧
    (∀ a y acc fin notify, yieldOf s a = some y → y.acct = a → y.stage = .finishing fin notify → accountOf s a = some acc →
      let ended : State := { s with book := { s.book with
        yields := s.book.yields.filter fun x => x.acct != a
        accounts := putAccount { applyState fin acc with writes := currentCount s.store (.account a) } s.book.accounts } }
      (notify = false → storeOutcome (.bookState a) .done s = ended) ∧
      (notify = true → y.target ≠ 0 → LineOpen s →
        storeOutcome (.bookState a) .done s = queued (newMsg .notice 0 0 (.opened a) .book 0) ended) ∧
      (∀ n, fin = .moved n → applyState fin acc = { acc with
        state := .moved n, balance := 0, floor := 0, crates := List.replicate 8 0, unmatched := 0, saturated := false, overdrawn := false }) ∧
      (∀ r, r ≠ .done → storeOutcome (.bookState a) r s = { s with book := { s.book with
        yields := (s.book.yields.filter fun x => x.acct != a) ++ [{ y with stage := .finishWait fin notify 1000 }]
        cnt := { s.book.cnt with storeRefusals := bump s.book.cnt.storeRefusals } } }))

/-- R101: RETRY makes a FAILED posting QUEUED with sends, deferrals and moves at 0, and one whose re-identification failed starts again at
step 1 of R110: the home map is updated and a new identity is put to a commit; DISCARD gives it up, and where its unit is not in service has
the removal of its OUTBOUND record placed. A sequence that names no FAILED posting is refused NOT FAILED, one above 31 BAD VALUE. -/
def Obligations.RetryAndDiscard : Prop :=
  ∀ (s : State) (q : Nat), Taken s →
    (31 < q → exec (.retry true q) s = .next (answered .badValue .none s) ∧
      exec (.discard true q) s = .next (answered .badValue .none s)) ∧
    (q ≤ 31 → failedPost s q = none → exec (.retry true q) s = .next (answered .notFailed .none s) ∧
      exec (.discard true q) s = .next (answered .notFailed .none s)) ∧
    (∀ e, q ≤ 31 → failedPost s q = some e → e.reident = none →
      exec (.retry true q) s = .next (answered .done .none (putEntry { e with
        state := .queued, sends := 0, deferrals := 0, moves := 0, deadline := none, tok := 0 } s))) ∧
    (∀ e p a n, q ≤ 31 → failedPost s q = some e → e.body = .post p → e.account = some a → e.reident = some n → CommitReady s → ListOpen s →
      exec (.retry true q) s = .next (answered .done .none (reidentAsked { e with
        state := .queued, sends := 0, deferrals := 0, moves := 0, deadline := none, tok := 0, reident := none } p
          (mapMoved a n s)))) ∧
    (∀ e p, q ≤ 31 → failedPost s q = some e → e.body = .post p → e.removing = false → listRoom s = true →
      unitInService s e.ref = false →
      ∃ t, exec (.discard true q) s = .next t ∧ t.port.buf.code = .done ∧
        t.store.list = s.store.list ++ [⟨.outRemoval p.id, .removal (.outbound p.id.epoch p.id.number)⟩] ∧
        t.exc.entries = setEntryIn { e with state := .doneToUnit, deadline := none, tok := 0, removing := true }
          (setEntryIn { e with state := .doneToUnit, deadline := none, tok := 0 } s.exc.entries))

/-! ### The Exchange Controller (chapter 5) -/

/-- R94 to R96, R99, R113: the entry that became ready first is sent, to the line or to the own book, and counted as a send once its request
has a place; an entry whose answer timeout runs out is sent again, and after its fourth send becomes FAILED, with POSTING_FAILED latched and
the empty failure capture filled; a DEFERRED entry is sent again when its wait ends. (That a timer event which is not due changes nothing is
the model's choice, log entry 2; that a request waits behind those that already wait for a slot, though fewer than 24 stand in the send
queue, is its reading, log entry 12.) -/
def Obligations.EntriesAreSent : Prop :=
  ∀ (s : State) (e : Entry), findEntry s e.seq = some e →
    let sent : Entry := { e with state := .sent, sends := e.sends + 1, deadline := none, tok := s.exc.tok }
    let out (d timeouts : Nat) : State :=
      queued (newMsg .request d e.seq (.request e.account e.body) .exc s.exc.tok) (putEntry sent { s with exc := { s.exc with
        tok := s.exc.tok + 1, cnt := { s.exc.cnt with sends := bump s.exc.cnt.sends, timeouts := timeouts } } })
    (∀ d, LineOpen s → e.dest = some d → d ≠ s.node.number →
      (∀ rest, s.exc.ready = e.seq :: rest → exec .excSend s = .next (out d s.exc.cnt.timeouts)) ∧
      (e.state = .sent → e.deadline = some 0 → e.sends < 4 →
        exec (.excAnswerTimeout e.seq) s = .next (out d (bump s.exc.cnt.timeouts))) ∧
      (e.state = .deferred → e.deadline = some 0 → exec (.excDeferWaitEnd e.seq) s = .next (out d s.exc.cnt.timeouts))) ∧
    (∀ ask rest, s.lif.state = .active → s.exc.ready = e.seq :: rest → e.dest = some s.node.number → ownAsk e = some ask →
      bookRoom s = true →
      exec .excSend s = .next (let t := putEntry sent { s with exc := { s.exc with
          tok := s.exc.tok + 1, cnt := { s.exc.cnt with sends := bump s.exc.cnt.sends } } }
        { t with book := { s.book with queue := s.book.queue ++ [⟨.own e.seq, ask⟩] } })) ∧
    (∀ d rest, s.lif.state = .active → sendRoom s = false → s.exc.ready = e.seq :: rest → e.dest = some d → d ≠ s.node.number →
      exec .excSend s = .next (putEntry sent { s with
        exc := { s.exc with tok := s.exc.tok + 1 }
        lif := { s.lif with
          wait := s.lif.wait ++ [⟨newMsg .request d e.seq (.request e.account e.body) .exc s.exc.tok, .nothing⟩] } })) ∧
    (∀ p, e.state = .sent → e.deadline = some 0 → 4 ≤ e.sends → e.body = .post p → s.sys.phase = .running →
      unitInService s e.ref = false → s.exc.capture = none →
      ∃ t, exec (.excAnswerTimeout e.seq) s = .next t ∧
        t.port.flags = s.port.flags ||| flagBit .postingFailed ∧
        t.exc.capture = some ⟨e.seq, p.kind, p.account, e.dest.getD 0, p.id, .noAnswer⟩ ∧
        t.exc.entries = setEntryIn { e with state := .failed, last := some .noAnswer, deadline := none, tok := 0 } s.exc.entries ∧
        t.exc.cnt = { s.exc.cnt with timeouts := bump s.exc.cnt.timeouts, failed := bump s.exc.cnt.failed } ∧ t.lif = s.lif) ∧
    (e.state = .sent → e.deadline = some 0 → 4 ≤ e.sends → s.sys.phase = .running →
      exec (.excAnswerTimeout e.seq) s = .next (entryFailed e .noAnswer
        { s with exc := { s.exc with cnt := { s.exc.cnt with timeouts := bump s.exc.cnt.timeouts } } })) ∧
    (e.deadline ≠ some 0 → exec (.excAnswerTimeout e.seq) s = .next s ∧ exec (.excDeferWaitEnd e.seq) s = .next s)

/-- R91, R103 to R106, R113: the events of searches. A first window that ends without a HOME and a search whose DEFER has been waited out
have LOCATE placed again; a window with HOMEs resolves the entry, and one that waits on it, to the lowest of them and the home map takes it;
a second window without a HOME has the search wait out its longest DEFER, or ends it FAILED where that would be the twenty-first deferral;
without a DEFER it places the local opening of an entry with open-if-none set, and otherwise ends the search with no home. A local opening
is placed again 100 ms after its DEFER, gives home this node or node n, and otherwise its code, so that one that ends NOT ACTIVE ends the
WEIGH that asked; and a request that waited for a place is created once there is one. (That each LOCATE placed counts as a send, and a
search that begins again as a search, is the model's reading, log entry 21; so is that a local opening which ends NOT ACTIVE ends the WEIGH
NOT ACTIVE, log entry 56. That a local opening counts as no send is its choice, log entry 80; so are that one ending MOVED(n) leaves the
home map as it was, log entry 81, and that the weigh result of one ending NOT ACTIVE holds the boat, log entry 85.) -/
def Obligations.SearchesEnd : Prop :=
  ∀ (s : State) (e : Entry), findEntry s e.seq = some e →
    let located (second : Bool) (homes : List Nat) (tens : Option Nat) (searches : Nat) : State :=
      queued (newMsg .request 0 e.seq (.request e.account .locate) .exc s.exc.tok)
        (putEntry { e with search := some (.placing second homes tens), tok := s.exc.tok } { s with exc := { s.exc with
          tok := s.exc.tok + 1, cnt := { s.exc.cnt with sends := bump s.exc.cnt.sends, searches := searches } } })
    (∀ tens, LineOpen s → e.search = some (.window false [] tens 0) →
      exec (.locateWindowEnd e.seq) s = .next (located true [] tens s.exc.cnt.searches)) ∧
    (∀ homes, LineOpen s → e.search = some (.waiting homes 0) →
      exec (.locateSearchDeferEnd e.seq) s = .next (located false homes none (bump s.exc.cnt.searches))) ∧
    (∀ second homes tens n a, e.search = some (.window second homes tens 0) → n ∈ homes → (∀ m ∈ homes, n ≤ m) →
      e.account = some a → e.body.kind = .hold ∨ e.body.kind = .release →
      (s.exc.entries.filter fun x => x.seq == e.seq) = [e] → (∀ x ∈ s.exc.entries, x.search ≠ some .onOther) →
      exec (.locateWindowEnd e.seq) s =
        .next (putEntry { e with state := .queued, dest := some n, search := none, fromMap := false, tok := 0 } (mapEnter a n s))) ∧
    (∀ homes tens n a x, e.search = some (.window true homes tens 0) → n ∈ homes → (∀ m ∈ homes, n ≤ m) → e.account = some a →
      (e.body.kind = .hold ∨ e.body.kind = .release) → (x.body.kind = .hold ∨ x.body.kind = .release) → x.seq ≠ e.seq →
      findEntry s x.seq = some x → (s.exc.entries.filter fun y => y.seq == e.seq ||
        (y.state == .unresolved && y.account == e.account && y.search == some .onOther)) = [e, x] →
      let home (y : Entry) : Entry := { y with state := .queued, dest := some n, search := none, fromMap := false, tok := 0 }
      exec (.locateWindowEnd e.seq) s = .next (putEntry (home x) (putEntry (home e) (mapEnter a n s)))) ∧
    (let done : Entry := { e with search := none }
     let alone : Prop := (s.exc.entries.filter fun x => x.seq == e.seq) = [e] ∧ ∀ x ∈ s.exc.entries, x.search ≠ some .onOther
     let noHome : State := { s with exc := { s.exc with cnt := { s.exc.cnt with noHome := bump s.exc.cnt.noHome } } }
     (∀ w, e.search = some (.window true [] (some w) 0) →
       (e.deferrals < 20 → exec (.locateWindowEnd e.seq) s =
         .next (putEntry { e with deferrals := e.deferrals + 1, search := some (.waiting [] (w * 10)) } s)) ∧
       (20 ≤ e.deferrals → e.isPost = false → alone → exec (.locateWindowEnd e.seq) s =
         .next (unitOutcome done (.failed (.code .defer)) (freePlace e.seq
           { s with exc := { s.exc with cnt := { s.exc.cnt with failed := bump s.exc.cnt.failed } } })))) ∧
     (e.search = some (.window true [] none 0) →
       (e.openIfNone = false → alone →
         exec (.locateWindowEnd e.seq) s = .next (unitOutcome done .noHome (freePlace e.seq noHome))) ∧
       (∀ a, e.openIfNone = true → e.account = some a → bookRoom s = true → exec (.locateWindowEnd e.seq) s =
         .next (let t := putEntry { e with search := some .opening } noHome
           { t with book := { s.book with queue := s.book.queue ++ [⟨.own e.seq, .localOpen e.seq a⟩] } }))) ∧
     (e.search = some .opening → e.body = .locate → alone →
       openingEnded e.seq .done s = unitOutcome done (.home s.node.number) (freePlace e.seq s) ∧
       (∀ n, openingEnded e.seq (.moved n) s = unitOutcome done (.home n) (freePlace e.seq s)) ∧
       ∀ c, openingEnded e.seq (.code c) s = unitOutcome done (.opening c) (freePlace e.seq s))) ∧
    (∀ a, e.search = some (.openWait 0) → e.account = some a → bookRoom s = true →
      exec (.localOpeningRetry e.seq) s =
        .next (let t := putEntry { e with search := some .opening } s
          { t with book := { s.book with queue := s.book.queue ++ [⟨.own e.seq, .localOpen e.seq a⟩] } })) ∧
    (∀ a rest, e.search = some .opening → BookFront ⟨.own e.seq, .localOpen e.seq a⟩ rest s →
      (∀ acc, accountOf s a = some acc → acc.state = .yielding →
        exec .bookTakeLocalOpening s = .next (putEntry { e with search := some (.openWait 100) } (bookTaken rest s))) ∧
      (∀ g, accountOf s a = none → s.lif.state ≠ .active → e.body = .locate → e.ref = .weighLocate → s.port.role = some .scale →
        s.wgu.weigh = some g → g.stage = .resolving (some e.seq) → s.sys.phase = .running →
        (s.exc.entries.filter fun x => x.seq == e.seq) = [e] → (∀ x ∈ s.exc.entries, x.search ≠ some .onOther) →
        exec .bookTakeLocalOpening s = .next (freePlace e.seq (flagged .weighDone { bookTaken rest s with wgu := { s.wgu with
          weigh := none, result := some { code := .notActive, boat := g.boat }
          cnt := { s.wgu.cnt with weighsFailed := bump s.wgu.cnt.weighsFailed } } })))) ∧
    (∀ k a d q qs rest, s.exc.asks = ⟨.cluRelease, [⟨.release k, .cluRelease, some a, some d, false⟩]⟩ :: rest →
      PlaceOpen q qs s →
      exec .excFreePlaceRetry s = .next (refreshReady { s with exc := { s.exc with
        asks := rest, free := qs
        entries := putEntryIn (makeEntry q ⟨.release k, .cluRelease, some a, some d, false⟩) s.exc.entries } }))

/-! ### The Book Store (chapter 3) -/

/-- R54, R55, R57, R59, R60: a pending request takes a place of the list that has become free. With no operation in progress the STORE takes
the oldest request: a group with creations of records other than ORIGIN and NODE is refused STORE FULL when FREE and DIRTY slots, less the
number of such creations, are below 8, and otherwise its first write goes to the lowest FREE slot, or has the lowest DIRTY slot erased
first, or ends STORE FULL when there is neither; an update past the last write count ends STORE FAULT; a removal erases the record's DIRTY
slots, and its CURRENT slot when it has no older copy; a calibration page is written while one is unwritten. Without requests one DIRTY slot
is erased, or a copy that needed a correction is written again. (That the lowest-numbered slot among several is refreshed first is the
model's choice, log entry 103.) -/
def Obligations.StoreTakesRequests : Prop :=
  ∀ s : State,
    (∀ r rest, s.store.pend = r :: rest → s.store.list.length < 8 → s.store.erasing = none → (∀ c, r.owner ≠ .pool c) →
      s.cgt.riseWaits = false →
      exec .storeListPlacePending s = .next { s with store := { s.store with list := s.store.list ++ [r], pend := rest } }) ∧
    (∀ ws : List RecWrite,
      let creations := (ws.filter fun w =>
        (currentSlot s.store (writeKey w)).isNone && writeKey w != .origin && writeKey w != .node).length
      let slots (st : SlotState) : Nat := (s.store.slots.filter fun x => x.state == st).length
      (reserveRefuses s.store ws = true ↔ 0 < creations ∧ slots .free + slots .dirty < 8 + creations)) ∧
    (s.sys.phase = .running → s.store.erasing = none → s.store.op = none → s.store.cur = none →
      (∀ o work rest, s.store.list = ⟨o, work⟩ :: rest →
        let taken (op : StoreOp) : State := { s with store := { s.store with
          cur := some ⟨o, work⟩, listed := true, idx := 0, op := some op } }
        let ends (cnt : StoreCounters) : State := { s with store := { s.store with
          list := rest, cur := none, listed := false, idx := 0, op := none, cnt := cnt } }
        let full : State := flagged .storeEvent (ends { s.store.cnt with storeFull := bump s.store.cnt.storeFull })
        (∀ ws, work = .group ws → reserveRefuses s.store ws = true →
          exec .storeTakeRequest s = .next (storeOutcome o (.full 0) full)) ∧
        (∀ w ws, work = .group (w :: ws) → reserveRefuses s.store (w :: ws) = false →
          4294967295 ≤ currentCount s.store (writeKey w) →
          exec .storeTakeRequest s = .next (storeOutcome o (.fault 0)
            (flagged .storeEvent (ends { s.store.cnt with storeFaults := bump s.store.cnt.storeFaults })))) ∧
        (∀ w ws, work = .group (w :: ws) → reserveRefuses s.store (w :: ws) = false →
          currentCount s.store (writeKey w) < 4294967295 →
          (lowest isFree s.store = none → lowest isDirty s.store = none →
            exec .storeTakeRequest s = .next (storeOutcome o (.full 0) full)) ∧
          (∀ i, lowest isFree s.store = some i → exec .storeTakeRequest s = .next (taken (.write i (composeCopy s w) 1))) ∧
          (∀ i, lowest isFree s.store = none → lowest isDirty s.store = some i →
            exec .storeTakeRequest s = .next (taken (.erase i .room 1)))) ∧
        (∀ k i, work = .removal k → lowest (fun x => isDirty x && headerNames k x) s.store = some i →
          exec .storeTakeRequest s = .next (taken (.erase i .older 1))) ∧
        (∀ k, work = .removal k → lowest (fun x => isDirty x && headerNames k x) s.store = none →
          (∀ i, currentSlot s.store k = some i →
            let t := taken (.erase i .last 1)
            exec .storeTakeRequest s = .next { t with store := { t.store with
              slots := s.store.slots.modify i fun x => { x with state := .dirty } } }) ∧
          (currentSlot s.store k = none →
            exec .storeTakeRequest s = .next (storeOutcome o .done (ends s.store.cnt)))) ∧
        (∀ f, work = .calPage f → calCount s.store < 4 → exec .storeTakeRequest s = .next (taken (.calPage f)))) ∧
      (s.store.list = [] →
        (∀ i, dueRefresh s.store = [] → lowest isDirty s.store = some i →
          exec .storeBackgroundStart s = .next { s with store := { s.store with op := some (.erase i .background 1) } }) ∧
        (∀ i rest j x c b, dueRefresh s.store = i :: rest → s.store.slots[i]? = some ⟨.copy c b true, .current, x⟩ →
          lowest isFree s.store = some j → currentCount s.store c.key < 4294967295 →
          exec .storeBackgroundStart s = .next { s with store := { s.store with
            refresh := rest, cur := some ⟨.refresh, .group [.refresh c]⟩, listed := false, idx := 0
            op := some (.write j (composeCopy s (.refresh c)) 1) } })))

/-- R52, R54, R55, R58 to R62, R70: the ends of the STORE's operations. A write that verifies makes its slot CURRENT and the record's
previous CURRENT slot DIRTY; the next write of its group begins, and the last one delivers DONE; one that fails retires its slot, which
counts a write retry and raises STORE_EVENT; after the first and the second another attempt takes the lowest FREE slot, or has the lowest
DIRTY slot erased, or delivers STORE FULL, and the third delivers STORE FAULT. An erase leaves its slot FREE, or retires it; after the erase
that makes room the write takes up its attempt; after an older copy of a removal the next is erased, or the CURRENT slot; the last of a
removal delivers DONE, verified or not. A calibration page counts as written whether it verifies or not. In the erasure of ERASE STORE every
slot that is not RETIRED is erased in slot order, a failed erase retires its slot, and start-up with cause ERASE follows the last; the
operation that stood when ERASE STORE was accepted is let end before. -/
def Obligations.StoreOperationsEnd : Prop :=
  (∀ (s : State) (i : Nat), s.store.erasing.isSome = true → s.sys.phase = .running →
    let goes (cmd : Instr) (first : Nat) (u : State) : Prop :=
      (∀ j, findSlot (fun x => x.state != .retired) (u.store.slots.drop first) first = some j →
        exec cmd s = .next { u with store := { u.store with
          slots := u.store.slots.modify j fun x => { x with state := .dirty }, erasing := some j, op := some (.erase j .erasure 1) } }) ∧
      (findSlot (fun x => x.state != .retired) (u.store.slots.drop first) first = none →
        exec cmd s = .next (beginStartUp .erase { u with store := { u.store with op := none } }))
    let erased : State := { s with store := { s.store with
      slots := s.store.slots.modify i fun x => { x with data := .erased, state := .free } } }
    let retired (cnt : StoreCounters) : State := flagged .storeEvent { s with store := { s.store with
      slots := s.store.slots.modify i fun x => { x with state := .retired, retired := true }, cnt := cnt } }
    let unerased : State := retired { s.store.cnt with eraseFailures := bump s.store.cnt.eraseFailures }
    (∀ why n, s.store.op = some (.erase i why n) →
      (why = .erasure → goes (.storeEraseEnd true) (i + 1) erased ∧ goes (.storeEraseEnd false) (i + 1) unerased) ∧
      (why ≠ .erasure → goes (.storeEraseEnd true) 0 erased ∧ goes (.storeEraseEnd false) 0 unerased)) ∧
    (∀ c n, s.store.op = some (.write i c n) → goes (.storeWriteEnd true) 0 (slotWritten i c s) ∧
      goes (.storeWriteEnd false) 0 (retired { s.store.cnt with writeRetries := bump s.store.cnt.writeRetries }))) ∧
  ∀ (s : State) (r : Request), s.store.erasing = none →
    let ended (s : State) : State := { s with store := { s.store with
      cur := none, listed := false, idx := 0, op := none, list := s.store.list.tail } }
    let fault (s : State) : State := flagged .storeEvent { s with store := { s.store with
      cnt := { s.store.cnt with storeFaults := bump s.store.cnt.storeFaults } } }
    let full (s : State) : State := flagged .storeEvent { s with store := { s.store with
      cnt := { s.store.cnt with storeFull := bump s.store.cnt.storeFull } } }
    let retired (i : Nat) (cnt : StoreCounters) : State := flagged .storeEvent { s with store := { s.store with
      slots := s.store.slots.modify i fun x => { x with state := .retired, retired := true }, cnt := cnt } }
    let failed (i : Nat) : State := retired i { s.store.cnt with writeRetries := bump s.store.cnt.writeRetries }
    let going (op : StoreOp) (s : State) : State := { s with store := { s.store with op := some op } }
    let begins (cmd : Instr) (n : Nat) (w : RecWrite) (u : State) : Prop :=
      (4294967295 ≤ currentCount u.store (writeKey w) →
        exec cmd s = .next (storeOutcome r.owner (.fault u.store.idx) (fault (ended u)))) ∧
      (currentCount u.store (writeKey w) < 4294967295 →
        (∀ j, lowest isFree u.store = some j → exec cmd s = .next (going (.write j (composeCopy u w) n) u)) ∧
        (∀ j, lowest isFree u.store = none → lowest isDirty u.store = some j → exec cmd s = .next (going (.erase j .room n) u)) ∧
        (lowest isFree u.store = none → lowest isDirty u.store = none →
          exec cmd s = .next (storeOutcome r.owner (.full u.store.idx) (full (ended u)))))
    (s.store.cur = some r → s.store.listed = true →
      (∀ i c n ws w, s.store.op = some (.write i c n) → r.work = .group ws → ws[s.store.idx]? = some w →
        (s.store.idx + 1 = ws.length →
          exec (.storeWriteEnd true) s = .next (storeOutcome r.owner .done (ended (noteWritten w c (slotWritten i c s))))) ∧
        (∀ w', ws[s.store.idx + 1]? = some w' → s.sys.phase = .running →
          let u := noteWritten w c (slotWritten i c s)
          begins (.storeWriteEnd true) 1 w' { u with store := { u.store with idx := s.store.idx + 1, op := none } }) ∧
        (3 ≤ n → s.sys.phase = .running →
          exec (.storeWriteEnd false) s =
            .next (storeOutcome r.owner (.fault s.store.idx) (fault (ended (failed i))))) ∧
        (n < 3 → s.sys.phase = .running → currentCount (failed i).store (writeKey w) < 4294967295 →
          (∀ j, lowest isFree (failed i).store = some j →
            exec (.storeWriteEnd false) s = .next (going (.write j (composeCopy (failed i) w) (n + 1)) (failed i))) ∧
          (∀ j, lowest isFree (failed i).store = none → lowest isDirty (failed i).store = some j →
            exec (.storeWriteEnd false) s = .next (going (.erase j .room (n + 1)) (failed i))) ∧
          (lowest isFree (failed i).store = none → lowest isDirty (failed i).store = none →
            exec (.storeWriteEnd false) s = .next (storeOutcome r.owner (.full s.store.idx) (full (ended (failed i))))))) ∧
      (∀ i n ws w, s.store.op = some (.erase i .room n) → r.work = .group ws → ws[s.store.idx]? = some w → s.sys.phase = .running →
        let u := retired i { s.store.cnt with eraseFailures := bump s.store.cnt.eraseFailures }
        begins (.storeEraseEnd true) n w { s with store := { s.store with
          slots := s.store.slots.modify i fun x => { x with data := .erased, state := .free }, op := none } } ∧
        begins (.storeEraseEnd false) n w { u with store := { u.store with op := none } }) ∧
      (∀ i n k, r.work = .removal k →
        let erased : State := { s with store := { s.store with
          slots := s.store.slots.modify i fun x => { x with data := .erased, state := .free } } }
        (s.store.op = some (.erase i .last n) →
          exec (.storeEraseEnd true) s = .next (storeOutcome r.owner .done (ended erased)) ∧
          (s.sys.phase = .running → exec (.storeEraseEnd false) s = .next (storeOutcome r.owner .done
            (ended (retired i { s.store.cnt with eraseFailures := bump s.store.cnt.eraseFailures }))))) ∧
        (∀ j, s.store.op = some (.erase i .older n) →
          (lowest (fun x => isDirty x && headerNames k x) erased.store = some j →
            exec (.storeEraseEnd true) s = .next (going (.erase j .older 1) erased)) ∧
          (lowest (fun x => isDirty x && headerNames k x) erased.store = none → currentSlot erased.store k = some j →
            exec (.storeEraseEnd true) s = .next (going (.erase j .last 1) { erased with store := { erased.store with
              slots := erased.store.slots.modify j fun x => { x with state := .dirty } } })))) ∧
      (∀ f, s.store.op = some (.calPage f) →
        exec (.storeCalPageEnd true) s = .next (storeOutcome r.owner .done (ended { s with store := { s.store with
          pages := writePage { fields := some f } s.store.pages } })) ∧
        (s.sys.phase = .running →
          exec (.storeCalPageEnd false) s = .next (storeOutcome r.owner (.fault 0) (fault (ended { s with store := { s.store with
            pages := writePage { fields := some f, marked := true } s.store.pages } })))))) ∧
    (∀ i n, s.store.op = some (.erase i .background n) → s.sys.phase = .running →
      exec (.storeEraseEnd true) s = .next { s with store := { s.store with
        slots := s.store.slots.modify i fun x => { x with data := .erased, state := .free }, op := none } } ∧
      exec (.storeEraseEnd false) s = .next (flagged .storeEvent { s with store := { s.store with
        slots := s.store.slots.modify i fun x => { x with state := .retired, retired := true }, op := none
        cnt := { s.store.cnt with eraseFailures := bump s.store.cnt.eraseFailures } } })) ∧
    (∀ i c x, s.store.slots[i]? = some x → s.store.op.isSome = true → currentSlot s.store c.key ≠ some i →
      let t := slotWritten i c s
      t.store.slots[i]? = some { x with data := .copy c true false, state := .current } ∧
      (∀ j y, currentSlot s.store c.key = some j → s.store.slots[j]? = some y →
        t.store.slots[j]? = some { y with state := .dirty }) ∧
      ∀ j, j ≠ i → currentSlot s.store c.key ≠ some j → t.store.slots[j]? = s.store.slots[j]?)

/-! ### The Weighing Unit (chapter 6) -/

/-- R126 to R131: WEIGH is refused with the code of the first check that fails: BAD VALUE, NOT CALIBRATED, NOT CONFIGURED, NOT ACTIVE, BUSY,
LOTS FULL. Otherwise it is ACCEPTED, the crate tare takes its crate type and count, and a LOCATE with open-if-none is asked for: it waits
while no place is free; for an account that is OPEN at this node it is resolved at once, and SETTLING begins with 3,000 ms; for one that
nobody here knows, LOCATE goes to the line. A home found while the reading is STABLE has it captured: the WEIGH ends OVERLOAD or NET NOT
POSITIVE, or the commit group of the lot under the next number free is placed; a failed search and a failed local opening end it. When the
group ends, the lot stands in the table, which has a place left while a WEIGH is in hand (SizesKept), offered, and the WEIGH has ended DONE,
the next lot number having risen when the NODE write alone failed; when the LOT write failed or the reserve refused it, it has ended STORE
FULL or STORE FAULT without a lot. (What a failed result holds besides its code and the figures of its capture is the model's choice, log
entry 85.) -/
def Obligations.WeighBegins : Prop :=
  (∀ (s : State) (boat count : Field) (species grade ctype ring : Nat) (f : WeighFields), TakenBy .scale s →
    readWeigh boat species grade ctype count ring = some f →
    let cmd : Instr := .weigh true boat species grade ctype count ring
    let begun (st : WeighStage) (t : State) : Prop := exec cmd s = .next t ∧ t.port.buf.code = .accepted ∧
      t.wgu.crateTare = some (f.ctype, f.count) ∧
      t.wgu.weigh = some ⟨f.boat, f.species, f.grade, f.ctype, f.count, f.ring, st⟩ ∧ t.wgu.lots = s.wgu.lots ∧
      t.store = s.store ∧ t.book = s.book ∧ t.node = s.node
    let refused (c : PCode) : Prop := exec cmd s = .next (answered c .none s)
    (1 ≤ f.boat ∧ f.boat ≤ 499999 ∧ 1 ≤ species ∧ species ≤ 999 ∧ 1 ≤ grade ∧ grade ≤ 4 ∧ 1 ≤ ctype ∧ ctype ≤ 8 ∧ f.count ≤ 99 ∧
      1 ≤ ring ∧ ring ≤ 8) ∧
    (calInForce s.store = none → refused .notCalibrated) ∧
    ((calInForce s.store).isSome = true →
      (s.port.cfg.crates = none → refused .notConfigured) ∧
      (s.port.cfg.crates.isSome = true →
        (s.lif.state ≠ .active → refused .notActive) ∧
        (s.lif.state = .active → s.wgu.weigh.isSome = true → refused .busy) ∧
        (s.lif.state = .active → s.wgu.weigh = none → 16 ≤ s.wgu.lots.length → refused .lotsFull))) ∧
    ((calInForce s.store).isSome = true → s.port.cfg.crates.isSome = true → s.lif.state = .active → s.wgu.weigh = none →
        s.wgu.lots.length < 16 →
      (openPlaces s.exc = 0 → ∃ t, begun (.resolving none) t ∧
        t.exc = { s.exc with asks := s.exc.asks ++ [locateReq .weighLocate f.boat true] } ∧ t.lif = s.lif) ∧
      (∀ q qs a, PlaceOpen q qs s → accountOf s f.boat = some a → a.state = .opened → (liveReading s).stable = false →
        ∃ t, begun (.settling s.node.number 3000) t ∧ t.exc.free = qs ++ [q] ∧ t.lif = s.lif) ∧
      (∀ q qs, PlaceOpen q qs s → accountOf s f.boat = none → mapFind s.exc.homeMap f.boat = none →
        (∀ e ∈ s.exc.entries, e.account ≠ some f.boat) → LineOpen s →
        ∃ t, begun (.resolving (some q)) t ∧ t.exc.free = qs ∧
          t.lif = (queued (newMsg .request 0 q (.request (some f.boat) .locate) .exc s.exc.tok) s).lif))) ∧
  (∀ (s : State) (boat count : Field) (species grade ctype ring : Nat), TakenBy .scale s →
    readWeigh boat species grade ctype count ring = none →
    exec (.weigh true boat species grade ctype count ring) s = .next (answered .badValue .none s)) ∧
  ∀ (s : State) (g : Weigh), s.port.role = some .scale → s.wgu.weigh = some g → s.sys.phase = .running →
    let closed (r : WeighResult) (m : Wgu) : Wgu := { m with
      weigh := none, result := some r
      cnt := { m.cnt with weighsDone := if r.code = .done then bump m.cnt.weighsDone else m.cnt.weighsDone
                          weighsFailed := if r.code = .done then m.cnt.weighsFailed else bump m.cnt.weighsFailed } }
    let fails (r : WeighResult) : State := flagged .weighDone { s with wgu := closed r s.wgu }
    (∀ e, e.ref = .weighLocate → g.stage = .resolving (some e.seq) →
      (∀ last, unitOutcome e (.failed last) s = fails { code := .noHome, boat := g.boat }) ∧
      unitOutcome e (.opening .bookFull) s = fails { code := .noAccountRoom, boat := g.boat } ∧
      unitOutcome e (.opening .notConfigured) s = fails { code := .notConfigured, boat := g.boat } ∧
      (∀ h, (liveReading s).stable = false →
        unitOutcome e (.home h) s = { s with wgu := { s.wgu with weigh := some { g with stage := .settling h 3000 } } }) ∧
      ∀ h f gross, calInForce s.store = some f → (liveReading s).stable = true → (liveReading s).gross = some gross →
        let tare : Int := tareToDivision f (tareInForce s)
        let n := freeNumber (s.wgu.lots.map (·.number)) 16 s.node.nextLot
        let weighed (c : WeighCode) : WeighResult :=
          { code := c, boat := g.boat, boatHome := some h, gross := some gross, tare := some tare, net := some (gross - tare) }
        ((liveReading s).tooHeavy = true →
          unitOutcome e (.home h) s = fails { code := .overload, boat := g.boat, boatHome := some h, gross := some gross }) ∧
        ((liveReading s).tooHeavy = false → gross - tare < f.division → unitOutcome e (.home h) s = fails (weighed .netNotPositive)) ∧
        ((liveReading s).tooHeavy = false → f.division ≤ gross - tare → f.capacity < gross - tare →
          unitOutcome e (.home h) s = fails (weighed .overload)) ∧
        ((liveReading s).tooHeavy = false → f.division ≤ gross - tare → gross - tare ≤ f.capacity → ListOpen s →
          unitOutcome e (.home h) s = listed ⟨.lotCreate, .group [
              .lotCreate { number := n, boat := g.boat, boatHome := h, species := g.species, grade := g.grade, ring := g.ring
                           net := (gross - tare).toNat, ctype := g.ctype, count := g.count, unsold := 0, state := .offered
                           noRing := false, offer := none },
              .node (.nextLot (nextNumber n))]⟩
            { s with wgu := { s.wgu with weigh := some { g with stage := .recording h gross tare (gross - tare) n } } })) ∧
    (∀ h gross tare net n, g.stage = .recording h gross tare net n →
      let weighed (c : WeighCode) : WeighResult :=
        { code := c, boat := g.boat, boatHome := some h, gross := some gross, tare := some tare, net := some net }
      let lot : Lot := { number := n, boat := g.boat, boatHome := h, species := g.species, grade := g.grade, ring := g.ring, net := net.toNat
                         ctype := g.ctype, count := g.count, unsold := 0, state := .offered, noRing := false, offer := some 0 }
      let created (s : State) : State := lotOffered lot (flagged .weighDone { s with wgu :=
        { closed { weighed .done with lot := some n } s.wgu with lots := putLotIn lot s.wgu.lots } })
      (LineOpen s → s.wgu.lots.length < 16 →
        storeOutcome .lotCreate .done s = created s ∧
        ∀ i, storeOutcome .lotCreate (.full (i + 1)) s = created { s with node := { s.node with nextLot := nextNumber n } } ∧
          storeOutcome .lotCreate (.fault (i + 1)) s = created { s with node := { s.node with nextLot := nextNumber n } }) ∧
      storeOutcome .lotCreate (.full 0) s = fails (weighed .storeFull) ∧
      storeOutcome .lotCreate (.fault 0) s = fails (weighed .storeFault))

/-- R120 to R124: ZERO takes the average of a STABLE reading as the working zero and empties window and history, or is refused NOT
CALIBRATED, BUSY, UNSTABLE or, when the zero offset exceeds 2 % of the capacity or the span counts less the average are below 10,000, ZERO
RANGE; TARE sets the manual tare; CAL ZERO and CAL SPAN fill the draft; CAL WRITE has a page with the draft and the division and capacity
given written, and is ACCEPTED, or is refused NOT OFFLINE, CAL EXHAUSTED, NO DRAFT, BAD VALUE, when the division is not 5, 10, 20 or 50 g or
the capacity not a multiple of it of one division or more, or BUSY. When the page is written, its zero becomes the working zero, and draft,
window and history are emptied; when it is spent, draft and working zero stay; the result and STORE_EVENT come with either. (That the page
takes the draft as it stood at the acceptance is the model's choice, log entry 113.) -/
def Obligations.ScaleSettings : Prop :=
  ∀ s : State, TakenBy .scale s →
    (calInForce s.store = none → exec (.zero true) s = .next (answered .notCalibrated .none s)) ∧
    ((calInForce s.store).isSome = true → s.wgu.weigh.isSome = true → exec (.zero true) s = .next (answered .busy .none s)) ∧
    (∀ (f : CalFields) (avg : Int), f.zero < f.span →
      (zeroOutOfRange f avg = true ↔ f.capacity * 2 / 100 < (zeroOffset f avg).natAbs ∨ f.span - avg < 10000) ∧
      2 * ((zeroOffset f avg) * (f.span - f.zero) - (avg - f.zero) * f.grams).natAbs ≤ (f.span - f.zero).natAbs) ∧
    (∀ f, calInForce s.store = some f → s.wgu.weigh = none →
      (∀ avg, (liveReading s).stable = true → (liveReading s).average = some avg → zeroOutOfRange f avg = false →
        exec (.zero true) s = .next (answered .done .none { s with wgu := { s.wgu with zero := avg, window := [], history := [] } })) ∧
      (∀ avg, (liveReading s).stable = true → (liveReading s).average = some avg → zeroOutOfRange f avg = true →
        exec (.zero true) s = .next (answered .zeroRange .none s)) ∧
      ((liveReading s).stable = false → exec (.zero true) s = .next (answered .unstable .none s))) ∧
    (∀ g n, readWeight g = some n →
      exec (.tare true g) s = .next (answered .done .none { s with wgu := { s.wgu with manualTare := n } })) ∧
    (s.port.lock = false → s.wgu.weigh = none →
      (currentAverage s.wgu = none → exec (.calZero true) s = .next (answered .noReading .none s)) ∧
      ∀ avg, currentAverage s.wgu = some avg →
        exec (.calZero true) s =
          .next (answered .done .none { s with wgu := { s.wgu with draft := { zero := some avg, span := none } } }) ∧
        ∀ g n, inRange 1000 9999999 (readWeight g) = some n →
          (s.wgu.draft.zero = none → exec (.calSpan true g) s = .next (answered .noDraftZero .none s)) ∧
          ∀ z, s.wgu.draft.zero = some z →
            (avg < z + 10000 → exec (.calSpan true g) s = .next (answered .spanTooSmall .none s)) ∧
            (z + 10000 ≤ avg → exec (.calSpan true g) s = .next (answered .done .none { s with
              wgu := { s.wgu with draft := { s.wgu.draft with span := some (avg, n) } } }))) ∧
    (∀ z sp g d c dv cp, readWeight d = some dv → readWeight c = some cp →
      readCalFields z sp g d c = if (dv = 5 ∨ dv = 10 ∨ dv = 20 ∨ dv = 50) ∧ dv ≤ cp ∧ cp % dv = 0 then some ⟨z, sp, g, dv, cp⟩ else none) ∧
    (s.port.lock = false → s.wgu.weigh.isSome = true → exec (.calZero true) s = .next (answered .busy .none s) ∧
      ∀ g, (inRange 1000 9999999 (readWeight g)).isSome = true → exec (.calSpan true g) s = .next (answered .busy .none s)) ∧
    (s.port.lock = false → s.lif.state ≠ .offline → ∀ d c, exec (.calWrite true d c) s = .next (answered .notOffline .none s)) ∧
    (s.port.lock = false → s.lif.state = .offline → calCount s.store < 4 → ∀ d c,
      (s.wgu.draft.zero = none ∨ s.wgu.draft.span = none → exec (.calWrite true d c) s = .next (answered .noDraft .none s)) ∧
      ∀ z sp g, s.wgu.draft.zero = some z → s.wgu.draft.span = some (sp, g) →
        (readCalFields z sp g d c = none → exec (.calWrite true d c) s = .next (answered .badValue .none s)) ∧
        ((readCalFields z sp g d c).isSome = true → s.wgu.calBusy = true →
          exec (.calWrite true d c) s = .next (answered .busy .none s))) ∧
    (s.port.lock = false → s.lif.state = .offline →
      (4 ≤ calCount s.store → ∀ d c, exec (.calWrite true d c) s = .next (answered .calExhausted .none s)) ∧
      (calCount s.store < 4 → s.wgu.calBusy = false → listRoom s = true → ∀ z sp g d c f,
        s.wgu.draft.zero = some z → s.wgu.draft.span = some (sp, g) → readCalFields z sp g d c = some f →
        exec (.calWrite true d c) s = .next (answered .accepted .none (listed ⟨.cal f, .calPage f⟩
          { s with wgu := { s.wgu with calBusy := true } })))) ∧
    (∀ f, storeOutcome (.cal f) .done s = flagged .storeEvent { s with wgu := { s.wgu with
        calBusy := false, cmdResult := some (.calWrite, .done), zero := f.zero, draft := {}, window := [], history := [] } } ∧
      ∀ i, storeOutcome (.cal f) (.fault i) s = flagged .storeEvent { s with wgu := { s.wgu with
        calBusy := false, cmdResult := some (.calWrite, .storeFault) } })

/-- R133 to R136: the lot commands are ACCEPTED into the lot request queue, refused BUSY while another one is queued or in hand or eight
entries stand there, and refused BAD VALUE for a lot number out of range. A CLAIM at its front has an OFFERED lot committed as claimed by
its source, is answered GRANTED again to the clock that holds it, TAKEN to another, and UNKNOWN for a lot that is WITHDRAWN or not in the
table; a LOTREPORT of the clock that holds a lot has the lot removed when sold, offered again, or withdrawn at its third unsold, and any
other is answered DONE as a stale report; a malformed identity is answered MALFORMED, and one of another scale UNKNOWN. RELEASE LOT, REOFFER
and DELETE have their change committed, or end NOT CLAIMED, NOT WITHDRAWN or NO LOT. When the commit ends DONE the table changes with a lot
event, and the request is answered or the command has its result; when it fails a line request ends without an answer, and a command with
the code. (That the waiting LOT notices of a lot that leaves OFFERED or the table are withdrawn is the model's reading, log entry 33; that a
lot command that fails leaves the lot event as it was is its choice, log entry 83, and so is that the notice of a lot reported unsold stands
before the answer, log entry 112.) -/
def Obligations.LotRequests : Prop :=
  ∀ s : State,
    (∀ n, TakenBy .scale s → numOk n = true → lotCmdBusy s.wgu = false →
      let entered (r : LotReq) : State := answered .accepted .none { s with wgu := { s.wgu with lotQ := s.wgu.lotQ ++ [r] } }
      exec (.releaseLot true n) s = .next (entered (.releaseLot n)) ∧
      exec (.reoffer true n) s = .next (entered (.reoffer n)) ∧ exec (.delete true n) s = .next (entered (.delete n))) ∧
    (∀ n, TakenBy .scale s →
      let refused (c : PCode) : Prop := ∀ cmd ∈ [Instr.releaseLot true n, .reoffer true n, .delete true n],
        exec cmd s = .next (answered c .none s)
      (¬ (1 ≤ n ∧ n ≤ 65535) → refused .badValue) ∧
      (1 ≤ n → n ≤ 65535 → (8 ≤ s.wgu.lotQ.length ∨ (∃ r ∈ s.wgu.lotQ, isLotCmd r = true) ∨
        ∃ r, s.wgu.lotHand = some r ∧ isLotCmd r = true) → refused .busy)) ∧
    (∀ r rest, s.wgu.lotHand = none → s.wgu.lotQ = r :: rest → s.sys.phase = .running →
      let held : State := { s with wgu := { s.wgu with lotQ := rest, lotHand := some r } }
      let ended : State := { s with wgu := { s.wgu with lotQ := rest } }
      let commits (w : StoreWork) : State := listed ⟨.lotHand, w⟩ held
      let failed (c : ScaleCmd) (code : PCode) : State := flagged .lotEvent { ended with wgu := { ended.wgu with cmdResult := some (c, code) } }
      let reply (src seq : Nat) (k : ReqKind) (n : Nat) (c : AnsCode) (d : AnsData) (t : State) : State :=
        queued (newMsg .answer src seq (.answer k (.lot ⟨s.node.number, n⟩) c d) .wgu 0) t
      (∀ src seq lot, lot.scale ≠ s.node.number → LineOpen s →
        let told (k : ReqKind) (c : AnsCode) : State := queued (newMsg .answer src seq (.answer k (.lot lot) c .none) .wgu 0) ended
        (r = .claim src seq lot true → exec .lotQueueTakeClaim s = .next (told .claim .unknown)) ∧
        ∀ sold, r = .report src seq lot true sold → exec .lotQueueTakeLotreport s = .next (told .lotReport .unknown)) ∧
      (∀ src seq lot, LineOpen s →
        let told (k : ReqKind) : State := queued (newMsg .answer src seq (.answer k (.lot lot) .malformed .none) .wgu 0) ended
        (r = .claim src seq lot false → exec .lotQueueTakeClaim s = .next (told .claim)) ∧
        ∀ sold, r = .report src seq lot false sold → exec .lotQueueTakeLotreport s = .next (told .lotReport)) ∧
      (∀ src seq n, r = .claim src seq ⟨s.node.number, n⟩ true →
        (findLot s n = none → LineOpen s → exec .lotQueueTakeClaim s = .next (reply src seq .claim n .unknown .none ended)) ∧
        ∀ l, findLot s n = some l →
          (l.state = .offered → ListOpen s →
            exec .lotQueueTakeClaim s = .next (commits (.group [.lotUpdate n (.claimed src) l.unsold]))) ∧
          (l.state = .claimed src → LineOpen s → exec .lotQueueTakeClaim s =
            .next (reply src seq .claim n .granted (.lot (describeLot s.node.number l)) ended)) ∧
          (∀ c, l.state = .claimed c → c ≠ src → LineOpen s → exec .lotQueueTakeClaim s =
            .next (reply src seq .claim n .taken (.holder c) { ended with wgu := { ended.wgu with
              cnt := { s.wgu.cnt with claimsTaken := bump s.wgu.cnt.claimsTaken } } })) ∧
          (l.state = .withdrawn → LineOpen s → exec .lotQueueTakeClaim s = .next (reply src seq .claim n .unknown .none ended))) ∧
      (∀ src seq n sold, r = .report src seq ⟨s.node.number, n⟩ true sold → findLot s n = none → LineOpen s →
        exec .lotQueueTakeLotreport s = .next (reply src seq .lotReport n .done .none { ended with wgu := { ended.wgu with
          cnt := { s.wgu.cnt with staleReports := bump s.wgu.cnt.staleReports } } })) ∧
      (∀ src seq n sold l, r = .report src seq ⟨s.node.number, n⟩ true sold → findLot s n = some l →
        (l.state = .claimed src → ListOpen s →
          (sold = true → exec .lotQueueTakeLotreport s = .next (commits (.removal (.lot n)))) ∧
          (sold = false → l.unsold ≤ 1 →
            exec .lotQueueTakeLotreport s = .next (commits (.group [.lotUpdate n .offered (l.unsold + 1)]))) ∧
          (sold = false → 2 ≤ l.unsold →
            exec .lotQueueTakeLotreport s = .next (commits (.group [.lotUpdate n .withdrawn 3])))) ∧
        (l.state ≠ .claimed src → LineOpen s → exec .lotQueueTakeLotreport s =
          .next (reply src seq .lotReport n .done .none { ended with wgu := { ended.wgu with
            cnt := { s.wgu.cnt with staleReports := bump s.wgu.cnt.staleReports } } }))) ∧
      (∀ n, r = .releaseLot n →
        (findLot s n = none → exec .lotQueueTakeReleaseLot s = .next (failed (.releaseLot n) .noLot)) ∧
        ∀ l, findLot s n = some l →
          (∀ c, l.state = .claimed c → ListOpen s →
            exec .lotQueueTakeReleaseLot s = .next (commits (.group [.lotUpdate n .offered l.unsold]))) ∧
          ((∀ c, l.state ≠ .claimed c) → exec .lotQueueTakeReleaseLot s = .next (failed (.releaseLot n) .notClaimed))) ∧
      (∀ n, findLot s n = none →
        (r = .reoffer n → exec .lotQueueTakeReoffer s = .next (failed (.reoffer n) .noLot)) ∧
        (r = .delete n → exec .lotQueueTakeDelete s = .next (failed (.delete n) .noLot))) ∧
      (∀ n l, findLot s n = some l →
        (r = .reoffer n →
          (l.state = .withdrawn → ListOpen s →
            exec .lotQueueTakeReoffer s = .next (commits (.group [.lotUpdate n .offered 0]))) ∧
          (l.state ≠ .withdrawn → exec .lotQueueTakeReoffer s = .next (failed (.reoffer n) .notWithdrawn))) ∧
        (r = .delete n →
          (l.state = .withdrawn → ListOpen s → exec .lotQueueTakeDelete s = .next (commits (.removal (.lot n)))) ∧
          (l.state ≠ .withdrawn → exec .lotQueueTakeDelete s = .next (failed (.delete n) .notWithdrawn))))) ∧
    (∀ r, s.wgu.lotHand = some r → s.sys.phase = .running →
      let done (lots : List Lot) (n : Nat) (ev : LotEvent) (clock : Option Nat) : State := flagged .lotEvent { s with wgu := { s.wgu with
        lotHand := none, lots := lots, lotEvent := some ⟨n, ev, clock⟩ } }
      let reply (src seq : Nat) (k : ReqKind) (lot : LotId) (c : AnsCode) (d : AnsData) (t : State) : State :=
        queued (newMsg .answer src seq (.answer k (.lot lot) c d) .wgu 0) t
      let result (c : ScaleCmd) (code : PCode) (t : State) : State := { t with wgu := { t.wgu with cmdResult := some (c, code) } }
      let without (n : Nat) : List Lot := s.wgu.lots.filter fun x => x.number != n
      (∀ src seq lot ok l, r = .claim src seq lot ok → findLot s lot.number = some l → LineOpen s →
        let t := done (putLotIn { l with state := .claimed src, noRing := false, offer := none } s.wgu.lots) lot.number .claimed (some src)
        storeOutcome .lotHand .done s = reply src seq .claim lot .granted (.lot (describeLot s.node.number l)) (withdrawNotices lot.number
          { t with wgu := { t.wgu with cnt := { s.wgu.cnt with claimsGranted := bump s.wgu.cnt.claimsGranted } } })) ∧
      (∀ src seq lot ok sold l, r = .report src seq lot ok sold → findLot s lot.number = some l → LineOpen s →
        (sold = true → storeOutcome .lotHand .done s = reply src seq .lotReport lot .done .none
          (withdrawNotices lot.number (done (without lot.number) lot.number .sold (some src)))) ∧
        (sold = false → 2 ≤ l.unsold → storeOutcome .lotHand .done s = reply src seq .lotReport lot .done .none (withdrawNotices lot.number
          (done (putLotIn { l with state := .withdrawn, unsold := 3, noRing := false, offer := none } s.wgu.lots)
            lot.number .withdrawn (some src)))) ∧
        (sold = false → l.unsold ≤ 1 → s.lif.queue.length + s.lif.wait.length < 23 →
          let back : Lot := { l with state := .offered, unsold := l.unsold + 1 }
          storeOutcome .lotHand .done s = reply src seq .lotReport lot .done .none
            (lotOffered back (done (putLotIn back s.wgu.lots) lot.number .unsold (some src))))) ∧
      (∀ n l, findLot s n = some l →
        (r = .delete n → storeOutcome .lotHand .done s =
          result (.delete n) .done (withdrawNotices n (done (without n) n .deleted none))) ∧
        (LineOpen s →
          (∀ c, r = .releaseLot n → l.state = .claimed c →
            let back : Lot := { l with state := .offered }
            storeOutcome .lotHand .done s =
              result (.releaseLot n) .done (lotOffered back (done (putLotIn back s.wgu.lots) n .released (some c)))) ∧
          (r = .reoffer n →
            let back : Lot := { l with state := .offered, unsold := 0 }
            storeOutcome .lotHand .done s =
              result (.reoffer n) .done (lotOffered back (done (putLotIn back s.wgu.lots) n .reoffered none))))) ∧
      (∀ res, res ≠ .done →
        (isLotCmd r = false → storeOutcome .lotHand res s = { s with wgu := { s.wgu with lotHand := none } }) ∧
        let failed (c : ScaleCmd) : State :=
          flagged .lotEvent { s with wgu := { s.wgu with lotHand := none, cmdResult := some (c, res.code) } }
        ∀ n, (r = .releaseLot n → storeOutcome .lotHand res s = failed (.releaseLot n)) ∧
          (r = .reoffer n → storeOutcome .lotHand res s = failed (.reoffer n)) ∧
          (r = .delete n → storeOutcome .lotHand res s = failed (.delete n))))

/-- R114 to R119, R124, R125, R128, R132: a reading has no average while the window holds fewer than 8 samples, no gross without a
calibration in force, and otherwise the average rounded to a count, the gross rounded to a gram and then to the division, halves away from
zero, the tare in force and the gross less it; it is STABLE when 16 gross values lie within one division, OVER above the capacity and 9
divisions, and MOVING when neither. While a read is in progress a reading waits, and one that replaces it is counted missed. A good sample
raises the sample counter, joins the window of the last 8, and starts the sample loss timer afresh, its gross joins the history of 16, and a
WEIGH in SETTLING examines the reading formed: one that is not STABLE leaves it in SETTLING, and a STABLE one has it end OVERLOAD or NET NOT
POSITIVE or the lot's commit group placed; a frame of wrong parity or length is only counted; 500 ms without a good sample empty window and
history. The settling limit ends a WEIGH as OVERLOAD when the reading is OVER, and otherwise as UNSTABLE. A lot offered for 15,000 ms has
its notice placed again. (What a failed result holds besides its code and the figures of its capture is the model's choice, log entry 85.)
-/
def Obligations.SamplesAndOffers : Prop :=
  ∀ s : State,
    (let rounds (q n : Int) (d : Nat) : Prop :=
       2 * (q * d - n).natAbs ≤ d ∧ (2 * (q * d - n).natAbs = d → n.natAbs < (q * d).natAbs)
     let r := liveReading s
     (∀ ty n, s.wgu.crateTare = some (ty, n) → (tareInForce s : Int) = s.wgu.manualTare + n * crateTareOf s.port.cfg ty) ∧
     (s.wgu.crateTare = none → tareInForce s = s.wgu.manualTare) ∧
     (calInForce s.store = none → ∃ avg, r = { ctr := s.wgu.ctr, noCal := true, average := avg } ∧
       (avg.isSome = true ↔ s.wgu.window.length = 8) ∧ ∀ a, avg = some a → rounds a s.wgu.window.sum 8) ∧
     ∀ f, calInForce s.store = some f →
       (s.wgu.window.length ≠ 8 → r = { ctr := s.wgu.ctr, noReading := true }) ∧
       (s.wgu.window.length = 8 → s.wgu.zero < f.span → 0 < f.division → ∃ avg q k : Int,
         rounds avg s.wgu.window.sum 8 ∧ rounds q ((avg - s.wgu.zero) * f.grams) (f.span - s.wgu.zero).toNat ∧
         rounds k (max (-999999999) (min 999999999 q)) f.division ∧
         (r.stable = true ↔ s.wgu.history.length = 16 ∧ ∀ x ∈ s.wgu.history, ∀ y ∈ s.wgu.history, x - y ≤ f.division) ∧
         (r.tooHeavy = true ↔ (f.capacity : Int) + 9 * f.division < k * f.division) ∧
         r = { ctr := s.wgu.ctr, stable := r.stable, tooHeavy := r.tooHeavy, moving := !r.stable && !r.tooHeavy, average := some avg
               gross := some (k * f.division), tare := some (tareInForce s), net := some (k * f.division - tareInForce s) })) ∧
    (∀ count parity whole, s.port.role = some .scale →
      (whole = true ∧ parityGood count parity = true →
        ∃ t, exec (.sampleFrame count parity whole) s = .next t ∧ t.wgu.lossT = some 500 ∧
          (s.wgu.ctr ≤ 65535 → t.wgu.ctr = (s.wgu.ctr + 1) % 65536) ∧
          t.wgu.window.getLast? = some count.toInt ∧ t.wgu.zero = s.wgu.zero ∧ t.wgu.lots = s.wgu.lots ∧
          t.store.slots = s.store.slots ∧ t.store.pages = s.store.pages ∧
          (s.wgu.window.length < 8 → t.wgu.window = s.wgu.window ++ [count.toInt]) ∧
          (s.wgu.window.length = 8 → t.wgu.window = s.wgu.window.tail ++ [count.toInt]) ∧
          (s.wgu.reading = false → t.wgu.offered = liveReading t ∧ t.wgu.waiting = s.wgu.waiting) ∧
          (s.wgu.reading = true → t.wgu.offered = s.wgu.offered ∧ t.wgu.waiting = some (liveReading t)) ∧
          t.wgu.cnt.missed = (if s.wgu.reading ∧ s.wgu.waiting.isSome then bump s.wgu.cnt.missed else s.wgu.cnt.missed) ∧
          ((liveReading t).gross = none → t.wgu.history = s.wgu.history) ∧
          (∀ gross, (liveReading t).gross = some gross →
            (s.wgu.history.length < 16 → t.wgu.history = s.wgu.history ++ [gross]) ∧
            (s.wgu.history.length = 16 → t.wgu.history = s.wgu.history.tail ++ [gross])) ∧
          let settles : Prop := ∃ g home left, s.wgu.weigh = some g ∧ g.stage = .settling home left
          (¬ settles → t.wgu.weigh = s.wgu.weigh ∧ t.store = s.store ∧ t.wgu.result = s.wgu.result) ∧
          ((liveReading t).stable = false → t.wgu.weigh = s.wgu.weigh ∧ t.store = s.store ∧ t.wgu.result = s.wgu.result) ∧
          ∀ g home left f gross, s.wgu.weigh = some g → g.stage = .settling home left → s.sys.phase = .running →
            calInForce s.store = some f → (liveReading t).stable = true → (liveReading t).gross = some gross →
            let tare : Int := tareToDivision f (tareInForce s)
            let n := freeNumber (s.wgu.lots.map (·.number)) 16 s.node.nextLot
            let ends (r : WeighResult) : Prop := t.wgu.weigh = none ∧ t.wgu.result = some r ∧ t.store = s.store ∧
              t.wgu.cnt.weighsFailed = bump s.wgu.cnt.weighsFailed ∧ t.port.flags = s.port.flags ||| flagBit .weighDone
            let weighed (c : WeighCode) : WeighResult :=
              { code := c, boat := g.boat, boatHome := some home, gross := some gross, tare := some tare, net := some (gross - tare) }
            ((liveReading t).tooHeavy = true → ends { code := .overload, boat := g.boat, boatHome := some home, gross := some gross }) ∧
            ((liveReading t).tooHeavy = false → gross - tare < f.division → ends (weighed .netNotPositive)) ∧
            ((liveReading t).tooHeavy = false → f.division ≤ gross - tare → f.capacity < gross - tare → ends (weighed .overload)) ∧
            ((liveReading t).tooHeavy = false → f.division ≤ gross - tare → gross - tare ≤ f.capacity → ListOpen s →
              t.wgu.weigh = some { g with stage := .recording home gross tare (gross - tare) n } ∧
              t.port.flags = s.port.flags ∧ t.wgu.result = s.wgu.result ∧
              t.store = (listed ⟨.lotCreate, .group [
                  .lotCreate { number := n, boat := g.boat, boatHome := home, species := g.species, grade := g.grade, ring := g.ring
                               net := (gross - tare).toNat, ctype := g.ctype, count := g.count, unsold := 0, state := .offered
                               noRing := false, offer := none },
                  .node (.nextLot (nextNumber n))]⟩ s).store)) ∧
      (¬(whole = true ∧ parityGood count parity = true) →
        exec (.sampleFrame count parity whole) s = .next { s with wgu := { s.wgu with
          cnt := { s.wgu.cnt with sampleErrors := bump s.wgu.cnt.sampleErrors } } })) ∧
    (s.wgu.lossT = some 0 →
      ∃ t, exec .sampleLossTimeout s = .next t ∧ t.wgu.window = [] ∧ t.wgu.history = [] ∧ t.wgu.lossT = none ∧
        t.wgu.cnt.sampleLosses = bump s.wgu.cnt.sampleLosses ∧
        (s.wgu.reading = false → t.wgu.offered = liveReading t) ∧
        (s.wgu.reading = true → t.wgu.offered = s.wgu.offered ∧ t.wgu.waiting = some (liveReading t)) ∧
        (liveReading t).stable = false ∧ (liveReading t).gross = none) ∧
    (∀ g home, s.wgu.weigh = some g → g.stage = .settling home 0 → s.sys.phase = .running →
      exec .settlingLimit s = .next (flagged .weighDone { s with wgu := { s.wgu with
        weigh := none
        result := some { code := if (liveReading s).tooHeavy then .overload else .unstable, boat := g.boat, boatHome := some home }
        cnt := { s.wgu.cnt with weighsFailed := bump s.wgu.cnt.weighsFailed } } })) ∧
    (∀ n l t, findLot s n = some l → l.state = .offered → l.offer = some t → 15000 ≤ t → LineOpen s → noticeWaits n s = false →
      s.sys.phase = .running → exec (.offerTimer n) s = .next (lotOffered l s))

/-! ### The Clock Unit (chapter 7) -/

/-- R143 to R147, R198: the head lot is the first of the queue, one that start-up found sold passed over. SHOW LOT presents it, or is
refused QUEUE EMPTY; START sets the clock RUNNING at the start price, or is refused BAD VALUE, whatever the clock's state, NOT CONFIGURED,
NOT ACTIVE or LOG FULL; HALT and RESUME stop and restart it, WITHDRAW takes it to NO_SALE, each with LOT_EVENT; in a state that does not
allow it each of them is refused, BUSY in NO_SALE and SETTLING. A tick lowers the price by the step while it stays at or above the floor
price; at the floor the lot ends NO_SALE. (That a timer event which is not due changes nothing is the model's choice, log entry 2; so is
that a sold lot is passed over while it still stands in the queue, log entry 28. That START checks its figures before the clock's state is
read from R198, log entry 45.) -/
def Obligations.ClockRuns : Prop :=
  (∀ s : State, headLot s = s.clu.queue.find? (fun d => s.clu.cleaning.all fun x => x.lot != d.id) ∧
    (∀ p f st tick figs, readFigures p f st tick = some figs ↔
      readPrice p = some figs.start ∧ readPrice f = some figs.floor ∧ inRange 1 9999 (readPrice st) = some figs.step ∧ figs.tick = tick ∧
        figs.floor ≤ figs.start ∧ 20 ≤ tick ∧ tick ≤ 2000) ∧
    (TakenBy .clock s →
      let refused (i : Instr) (c : PCode) : Prop := exec i s = .next (answered c .none s)
      let busy : Prop := s.clu.state = .noSale ∨ s.clu.state = .settling
      (s.clu.state = .idle → headLot s = none → refused (.showLot true) .queueEmpty) ∧
      (s.clu.state ≠ .idle → ¬ busy → refused (.showLot true) .notIdle) ∧
      (s.clu.state ≠ .running → ¬ busy → refused (.halt true) .notRunning) ∧
      (s.clu.state ≠ .halted → ¬ busy → refused (.resume true) .notHalted) ∧
      (s.clu.state = .idle ∨ s.clu.state = .running → refused (.withdraw true) .notPresented) ∧
      (busy → refused (.showLot true) .busy ∧ refused (.halt true) .busy ∧ refused (.resume true) .busy ∧ refused (.withdraw true) .busy) ∧
      ∀ p f st tick,
        (readFigures p f st tick = none → refused (.start true p f st tick) .badValue) ∧
        ((readFigures p f st tick).isSome = true →
          (s.clu.state ≠ .presented → ¬ busy → refused (.start true p f st tick) .notPresented) ∧
          (busy → refused (.start true p f st tick) .busy) ∧
          (s.clu.state = .presented →
            (s.port.cfg.levy = none ∨ s.port.cfg.crates = none → refused (.start true p f st tick) .notConfigured) ∧
            (s.port.cfg.levy.isSome = true → s.port.cfg.crates.isSome = true →
              (s.lif.state ≠ .active → refused (.start true p f st tick) .notActive) ∧
              (s.lif.state = .active → 32 ≤ s.clu.sales.length → refused (.start true p f st tick) .logFull)))))) ∧
  ∀ (s : State) (d : LotDesc), headLot s = some d →
    let changed (st : ClockState) (c : Clu) : State :=
      flagged .lotEvent { s with clu := { c with state := st, lotEvent := some (.state st, some d.id) } }
    let unsold (c : Clu) (q : Nat) (qs : List Nat) : State :=
      listed ⟨.lotEnd d.id, .group [.queue (.drop d.id)]⟩ (entryMade q qs (reportItem d.id false (.unsold d.id))
        (changed .noSale { c with tickT := none }))
    (TakenBy .clock s →
      (s.clu.state = .idle → exec (.showLot true) s = .next (answered .done (.lotDesc d) (changed .presented s.clu))) ∧
      (∀ p f st tick figs, readFigures p f st tick = some figs → s.clu.state = .presented → s.port.cfg.levy.isSome = true →
        s.port.cfg.crates.isSome = true → s.lif.state = .active → s.clu.sales.length < 32 →
        exec (.start true p f st tick) s = .next (answered .done .none
          (changed .running { s.clu with figs := some figs, price := some figs.start, tickT := some 0 }))) ∧
      (s.clu.state = .running → exec (.halt true) s =
        .next (answered .done .none (changed .halted { s.clu with tickT := none }))) ∧
      (s.clu.state = .halted → exec (.resume true) s =
        .next (answered .done .none (changed .running { s.clu with tickT := some 0 }))) ∧
      (∀ q qs, s.clu.state = .presented ∨ s.clu.state = .halted → PlaceOpen q qs s → listRoom s = true →
        exec (.withdraw true) s = .next (answered .done .none
          (unsold { s.clu with cnt := { s.clu.cnt with withdrawals := bump s.clu.cnt.withdrawals } } q qs)))) ∧
    (∀ f p t, s.clu.state = .running → s.clu.figs = some f → s.clu.price = some p → s.clu.tickT = some t →
      (t < f.tick → exec .clockTick s = .next s) ∧
      (f.tick ≤ t → f.floor + f.step ≤ p → exec .clockTick s = .next { s with clu := { s.clu with
        price := some (p - f.step), tickT := some 0, cnt := { s.clu.cnt with ticks := bump s.clu.cnt.ticks } } }) ∧
      (∀ q qs, f.tick ≤ t → p < f.floor + f.step → PlaceOpen q qs s → ListOpen s → s.sys.phase = .running →
        exec .clockTick s = .next (unsold { s.clu with cnt := { s.clu.cnt with noSales := bump s.clu.cnt.noSales } } q qs)))

/-- R149 to R152: DESK IN has an OUT desk ask for a hold of its allowance with accept-less, under the next hold number; DESK OUT clears a
desk, a SUSPENDED one too, releases an allowance that is left to the buyer's home, and gives up a hold that waits to be made. A grant has
the desk that asks with its key IN, its allowance the amount granted and its buyer home the node that granted; another answer, and a search
without a home, have it OUT; an outcome FAILED has it OUT and the key released where the HOLD was last addressed. A grant whose key no desk
asks with is released where it was granted. (That an ASKING desk shows last desk event NONE is the model's reading, log entry 109.) -/
def Obligations.DesksSignInAndOut : Prop :=
  ∀ (s : State) (n : Nat), TakenBy .clock s → 1 ≤ n ∧ n ≤ 32 → s.clu.desks.length = 32 →
    (∀ f g b amt, readBuyer f = some b → readHoldAmount g = some amt →
      (s.lif.state ≠ .active → exec (.deskIn true n f g) s = .next (answered .notActive .none s)) ∧
      (s.lif.state = .active → (deskAt s n).state ≠ .out → exec (.deskIn true n f g) s = .next (answered .deskNotOut .none s)) ∧
      (∀ q qs a, s.lif.state = .active → (deskAt s n).state = .out → PlaceOpen q qs s → s.sys.epochState = .inUse →
        needsAdvance s true 0 = false → accountOf s b = some a → a.state = .opened →
        ∃ t, exec (.deskIn true n f g) s = .next t ∧ t.port.buf.code = .accepted ∧
          t.clu.desks = s.clu.desks.set (n - 1)
            { state := .asking, buyer := some b, key := some ⟨s.node.number, s.sys.epoch, s.exc.holdNo⟩ } ∧
          t.exc.holdNo = s.exc.holdNo + 1 ∧
          (∃ e, findEntry t q = some e ∧ e.state = .queued ∧ e.dest = some s.node.number ∧ e.account = some b ∧
            e.body = .hold ⟨s.node.number, s.sys.epoch, s.exc.holdNo⟩ amt true 14400) ∧
          t.exc.free = qs ∧ t.store = s.store ∧ t.book = s.book)) ∧
    ((deskAt s n).state = .out → exec (.deskOut true n) s = .next (answered .done (.desk (deskAt s n)) s)) ∧
    (let cleared : Desk := { purchases := (deskAt s n).purchases, last := (deskAt s n).last }
     let out : State := { s with clu := { s.clu with desks := s.clu.desks.set (n - 1) cleared } }
     let here : Prop := (deskAt s n).state = .inn ∨ (deskAt s n).state = .suspended
     ((deskAt s n).state = .lapsed ∨ (here ∧ (deskAt s n).allowance = 0) ∨
        ((deskAt s n).state = .asking ∧ (deskAt s n).key.isSome = true) →
       exec (.deskOut true n) s = .next (answered .done (.desk cleared) out)) ∧
     ((deskAt s n).state = .asking → (deskAt s n).key = none →
       exec (.deskOut true n) s = .next (answered .done (.desk cleared) (dropAsk (.deskHold n) out))) ∧
     (∀ k b h q qs, here → 0 < (deskAt s n).allowance → (deskAt s n).key = some k →
       (deskAt s n).buyer = some b → (deskAt s n).home = some h → PlaceOpen q qs s →
       exec (.deskOut true n) s = .next (answered .done (.desk cleared)
         (entryMade q qs ⟨.release k, .cluRelease, some b, some h, false⟩ out))) ∧
     (∀ e k amt less life b, e.ref = .deskHold n → e.body = .hold k amt less life → e.account = some b →
       let changed (d : Desk) : State := flagged .deskEvent { s with clu := { s.clu with desks := s.clu.desks.set (n - 1) d } }
       let releases (q : Nat) (qs : List Nat) (home : Nat) (t : State) : State :=
         entryMade q qs ⟨.release k, .cluRelease, some b, some home, false⟩ t
       ((deskAt s n).state = .asking → (deskAt s n).key = some k →
         (∀ a node, unitOutcome e (.answer .granted (.amount a) node) s = changed { deskAt s n with
             state := .inn, home := some node, granted := a, allowance := a, last := .answer .granted } ∧
           unitOutcome e (.answer .grantedLess (.amount a) node) s = changed { deskAt s n with
             state := .inn, home := some node, granted := a, allowance := a, last := .answer .grantedLess }) ∧
         (∀ c d node, c ≠ .granted → c ≠ .grantedLess →
           unitOutcome e (.answer c d node) s = changed { cleared with last := .answer c }) ∧
         unitOutcome e .noHome s = changed { cleared with last := .answer .unknown } ∧
         (∀ last h q qs, e.dest = some h → PlaceOpen q qs s →
           unitOutcome e (.failed last) s = releases q qs h (changed { cleared with last := .failed }))) ∧
       (¬((deskAt s n).state = .asking ∧ (deskAt s n).key = some k) →
         (∀ a node q qs, PlaceOpen q qs s →
           unitOutcome e (.answer .granted (.amount a) node) s = releases q qs node s ∧
           unitOutcome e (.answer .grantedLess (.amount a) node) s = releases q qs node s) ∧
         (∀ c d node, c ≠ .granted → c ≠ .grantedLess → unitOutcome e (.answer c d node) s = s) ∧
         ∀ last, unitOutcome e (.failed last) s = s)))

/-- R154 to R159: at a scan of the desk inputs while the clock runs, the desks of the press set are judged from the one above the last
winning desk on, and the first that is IN with an allowance that covers the buyer charge wins: its allowance is lowered by the charge, the
clock enters SETTLING at the price that stands, and the commit of the SALE record is placed. A desk judged before it that is IN but not
covered is SUSPENDED, and judging goes on; every stop refused is counted, and so are the presses left. When none wins, the clock runs on at
its price. A desk is in the press set when its input is low after 21 scans in a row that found it high. In SETTLING each press is counted
LATE, and in IDLE, PRESENTED, HALTED and NO_SALE each is counted idle and has no effect. A scan without a press only counts the releases.
(That the purchases of a desk stay at 65,535 is the model's choice, log entry 96.) -/
def Obligations.FirstPressWins : Prop :=
  ∀ (s : State) (bits : BitVec 32), s.port.role = some .clock →
    (∀ d, d ∈ pressSet bits s.clu.released ↔ 1 ≤ d ∧ d ≤ 32 ∧ bits.getLsbD (d - 1) = true ∧ 21 ≤ s.clu.released.getD (d - 1) 0) ∧
    (pressSet bits s.clu.released = [] → s.clu.state ≠ .settling → s.clu.cnt.presses ≤ 65535 → s.clu.cnt.idlePresses ≤ 65535 →
      exec (.deskScan bits) s = .next { s with clu := { s.clu with
        released := s.clu.released.mapIdx fun i r => if bits.getLsbD i then 0 else min 21 (r + 1) } }) ∧
    (let n := (pressSet bits s.clu.released).length
     let scanned (cnt : CluCounters) : State := { s with clu := { s.clu with
       released := s.clu.released.mapIdx fun i r => if bits.getLsbD i then 0 else min 21 (r + 1), cnt := cnt } }
     (s.clu.state = .settling → exec (.deskScan bits) s = .next (scanned { s.clu.cnt with
       presses := min 65535 (s.clu.cnt.presses + n), latePresses := min 65535 (s.clu.cnt.latePresses + n) })) ∧
     (s.clu.state = .idle ∨ s.clu.state = .presented ∨ s.clu.state = .halted ∨ s.clu.state = .noSale →
       exec (.deskScan bits) s = .next (scanned { s.clu.cnt with
         presses := min 65535 (s.clu.cnt.presses + n), idlePresses := min 65535 (s.clu.cnt.idlePresses + n) }))) ∧
    (∀ lot price pre d post, s.clu.state = .running → headLot s = some lot → s.clu.price = some price →
      rotateFrom s.clu.lastWin (pressSet bits s.clu.released) = pre ++ d :: post → s.clu.desks.length = 32 →
      (∀ x ∈ pre, (deskAt s x).state = .inn → (deskAt s x).allowance < chargeOf s lot price) →
      (deskAt s d).state = .inn → chargeOf s lot price ≤ (deskAt s d).allowance →
      overRange (chargeOf s lot price) = false → ListOpen s →
      ∃ t, exec (.deskScan bits) s = .next t ∧ t.clu.lastWin = d ∧ t.clu.state = .settling ∧ t.clu.price = some price ∧
        t.clu.settling = some { sale := saleRecord s lot price d } ∧
        deskAt t d = { deskAt s d with
          allowance := (deskAt s d).allowance - chargeOf s lot price, purchases := bump (deskAt s d).purchases, last := .won } ∧
        (∀ x ∈ pre, (deskAt s x).state = .inn → deskAt t x = { deskAt s x with state := .suspended, last := .suspended }) ∧
        (∀ x, x ≠ d → 1 ≤ x → x ∉ pre ∨ (deskAt s x).state ≠ .inn → deskAt t x = deskAt s x) ∧
        (s.clu.cnt.refusedStops + pre.length ≤ 65535 → t.clu.cnt.refusedStops = s.clu.cnt.refusedStops + pre.length) ∧
        t.store = (listed ⟨.saleLog, .group [.saleCreate (saleRecord s lot price d),
          .node (.nextSale (nextNumber (saleRecord s lot price d).number))]⟩ s).store ∧
        t.clu.cnt.latePresses = bumpBy post.length s.clu.cnt.latePresses ∧
        t.clu.cnt.presses = bumpBy (pressSet bits s.clu.released).length s.clu.cnt.presses ∧ t.book = s.book ∧ t.exc = s.exc) ∧
    (∀ lot price, s.clu.state = .running → headLot s = some lot → s.clu.price = some price → s.clu.desks.length = 32 →
      (∀ x ∈ pressSet bits s.clu.released, (deskAt s x).state = .inn →
        (deskAt s x).allowance < chargeOf s lot price ∨ overRange (chargeOf s lot price) = true) →
      ∃ t, exec (.deskScan bits) s = .next t ∧ t.clu.state = .running ∧ t.clu.price = some price ∧ t.clu.settling = s.clu.settling ∧
        t.clu.lastWin = s.clu.lastWin ∧ t.clu.tickT = s.clu.tickT ∧ t.store = s.store ∧ t.exc = s.exc ∧
        (∀ x ∈ pressSet bits s.clu.released, (deskAt s x).state = .inn →
          deskAt t x = { deskAt s x with state := .suspended, last := .suspended }) ∧
        (∀ x, 1 ≤ x → x ∉ pressSet bits s.clu.released ∨ (deskAt s x).state ≠ .inn → deskAt t x = deskAt s x))

/-- R141, R148, R153, R159 to R164: a claim GRANTED has the QUEUE record committed with the lot, and once that is written the lot stands
last in the lot queue; TAKEN and UNKNOWN end a claim, and FAILED too, with its event. When the QUEUE record without the head lot is written
the clock is IDLE, and SUSPENDED desks are IN again. A lot that start-up found sold leaves the queue when the QUEUE record without it is
written (R56, R142, R164). When the SALE record is written the sale stands in the log. The outcome of a part has the part's state committed,
a DRAW answered LAPSED also takes the desk that holds its key to LAPSED; once that is written it is told in the sale event, and a collected
sale without a PENDING part has its record removed. A commit that fails is placed again 1,000 ms later, and so are the requests of a sale
after a store failure; a FAILED report is requested again 15,000 ms after it failed. When the three requests of a sale are created its
record is marked posted and the QUEUE record without the lot is committed; at EPOCH EXHAUSTED both postings become FAILED and the LOTREPORT
alone is made. The desk that holds the key of a DRAW follows the node of its final answer. (That a newer update of a part takes the place of
an older one that waits is the model's reading, log entry 75; what an update notes at the sale is the model's own, R160, R161. That the
15,000 ms run from the FAILED outcome is its reading, log entry 29; so are the head lot that the event of IDLE names, log entry 30, and that
a failed clean-up is placed again after 1,000 ms, log entry 28. Its choices are that a desk IN again keeps SUSPENDED as its last desk event
and raises no flag, log entry 108, that an update that waits goes with the removed sale, log entry 107, that the sale event names the SALE
part at EPOCH EXHAUSTED, log entry 106, and that a GRANTED lot is queued under the identity claimed, log entry 115.) -/
def Obligations.ClockRetries : Prop :=
  ∀ s : State,
    let sales (n : Nat) (f : Sale → Sale) (t : State) : State := { t with clu := { t.clu with
      sales := t.clu.sales.map fun x => if x.entry.number = n then f x else x } }
    let updates (n : Nat) (c : SaleChange) (t : State) : State := listed ⟨.sale n c, .group [.saleUpdate n c]⟩ t
    (∀ lot d, claimOf s lot = some { lot := lot, granted := some d, retry := some 0 } → (∀ x ∈ s.clu.cleaning, x.lot ≠ lot) → ListOpen s →
      exec (.queueCommitRetry lot.scale lot.number) s = .next (listed ⟨.claim lot, .group [.queue (.append d)]⟩ { s with
        clu := { s.clu with claims := s.clu.claims.map fun x => if x.lot = lot then { x with retry := none } else x } })) ∧
    (∀ lot, claimOf s lot = none → { lot := lot, retry := some 0 } ∈ s.clu.cleaning → ListOpen s →
      exec (.queueCommitRetry lot.scale lot.number) s = .next (listed ⟨.queueClean lot, .group [.queue (.drop lot)]⟩ { s with
        clu := { s.clu with cleaning := s.clu.cleaning.map fun x => if x.lot = lot then { x with retry := none } else x } })) ∧
    (∀ d, s.clu.lotEndT = some 0 → headLot s = some d → ListOpen s →
      exec .lotEndRetry s =
        .next (listed ⟨.lotEnd d.id, .group [.queue (.drop d.id)]⟩ { s with clu := { s.clu with lotEndT := none } })) ∧
    (∀ r, s.clu.settling = some { sale := r, logRetry := some 0 } → ListOpen s →
      exec .saleLogRetry s = .next (listed ⟨.saleLog, .group [.saleCreate r, .node (.nextSale (nextNumber r.number))]⟩ { s with
        clu := { s.clu with settling := some { sale := r, logRetry := none } } })) ∧
    (∀ n e c, findSale s n = some e → e.redo = [⟨c, 0⟩] → e.removing = false → ListOpen s →
      exec (.saleUpdateRetry n) s = .next (updates n c (sales n (fun x => noteUpdate c { x with redo := x.redo.filter fun y => y.left != 0 }) s))) ∧
    (∀ n e q qs, findSale s n = some e → e.reissue = some 0 → e.removing = false → PlaceOpen q qs s → ListOpen s →
      exec (.lotreportReissue n) s = .next (updates n (.part .report .pending none none)
        (let t := entryMade q qs (reportItem e.entry.lot true (.salePart n .report))
            (sales n (fun x => noteUpdate (.part .report .pending none none) { x with reissue := none }) s);
          { t with clu := { t.clu with cnt := { s.clu.cnt with reissued := bump s.clu.cnt.reissued } } }))) ∧
    (∀ n e w, findSale s n = some e → s.clu.reqWait = [w] → w = ⟨n, some .draw, 0⟩ → PostReady s → ListOpen s →
      exec (.saleRequestRetry n) s = .next (postAsked (.salePart n .draw)
        ⟨default, .draw, e.entry.buyer, e.entry.charge, saleItems e.entry, some (e.entry.key.epoch, e.entry.key.number), none⟩
        e.entry.buyerHome { s with clu := { s.clu with reqWait := [] } })) ∧
    (∀ n e d q qs, findSale s n = some e → s.clu.reqWait = [⟨n, none, 0⟩] → s.sys.epochState = .exhausted → s.exc.free = q :: qs →
      3 ≤ openPlaces s.exc → headLot s = some d → s.store.erasing = none → s.store.list.length + s.store.pend.length < 6 →
      s.sys.phase = .running →
      let failed (p : SalePart) (t : State) : State :=
        updates n (.part p .failed none none) (sales n (noteUpdate (.part p .failed none none)) t)
      let t := failed .sale (failed .draw { s with clu := { s.clu with reqWait := [] } })
      exec (.saleRequestRetry n) s = .next (listed ⟨.lotEnd d.id, .group [.queue (.drop d.id)]⟩
        (entryMade q qs (reportItem e.entry.lot true (.salePart n .report))
          (flagged .saleEvent { t with clu := { t.clu with saleEvent := some (n, .part .sale .failed) } })))) ∧
    (∀ r d p p' q q' q'' qs, s.exc.work = some (.create (salePostsReq r) [p, p']) → s.exc.free = q :: q' :: q'' :: qs → s.exc.jobs = [] →
      s.exc.entries = [] → [q, q', q''].Nodup → s.node.epoch = s.sys.epoch → s.node.nextPosting ≤ 65535 → headLot s = some d →
      s.port.role = some .clock → s.store.erasing = none → s.store.list.length + s.store.pend.length < 7 →
      let t := storeOutcome .excWork .done s
      t.exc.work = none ∧ t.exc.free = qs ∧ t.exc.entries.length = 3 ∧
      findEntry t q = some (makeEntry q ⟨.post p, .salePart r.number .draw, some r.buyer, some r.buyerHome, false⟩) ∧
      findEntry t q' = some (makeEntry q' ⟨.post p', .salePart r.number .sale, some r.boat, some r.boatHome, false⟩) ∧
      findEntry t q'' = some (makeEntry q'' (reportItem r.lot true (.salePart r.number .report))) ∧
      t.clu = (sales r.number (noteUpdate .posted) s).clu ∧
      t.store.list = s.store.list ++ [⟨.sale r.number .posted, .group [.saleUpdate r.number .posted]⟩,
        ⟨.lotEnd d.id, .group [.queue (.drop d.id)]⟩]) ∧
    (s.port.role = some .clock → s.sys.phase = .running →
      let told (ev : ClockEvent) (lot : Option LotId) (c : Clu) : State := flagged .lotEvent { s with clu := { c with lotEvent := some (ev, lot) } }
      let sold (n : Nat) (ev : SaleEvent) (t : State) : State :=
        flagged .saleEvent { t with clu := { t.clu with saleEvent := some (n, ev) } }
      (∀ lot g, claimOf s lot = some g →
        let dropped : Clu := { s.clu with claims := s.clu.claims.filter fun x => x.lot != lot }
        let with' (f : Claim → Claim) : Clu := { s.clu with claims := s.clu.claims.map fun x => if x.lot = lot then f x else x }
        (∀ e, e.ref = .claim lot → (∀ k a less life, e.body ≠ .hold k a less life) →
          (∀ d node, ListOpen s → unitOutcome e (.answer .granted (.lot d) node) s =
            listed ⟨.claim lot, .group [.queue (.append { d with id := lot })]⟩
              { s with clu := with' fun x => { x with granted := some { d with id := lot } } }) ∧
          (∀ c d node, c = .taken ∨ c = .unknown → unitOutcome e (.answer c d node) s = { s with clu := { dropped with
            cnt := { s.clu.cnt with claimsTaken := bump s.clu.cnt.claimsTaken } } }) ∧
          (∀ last, unitOutcome e (.failed last) s = told .claimFailed (some lot) { dropped with
            cnt := { s.clu.cnt with claimsFailed := bump s.clu.cnt.claimsFailed } })) ∧
        (∀ d, g.granted = some d →
          storeOutcome (.claim lot) .done s = told .queued (some lot) { dropped with
            queue := s.clu.queue ++ [d], cnt := { s.clu.cnt with claimsGranted := bump s.clu.cnt.claimsGranted } } ∧
          ∀ r, r ≠ .done → storeOutcome (.claim lot) r s = { s with clu := with' fun x => { x with retry := some 1000 } })) ∧
      (∀ lot,
        let queue := s.clu.queue.filter fun d => d.id != lot
        storeOutcome (.lotEnd lot) .done s =
          told (.state .idle) ((queue.find? fun d => s.clu.cleaning.all fun x => x.lot != d.id).map (·.id)) { s.clu with
            state := .idle, queue := queue, price := none, figs := none, tickT := none, settling := none
            desks := s.clu.desks.map fun d => if d.state = .suspended then { d with state := .inn } else d } ∧
        (∀ r, r ≠ .done → storeOutcome (.lotEnd lot) r s = { s with clu := { s.clu with lotEndT := some 1000 } }) ∧
        storeOutcome (.queueClean lot) .done s = { s with clu := { s.clu with
          queue := queue, cleaning := s.clu.cleaning.filter fun x => x.lot != lot } } ∧
        ∀ r, r ≠ .done → storeOutcome (.queueClean lot) r s = { s with clu := { s.clu with
          cleaning := s.clu.cleaning.map fun x => if x.lot = lot then { x with retry := some 1000 } else x } }) ∧
      (∀ x, s.clu.settling = some x →
        (openPlaces s.exc < 3 → storeOutcome .saleLog .done s =
          (let t := sold x.sale.number .logged { s with clu := { s.clu with sales := putSaleIn { entry := x.sale } s.clu.sales } };
            { t with exc := { s.exc with asks := s.exc.asks ++ [salePostsReq x.sale] } })) ∧
        storeOutcome .saleLog (.fault 0) s = sold x.sale.number .waitingStore { s with clu := { s.clu with
          settling := some { x with logRetry := some 1000 } } }) ∧
      (∀ n x e, findSale s n = some x → x.removing = false → ListOpen s →
        (∀ p ty m cs node, e.ref = .salePart n .sale → e.body = .post p → p.kind = .sale → partToBe x .sale = .pending →
          unitOutcome e (.answer .done (.counts ((ty, m) :: cs)) node) s =
            updates n (.part .sale .done (some m) (some e.seq)) (sales n (noteUpdate (.part .sale .done (some m) (some e.seq))) s)) ∧
        (∀ p last, e.ref = .salePart n .sale → e.body = .post p → partToBe x .sale = .pending →
          unitOutcome e (.failed last) s = updates n (.part .sale .failed none none) (sales n (noteUpdate (.part .sale .failed none none)) s)) ∧
        (∀ p k d node, e.ref = .salePart n .draw → e.body = .post p → p.kind = .draw → postHoldKey p = some k → partToBe x .draw = .pending →
          deskWithKey s k = some d → (deskAt s d).state = .inn → (deskAt s d).home.isSome = true →
          s.clu.desks.length = 32 →
          ∃ t, unitOutcome e (.answer .lapsed .none node) s = t ∧
            t.clu.desks = s.clu.desks.set (d - 1) { deskAt s d with
              state := .lapsed, allowance := 0, home := some node, last := .answer .lapsed } ∧
            t.clu.cnt = { s.clu.cnt with lapsedDesks := bump s.clu.cnt.lapsedDesks } ∧
            t.port.flags = s.port.flags ||| flagBit .deskEvent ∧
            t.store = (updates n (.part .draw .lapsed none (some e.seq)) s).store) ∧
        (∀ p k c d node, e.ref = .salePart n .draw → e.body = .post p → p.kind = .draw → postHoldKey p = some k → partToBe x .draw = .pending →
          deskWithKey s k = some d → (deskAt s d).home.isSome = true → c = .done ∨ c = .doneAlready →
          unitOutcome e (.answer c .none node) s = updates n (.part .draw .done none (some e.seq))
            (sales n (noteUpdate (.part .draw .done none (some e.seq)))
              { s with clu := { s.clu with desks := s.clu.desks.set (d - 1) { deskAt s d with home := some node } } })) ∧
        (∀ last sold, e.ref = .salePart n .report → e.body = .lotReport x.entry.lot sold → partToBe x .report = .pending →
          unitOutcome e (.failed last) s = updates n (.part .report .failed none none)
            (sales n (fun y => noteUpdate (.part .report .failed none none) { y with reissue := some 15000 }) s)) ∧
        (x.entry.collected = false → ∀ p st m,
          storeOutcome (.sale n (.part p st m none)) .done s = sold n (.part p st) s) ∧
        (∀ y p st m, x.entry.collected = false → Ended y p s → ∀ part,
          storeOutcome (.sale n (.part part st m (some y.seq))) .done s = outcomeTaken y p (sold n (.part part st) s)) ∧
        (∀ r, r ≠ .done → storeOutcome (.sale n .posted) r s =
          sold n .updateFailed (sales n (fun y => { y with redo := y.redo ++ [⟨.posted, 1000⟩] }) s)) ∧
        (x.entry.collected = true → x.entry.drawPart ≠ .pending → x.entry.salePart ≠ .pending → x.entry.reportPart ≠ .pending →
          storeOutcome (.sale n .collected) .done s =
            listed ⟨.saleRemove n, .removal (.sale n)⟩ (sales n (fun y => { y with removing := true }) s))) ∧
      (∀ n r, (∀ q ∈ s.exc.asks, q.ref ≠ .saleReissue n) → s.exc.jobs = [] → s.exc.work = none →
        storeOutcome (.saleRemove n) r s = sold n .removed { s with clu := { s.clu with
          sales := s.clu.sales.filter fun x => x.entry.number != n } }))

/-! ### The Ice Meter (chapter 8) -/

/-- R166 to R171, R173, R178: ORDER is refused by the first of its checks that fails, BAD VALUE, NOT CONFIGURED, NOT ACTIVE, BUSY or E-STOP,
and otherwise ACCEPTED with the tariff and grams per pulse in force, and asks for a LOCATE. STOP, a falling edge of ESTOPN and the stall
timer switch a running auger off with their cause, and coasting begins; STOP and an emergency stop cancel an order that has not reached the
auger, and otherwise change nothing but the level of the pin. The return of ESTOPN to high starts nothing. The grant of the order's hold has
the ICE ORDER record created with its target, and ends the order ZERO TARGET, its key released, when it pays for no pulse; another answer
ends the order with its code. Once the record stands, ADRIVE goes active and the order is DISPENSING; when its creation fails the key is
released and the order ends with the store's code. (That at a role other than ICE an emergency stop changes only the level of ESTOPN is the
model's reading, log entry 60, and that one at a pin already low changes nothing its choice, log entry 2; so is that a creation which still
waits for the request list when its order is cancelled goes on waiting, log entry 88.) -/
def Obligations.IceOrders : Prop :=
  ∀ s : State,
    let ended (o : OrderRec) : State := flagged .iceDone { s with
      icm := { result := some (.cancelled, o), late := s.icm.late, edgeMs := s.icm.edgeMs
               cnt := { s.icm.cnt with cancelled := bump s.icm.cnt.cancelled } } }
    let off (c : StopCause) (cnt : IcmCounters) : State := { s with icm := { s.icm with
      adrive := false, stallT := none, coastT := some 2000, cnt := cnt
      order := s.icm.order.map fun o => { o with augerOn := false, cause := some c } } }
    let low (t : State) : State := { t with sys := { t.sys with estopLow := true } }
    (TakenBy .ice s →
      (∀ f g less, readBoat f = none ∨ readKg g = none → exec (.order true f g less) s = .next (answered .badValue .none s)) ∧
      (∀ f g a q less, readBoat f = some a → readKg g = some q →
        let refused (c : PCode) : Prop := exec (.order true f g less) s = .next (answered c .none s)
        (s.port.cfg.tariff = none ∨ s.port.cfg.gpp = none → refused .notConfigured) ∧
        ∀ tariff gpp, s.port.cfg.tariff = some tariff → s.port.cfg.gpp = some gpp →
          (s.lif.state ≠ .active → refused .notActive) ∧
          (s.lif.state = .active → s.icm.state ≠ .idle → refused .busy) ∧
          (s.lif.state = .active → s.icm.state = .idle → s.sys.estopLow = true → refused .eStop) ∧
          (s.lif.state = .active → s.icm.state = .idle → s.sys.estopLow = false →
          let o : OrderRec := { account := a, kg := q, acceptLess := less, tariff := tariff, gpp := gpp }
          let m : Icm := { s.icm with
            state := .resolving, order := some o, locSeq := none, cnt := { s.icm.cnt with accepted := bump s.icm.cnt.accepted } }
          (openPlaces s.exc = 0 → exec (.order true f g less) s = .next (answered .accepted .none { s with
            icm := m, exc := { s.exc with asks := s.exc.asks ++ [locateReq .orderLocate a false] } })) ∧
          (∀ k qs, PlaceOpen k qs s → accountOf s a = none → mapFind s.exc.homeMap a = none →
            (∀ e ∈ s.exc.entries, e.account ≠ some a) → LineOpen s →
            ∃ t, exec (.order true f g less) s = .next t ∧ t.port.buf.code = .accepted ∧
              t.icm = { m with locSeq := some k } ∧ t.exc.free = qs ∧ t.store = s.store ∧ t.book = s.book ∧
              t.lif = (queued (newMsg .request 0 k (.request (some a) .locate) .exc s.exc.tok) s).lif))) ∧
      (augerRuns s = true → exec (.stop true) s = .next (answered .done .none
        (off .stopped { s.icm.cnt with stops := bump s.icm.cnt.stops }))) ∧
      (s.icm.state = .idle ∨ s.icm.state = .settling ∨ (s.icm.state = .dispensing ∧ augerRuns s = false) →
        exec (.stop true) s = .next (answered .done .none s)) ∧
      (∀ o, s.icm.state = .resolving ∨ s.icm.state = .holding → s.icm.order = some o → s.exc.asks = [] → s.exc.jobs = [] →
        s.exc.work = none → exec (.stop true) s = .next (answered .done .none (ended o)))) ∧
    (s.sys.estopLow = true → exec .emergencyStop s = .next s) ∧
    (s.sys.estopLow = false →
      (s.port.role ≠ some .ice ∨ s.icm.state = .idle ∨ s.icm.state = .settling ∨
          (s.icm.state = .dispensing ∧ augerRuns s = false) → exec .emergencyStop s = .next (low s)) ∧
      (s.port.role = some .ice → augerRuns s = true → exec .emergencyStop s =
        .next (low (off .eStop { s.icm.cnt with emergencies := bump s.icm.cnt.emergencies }))) ∧
      (∀ o, s.port.role = some .ice → s.icm.state = .resolving ∨ s.icm.state = .holding → s.icm.order = some o →
        s.exc.asks = [] → s.exc.jobs = [] → s.exc.work = none → s.sys.phase = .running →
        exec .emergencyStop s = .next (low (ended o)))) ∧
    exec .estopnReturnHigh s = .next { s with sys := { s.sys with estopLow := false } } ∧
    (s.icm.stallT = some 0 → augerRuns s = true → exec .stallTimer s =
      .next (off .stalled { s.icm.cnt with stalls := bump s.icm.cnt.stalls })) ∧
    (∀ o k, s.port.role = some .ice → s.sys.phase = .running → s.icm.state = .holding → s.icm.order = some o → o.key = some k →
      let failed (c : OrderCode) (o : OrderRec) (t : State) : State := flagged .iceDone { t with
        icm := { result := some (c, o), late := s.icm.late, edgeMs := s.icm.edgeMs
                 cnt := { s.icm.cnt with failed := bump s.icm.cnt.failed } } }
      let releases (q : Nat) (qs : List Nat) (acct home : Nat) (t : State) : State :=
        entryMade q qs ⟨.release k, .icmRelease, some acct, some home, false⟩ t
      (∀ e amt less life a, e.ref = .orderHold → e.body = .hold k amt less life → e.account = some a →
        (∀ c g node, c = .granted ∨ c = .grantedLess →
          let o' : OrderRec := { o with home := some node, granted := some g, grantCode := some c, checkpoint := 0
                                        targetPulses := some (targetPulses g o.tariff o.gpp)
                                        targetGrams := some (targetGrams g o.tariff o.gpp) }
          (targetPulses g o.tariff o.gpp ≠ 0 → ListOpen s → unitOutcome e (.answer c (.amount g) node) s =
            listed ⟨.iceCreate o', .group [.iceCreate o']⟩ { s with icm := { s.icm with order := some o' } }) ∧
          (∀ q qs, targetPulses g o.tariff o.gpp = 0 → PlaceOpen q qs s →
            unitOutcome e (.answer c (.amount g) node) s = failed .zeroTarget o' (releases q qs o.account node s))) ∧
        (∀ d node, unitOutcome e (.answer .refusedFunds d node) s = failed .refusedFunds o s ∧
          unitOutcome e (.answer .refusedNoRoom d node) s = failed .refusedNoRoom o s ∧
          unitOutcome e (.answer .unknown d node) s = failed .unknown o s ∧ unitOutcome e .noHome s = failed .unknown o s) ∧
        (∀ last h q qs, e.dest = some h → PlaceOpen q qs s →
          unitOutcome e (.failed last) s = failed .failed o (releases q qs a h s))) ∧
      (storeOutcome (.iceCreate o) .done s = { s with icm := { s.icm with
        state := .dispensing, order := some { o with metered := true, augerOn := true, pulses := 0, checkpoint := 0 }
        adrive := true, stallT := some 5000, coastT := none, closed := false, ckPlaced := 0 } }) ∧
      (∀ i h q qs, o.home = some h → PlaceOpen q qs s →
        storeOutcome (.iceCreate o) (.full i) s = failed .storeFull o (releases q qs o.account h s) ∧
        storeOutcome (.iceCreate o) (.fault i) s = failed .storeFault o (releases q qs o.account h s)))

/-- R166, R172 to R176: a rising edge of APULSE after less than 5 ms of low level is noise, one that no order counts is a stray pulse; a
pulse counted while the auger runs restarts the stall timer, one counted in coasting does not, the one that reaches the target switches the
auger off, and each 64th has a checkpoint placed, whether the auger runs or not; a pulse that would take the grams past 9,999,999 is not
counted but restarts the stall timer while the auger runs; a checkpoint written is the order's. When coasting ends, counting closes, a final
checkpoint is placed unless the last one holds the counted pulses, the settle amount is that of the counted grams, and the SETTLE is asked
for. Once it is created the order is SETTLING and the removal of the ICE ORDER record is placed; after a store failure it is asked for again
in 1,000 ms; with the epoch EXHAUSTED the order ends. R177: the SETTLE's outcome ends the order DONE, LAPSED or SETTLE FAILED and is
reported taken; one that names no order in SETTLING is a late settle. (That the failed creation of the SETTLE leaves the next posting number
as it stood is the model's reading, log entry 14; that the created one stands at the head of the free places at that moment is its choice,
log entry 91.) -/
def Obligations.IceIsMetered : Prop :=
  ∀ (s : State) (lowMs : Nat), s.port.role = some .ice →
    (lowMs < 5 ∨ s.icm.edgeMs < 5 → exec (.augerPulse lowMs) s = .next { s with icm := { s.icm with
      edgeMs := 0, cnt := { s.icm.cnt with noise := bump s.icm.cnt.noise } } }) ∧
    (5 ≤ lowMs → 5 ≤ s.icm.edgeMs →
      (s.icm.state ≠ .dispensing ∨ s.icm.closed = true → exec (.augerPulse lowMs) s = .next { s with icm := { s.icm with
        edgeMs := 0, cnt := { s.icm.cnt with stray := bump s.icm.cnt.stray } } }) ∧
      (∀ o, s.icm.state = .dispensing → s.icm.closed = false → s.icm.order = some o → 9999999 < (o.pulses + 1) * o.gpp →
        exec (.augerPulse lowMs) s = .next { s with icm := { s.icm with
          edgeMs := 0, stallT := if o.augerOn then some 5000 else s.icm.stallT
          cnt := { s.icm.cnt with overRange := bump s.icm.cnt.overRange } } }) ∧
      (∀ o, s.icm.state = .dispensing → s.icm.closed = false → s.icm.order = some o → (o.pulses + 1) * o.gpp ≤ 9999999 →
        (o.augerOn = true → o.targetPulses ≠ some (o.pulses + 1) → (o.pulses + 1) % 64 ≠ 0 →
          exec (.augerPulse lowMs) s = .next { s with icm := { s.icm with
            edgeMs := 0, stallT := some 5000, order := some { o with pulses := o.pulses + 1 } } }) ∧
        (o.augerOn = false → (o.pulses + 1) % 64 ≠ 0 → exec (.augerPulse lowMs) s = .next { s with icm := { s.icm with
          edgeMs := 0, order := some { o with pulses := o.pulses + 1 } } }) ∧
        (o.augerOn = true → o.targetPulses = some (o.pulses + 1) → (o.pulses + 1) % 64 ≠ 0 →
          exec (.augerPulse lowMs) s = .next { s with icm := { s.icm with
            edgeMs := 0, stallT := none, coastT := some 2000, adrive := false
            order := some { o with pulses := o.pulses + 1, augerOn := false, cause := some .target } } }) ∧
        ((o.pulses + 1) % 64 = 0 → ListOpen s → (s.store.pend.any isCheckpoint) = false →
          let checked (m : Icm) : State := listed ⟨.iceCheckpoint o.key (o.pulses + 1), .group [.iceCheckpoint o.key (o.pulses + 1)]⟩
            { s with icm := { m with edgeMs := 0, ckPlaced := o.pulses + 1 } }
          (o.augerOn = false → exec (.augerPulse lowMs) s =
            .next (checked { s.icm with order := some { o with pulses := o.pulses + 1 } })) ∧
          (o.augerOn = true → o.targetPulses ≠ some (o.pulses + 1) → exec (.augerPulse lowMs) s =
            .next (checked { s.icm with stallT := some 5000, order := some { o with pulses := o.pulses + 1 } })) ∧
          (o.augerOn = true → o.targetPulses = some (o.pulses + 1) → exec (.augerPulse lowMs) s =
            .next (checked { s.icm with stallT := none, coastT := some 2000, adrive := false
                                        order := some { o with pulses := o.pulses + 1, augerOn := false, cause := some .target } }))))) ∧
    (∀ o n, s.icm.order = some o →
      storeOutcome (.iceCheckpoint o.key n) .done s = { s with icm := { s.icm with order := some { o with checkpoint := n } } }) ∧
    (∀ o k h, s.icm.order = some o → o.key = some k → o.home = some h → PostReady s → ListOpen s →
      let settle (amount : Nat) (m : Icm) : State :=
        postAsked (.settle k) ⟨default, .settle, o.account, amount, [], some (k.epoch, k.number), none⟩ h { s with icm := m }
      (∀ amt, s.icm.settleT = some 0 → o.settle = some amt →
        exec .icmSettleRetry s = .next (settle amt { s.icm with settleT := none })) ∧
      (s.icm.coastT = some 0 → s.icm.state = .dispensing → s.icm.closed = false → s.icm.ckPlaced = o.pulses →
        let amt := iceSettleAmount (o.pulses * o.gpp) o.tariff
        exec .coastingEnd s = .next (settle amt { s.icm with
          closed := true, coastT := none, order := some { o with settle := some amt } })) ∧
      (s.icm.coastT = some 0 → s.icm.state = .dispensing → s.icm.closed = false → s.icm.ckPlaced ≠ o.pulses →
        (s.store.pend.any isCheckpoint) = false → s.store.list.length + s.store.pend.length < 7 →
        let amt := iceSettleAmount (o.pulses * o.gpp) o.tariff
        let checked := listed ⟨.iceCheckpoint o.key o.pulses, .group [.iceCheckpoint o.key o.pulses]⟩ s
        exec .coastingEnd s = .next (postAsked (.settle k) ⟨default, .settle, o.account, amt, [], some (k.epoch, k.number), none⟩ h
          { checked with icm := { s.icm with
              closed := true, coastT := none, ckPlaced := o.pulses, order := some { o with settle := some amt } } }))) ∧
    (∀ o k h amt, s.icm.order = some o → o.key = some k → o.home = some h → s.icm.restoring = false → s.exc.jobs = [] →
      (∀ p q qs, s.exc.work = some (.create (settleReq o amt k) [p]) → s.exc.free = q :: qs →
        (s.icm.state = .dispensing → s.node.epoch = s.sys.epoch → s.node.nextPosting ≤ 65535 → ListOpen s →
          let t := storeOutcome .excWork .done s
          t.icm = { s.icm with state := .settling } ∧ t.store = (listed ⟨.iceRemove, .removal .iceOrder⟩ s).store ∧ t.exc.free = qs ∧
            ∃ e, findEntry t q = some e ∧ e.state = .queued ∧ e.dest = some h ∧ e.body = .post p ∧ e.ref = .settle k) ∧
        ∀ res, res = .full 0 ∨ res = .fault 0 → storeOutcome .excWork res s =
          { s with exc := { s.exc with work := none }, icm := { s.icm with settleT := some 1000 } }) ∧
      (s.icm.settleT = some 0 → o.settle = some amt → s.exc.free ≠ [] → s.exc.work = none → s.sys.epochState = .exhausted →
        s.sys.phase = .running → ListOpen s → exec .icmSettleRetry s =
          .next (flagged .iceDone (listed ⟨.iceRemove, .removal .iceOrder⟩ { s with icm := {
            result := some (.epochExhausted, o), late := s.icm.late, edgeMs := s.icm.edgeMs
            cnt := { s.icm.cnt with failed := bump s.icm.cnt.failed } } }))) ∧
      (∀ r, s.icm.settleT = some 0 → o.settle = some amt → s.exc.free = [] → r = settleReq o amt k → exec .icmSettleRetry s =
        .next { s with icm := { s.icm with settleT := none }, exc := { s.exc with asks := s.exc.asks ++ [r] } })) ∧
    (∀ e p k, e.ref = .settle k → Ended e p s → s.sys.phase = .running →
      let late (c : LateCode) : State := outcomeTaken e p (flagged .iceDone { s with icm := { s.icm with
        late := some ⟨k, p.account, p.amount, c⟩, cnt := { s.icm.cnt with lateSettles := bump s.icm.cnt.lateSettles } } })
      (∀ o, s.icm.order = some o → o.key = some k → s.icm.state = .settling → s.icm.restoring = false →
        let settled (c : OrderCode) (cnt : IcmCounters) : State := outcomeTaken e p (flagged .iceDone { s with
          icm := { result := some (c, o), late := s.icm.late, edgeMs := s.icm.edgeMs, cnt := cnt } })
        let lost : IcmCounters := { s.icm.cnt with failed := bump s.icm.cnt.failed }
        (∀ c d node, c = .done ∨ c = .doneAlready →
          unitOutcome e (.answer c d node) s = settled .done { s.icm.cnt with done := bump s.icm.cnt.done }) ∧
        (∀ d node, unitOutcome e (.answer .lapsed d node) s = settled .lapsed lost)) ∧
      (s.icm.state ≠ .settling → (∀ c d node, unitOutcome e (.answer c d node) s = late (.answer c)) ∧
        unitOutcome e .discarded s = late .discarded)) ∧
    (∀ e p k o last, e.ref = .settle k → e.body = .post p → findEntry s e.seq = some e → e.state = .failed → s.sys.phase = .running →
      s.icm.order = some o → o.key = some k → s.icm.state = .settling → s.icm.restoring = false →
      unitOutcome e (.failed last) s = flagged .iceDone { s with icm := {
        result := some (.settleFailed, o), late := s.icm.late, edgeMs := s.icm.edgeMs
        cnt := { s.icm.cnt with failed := bump s.icm.cnt.failed } } })

/-! ### The Crate Gate (chapter 9) -/

/-- R181 to R193: BATCH OPEN asks for a LOCATE of its account under the next batch number, which waits while no place is free, is resolved
at once for an account of this node, and else goes to the line; a good tag read joins an OPEN batch once, a blocked one is rejected, one at
64 tags refused, one outside OPEN ignored, and a malformed one is counted; BATCH CLOSE of an ISSUE asks for its posting with the deposit
sum, that of a RETURN has the pool's rise placed first, or waits until the pool update stands on the list; BATCH CANCEL ends a batch in
RESOLVING or OPEN, its LOCATE that waits is not asked for, and one that names no batch in hand is discarded; BLOCK and UNBLOCK keep the
blocked tag list. A failed pool update is placed again with the pending change, and a posting refused by the store is asked for again. R185:
a home found has the batch OPEN, and no home ends it UNKNOWN. R191 to R193: the posting's outcome ends the batch with its result, the counts
refunded by DONE and CLAMPED, and the refund of each item; a DONE or DONE_ALREADY of an ISSUE has the pool's fall placed before the outcome
is reported taken; an outcome that names no batch in POSTING is recorded as late, and a late DONE of an ISSUE, or a DONE_ALREADY of the
present start-up epoch, has the pool's fall placed too. (That the result keeps the posting identity told at creation is the model's reading,
log entry 55; that the batch's own counts stay at 65,535 is its choice, log entry 98, and so is that a tag frame of more than five bytes is
one error, log entry 110.) -/
def Obligations.GateBatches : Prop :=
  ∀ s : State,
    (TakenBy .gate s →
      (∀ k f, k = none ∨ readAccountNo f = none → exec (.batchOpen true k f) s = .next (answered .badValue .none s)) ∧
      (∀ f k, (readAccountNo f).isSome = true → s.port.cfg.crates = none →
        exec (.batchOpen true (some k) f) s = .next (answered .notConfigured .none s)) ∧
      (∀ f a k rows, readAccountNo f = some a → s.port.cfg.crates = some rows →
        let opening : Cgt := { s.cgt with
          state := .resolving, nextBatch := nextNumber s.cgt.nextBatch
          batch := some { number := s.cgt.nextBatch, kind := k, account := a, deposits := rows.map (·.deposit) } }
        (s.lif.state ≠ .active → exec (.batchOpen true (some k) f) s = .next (answered .notActive .none s)) ∧
        (s.lif.state = .active → s.cgt.state ≠ .idle → exec (.batchOpen true (some k) f) s = .next (answered .busy .none s)) ∧
        (s.lif.state = .active → s.cgt.state = .idle → openPlaces s.exc = 0 →
          exec (.batchOpen true (some k) f) s = .next (answered .accepted .none { s with
            cgt := opening
            exc := { s.exc with
              asks := s.exc.asks ++ [locateReq (.batchLocate s.cgt.startEpoch s.cgt.nextBatch) a false] } })) ∧
        (∀ q qs, s.lif.state = .active → s.cgt.state = .idle → PlaceOpen q qs s →
          (∀ acc, accountOf s a = some acc → acc.state = .opened ∨ acc.state = .yielding →
            ∃ t, exec (.batchOpen true (some k) f) s = .next t ∧ t.port.buf.code = .accepted ∧
              t.cgt = { opening with state := .opened, batch := opening.batch.map fun b => { b with home := some s.node.number } } ∧
              t.port.flags = s.port.flags ||| flagBit .batchDone ∧ t.exc.free = qs ++ [q] ∧ t.lif = s.lif ∧ t.store = s.store ∧
              t.book = s.book) ∧
          (accountOf s a = none → mapFind s.exc.homeMap a = none → (∀ e ∈ s.exc.entries, e.account ≠ some a) → LineOpen s →
            ∃ t, exec (.batchOpen true (some k) f) s = .next t ∧ t.port.buf.code = .accepted ∧ t.cgt = opening ∧ t.exc.free = qs ∧
              t.port.flags = s.port.flags ∧ t.store = s.store ∧ t.book = s.book ∧
              t.lif = (queued (newMsg .request 0 q (.request (some a) .locate) .exc s.exc.tok) s).lif))) ∧
      (s.cgt.state ≠ .opened → exec (.batchClose true) s = .next (answered .notOpen .none s)) ∧
      (∀ b, s.cgt.state = .opened → s.cgt.batch = some b →
        (b.tags = [] → exec (.batchClose true) s = .next (answered .batchEmpty .none s)) ∧
        (∀ h, b.tags ≠ [] → b.kind = .issue → b.home = some h → PostReady s → listRoom s = true →
          exec (.batchClose true) s = .next (answered .accepted .none (postAsked (.batchPost s.cgt.startEpoch b.number)
            ⟨default, .issue, b.account, depositSum (batchItems b), batchItems b, none, none⟩ h { s with cgt := { s.cgt with
              state := .closing, batch := some { b with amount := some (depositSum (batchItems b)) } } }))) ∧
        (b.tags ≠ [] → b.kind = .ret → b.counts.length = 8 → (∃ n ∈ b.counts, n ≠ 0) → s.cgt.poolT = none →
          (∀ h, b.home = some h → b.amount = none → s.cgt.poolBusy = false → s.cgt.pend = List.replicate 8 0 → PostReady s →
            s.store.list.length + s.store.pend.length < 7 →
            let p : Posting := ⟨⟨s.node.number, s.sys.epoch, s.node.nextPosting⟩, .ret, b.account, 0, batchItems b, none, none⟩
            ∃ t carried, exec (.batchClose true) s = .next t ∧ t.port.buf.code = .accepted ∧ t.cgt.state = .closing ∧
              t.cgt.batch = some b ∧ t.cgt.riseWaits = false ∧ t.cgt.poolBusy = true ∧ t.cgt.pend = List.replicate 8 0 ∧
              t.store.list = s.store.list ++ [
                ⟨.pool carried, .group [.node (.pool (List.zipWith (fun p n => min 65535 (p + n)) s.node.pool b.counts))]⟩,
                ⟨.excWork, .group [.outbound ⟨p, .batchPost s.cgt.startEpoch b.number, h, none⟩,
                  .node (nodeAfter s.sys.epoch s.node.nextPosting 1)]⟩] ∧
              t.exc.work = some (.create (batchPostReq s.cgt.startEpoch b) [p]) ∧ t.node = s.node ∧ t.book = s.book) ∧
          (let pend := List.zipWith (fun (c : Int) (n : Nat) => c + n) s.cgt.pend b.counts
           s.cgt.poolBusy = true → pend.all (· == 0) = false →
            exec (.batchClose true) s = .next (answered .accepted .none { s with cgt := { s.cgt with
              state := .closing, riseWaits := true, pend := pend } })))) ∧
      (∀ b, s.cgt.state = .resolving ∨ s.cgt.state = .opened → s.cgt.batch = some b →
        let locate : Ref := .batchLocate s.cgt.startEpoch b.number
        (∀ j ∈ s.exc.jobs, jobOf locate j = false) → (∀ r, s.exc.work = some (.advance (.create r)) → r.ref ≠ locate) →
          exec (.batchCancel true) s = .next (answered .done .none (flagged .batchDone { s with
            exc := { s.exc with asks := s.exc.asks.filter fun r => r.ref != locate }
            cgt := { s.cgt with
              state := .idle, batch := none, riseWaits := false, postT := none
              result := some { code := .cancelled, batch := { b with tags := [] } }
              cnt := { s.cgt.cnt with cancelled := bump s.cgt.cnt.cancelled } } }))) ∧
      (s.cgt.state = .idle ∨ s.cgt.state = .closing ∨ s.cgt.state = .posting →
        exec (.batchCancel true) s = .next (answered .notOpen .none s)) ∧
      (∀ n, ¬(1 ≤ n ∧ n ≤ 16777215) → exec (.block true n) s = .next (answered .badValue .none s) ∧
        exec (.unblock true n) s = .next (answered .badValue .none s)) ∧
      (∀ n, serialOk n = true →
        (n ∉ s.cgt.blocked → s.cgt.blocked.length < 32 → exec (.block true n) s =
          .next (answered .done .none { s with cgt := { s.cgt with blocked := s.cgt.blocked ++ [n] } })) ∧
        (n ∉ s.cgt.blocked → 32 ≤ s.cgt.blocked.length → exec (.block true n) s = .next (answered .listFull .none s)) ∧
        (n ∈ s.cgt.blocked → exec (.block true n) s = .next (answered .done .none s) ∧
          exec (.unblock true n) s =
            .next (answered .done .none { s with cgt := { s.cgt with blocked := s.cgt.blocked.filter (· != n) } })) ∧
        (n ∉ s.cgt.blocked → exec (.unblock true n) s = .next (answered .notListed .none s)))) ∧
    (s.port.role = some .gate →
      (∀ bytes, readTag bytes = none → exec (.tagRead bytes) s = .next { s with cgt := { s.cgt with
        cnt := { s.cgt.cnt with tagErrors := bump s.cgt.cnt.tagErrors } } }) ∧
      (∀ (x : List Byte) (ty n : Nat), readTag x = some (ty, n) ↔ ∃ t a b c : Byte, x = [t, a, b, c, t ^^^ a ^^^ b ^^^ c] ∧
        ty = t.toNat ∧ 1 ≤ ty ∧ ty ≤ 8 ∧ n = 65536 * a.toNat + 256 * b.toNat + c.toNat ∧ 1 ≤ n) ∧
      (∀ bytes, (readTag bytes).isSome = true → s.cgt.state ≠ .opened → exec (.tagRead bytes) s = .next { s with cgt := { s.cgt with
        cnt := { s.cgt.cnt with unbatched := bump s.cgt.cnt.unbatched } } }) ∧
      (∀ bytes ty n b, readTag bytes = some (ty, n) → s.cgt.state = .opened → s.cgt.batch = some b →
        ((∃ p ∈ b.tags, p.1 = n) → exec (.tagRead bytes) s = .next { s with cgt := { s.cgt with
          batch := some { b with duplicates := bump b.duplicates }
          cnt := { s.cgt.cnt with duplicates := bump s.cgt.cnt.duplicates } } }) ∧
        ((∀ p ∈ b.tags, p.1 ≠ n) → n ∈ s.cgt.blocked → s.sys.phase = .running →
          exec (.tagRead bytes) s = .next (flagged .batchDone { s with cgt := { s.cgt with
            batch := some { b with rejected := bump b.rejected }
            cnt := { s.cgt.cnt with rejected := bump s.cgt.cnt.rejected } } })) ∧
        ((∀ p ∈ b.tags, p.1 ≠ n) → n ∉ s.cgt.blocked → 64 ≤ b.tags.length → s.sys.phase = .running →
          exec (.tagRead bytes) s = .next (flagged .batchDone { s with cgt := { s.cgt with
            batch := some { b with refusedFull := bump b.refusedFull }
            cnt := { s.cgt.cnt with refusedFull := bump s.cgt.cnt.refusedFull } } })) ∧
        ((∀ p ∈ b.tags, p.1 ≠ n) → n ∉ s.cgt.blocked → b.tags.length < 64 →
          exec (.tagRead bytes) s = .next { s with cgt := { s.cgt with batch := some { b with
            tags := b.tags ++ [(n, ty)], counts := b.counts.set (ty - 1) (b.counts.getD (ty - 1) 0 + 1) } } }))) ∧
    (s.cgt.poolT = some 0 → (s.cgt.pend.all (· == 0)) = false → s.cgt.poolBusy = false → s.cgt.riseWaits = false → ListOpen s →
      ∃ t, exec .poolUpdateRetry s = .next t ∧ t.cgt.poolT = none ∧ t.cgt.poolBusy = true ∧ t.cgt.pend = List.replicate 8 0 ∧
        ∃ carried, t.store.list = s.store.list ++ [⟨.pool carried, .group [.node (.pool
          (List.zipWith (fun (p : Nat) (c : Int) => (min 65535 (max 0 ((p : Int) + c))).toNat) s.node.pool s.cgt.pend))]⟩]) ∧
    (∀ b h, s.cgt.postT = some 0 → s.cgt.state = .closing → s.cgt.batch = some b → b.home = some h → PostReady s →
      ListOpen s →
      exec .cgtPostingRetry s = .next (postAsked (.batchPost s.cgt.startEpoch b.number)
        ⟨default, batchPostKind b.kind, b.account, b.amount.getD 0, batchItems b, none, none⟩ h
        { s with cgt := { s.cgt with postT := none } })) ∧
    (s.port.role = some .gate → s.sys.phase = .running →
      let closed (b : Batch) (r : BatchResult) (cnt : CgtCounters) (t : State) : State := flagged .batchDone { t with cgt := { t.cgt with
        state := .idle, batch := none, riseWaits := false, postT := none, result := some { r with batch := { b with tags := [] } }, cnt := cnt } }
      let lost : CgtCounters := { s.cgt.cnt with failed := bump s.cgt.cnt.failed }
      let won : CgtCounters := { s.cgt.cnt with done := bump s.cgt.cnt.done }
      (∀ b e, s.cgt.state = .resolving → s.cgt.batch = some b → e.ref = .batchLocate s.cgt.startEpoch b.number →
        (∀ h, unitOutcome e (.home h) s =
          flagged .batchDone { s with cgt := { s.cgt with state := .opened, batch := some { b with home := some h } } }) ∧
        unitOutcome e .noHome s = closed b ⟨.unknown, b, none, none, none⟩ lost s ∧
        ∀ last, unitOutcome e (.failed last) s = closed b ⟨.failed, b, none, none, none⟩ lost s) ∧
      (∀ e ep n o, e.ref = .batchLocate ep n → s.cgt.state ≠ .resolving ∨ batchInHand s ep n = false → unitOutcome e o s = s) ∧
      (∀ b e p, s.cgt.state = .posting → s.cgt.batch = some b → e.ref = .batchPost s.cgt.startEpoch b.number → Ended e p s →
        (∀ cs node, p.kind = .ret →
          let refunds : List (Nat × Nat) := cs.map fun x => (x.1, x.2 * b.deposits.getD (x.1 - 1) 0)
          unitOutcome e (.answer .done (.counts cs) node) s =
            outcomeTaken e p (closed b ⟨.done, b, some cs, some refunds, some (refunds.map (·.2)).sum⟩ won s) ∧
          unitOutcome e (.answer .clamped (.counts cs) node) s =
            outcomeTaken e p (closed b ⟨.clamped, b, some cs, some refunds, some (refunds.map (·.2)).sum⟩ won s)) ∧
        (∀ d node, p.kind = .ret →
          unitOutcome e (.answer .doneAlready d node) s = outcomeTaken e p (closed b ⟨.done, b, none, none, none⟩ won s)) ∧
        (∀ d node, p.kind = .issue →
          unitOutcome e (.answer .refusedFunds d node) s = outcomeTaken e p (closed b ⟨.refusedFunds, b, none, none, none⟩ lost s)) ∧
        (∀ c d node, c = .done ∨ c = .doneAlready → p.kind = .issue → s.cgt.poolBusy = false → s.cgt.poolT = none → s.cgt.pend = List.replicate 8 0 →
          (∃ n ∈ itemCounts p.items, n ≠ 0) → (itemCounts p.items).length = 8 → s.store.list.length + s.store.pend.length < 7 →
          ∃ t carried, unitOutcome e (.answer c d node) s = t ∧
            t.store.list = s.store.list ++ [
              ⟨.pool carried, .group [.node (.pool (List.zipWith (fun p n => min 65535 (p - n)) s.node.pool (itemCounts p.items)))]⟩,
              ⟨.outRemoval p.id, .removal (.outbound p.id.epoch p.id.number)⟩] ∧
            t.cgt.state = .idle ∧ t.cgt.batch = none ∧ t.cgt.poolBusy = true ∧ t.cgt.pend = List.replicate 8 0 ∧
            t.cgt.result = some ⟨.done, { b with tags := [] }, none, none, none⟩ ∧
            t.port.flags = s.port.flags ||| flagBit .batchDone)) ∧
      (∀ b e p last, s.cgt.state = .posting → s.cgt.batch = some b → e.ref = .batchPost s.cgt.startEpoch b.number → e.body = .post p →
        findEntry s e.seq = some e → e.state = .failed →
        unitOutcome e (.failed last) s = closed b ⟨.failed, b, none, none, none⟩ lost s) ∧
      (∀ ep n e p, s.cgt.state ≠ .posting ∨ batchInHand s ep n = false → e.ref = .batchPost ep n →
        let record (c : LateCode) (cs : Option (List (Nat × Nat))) : LateBatch :=
          ⟨ep, n, if p.kind = .issue then .issue else .ret, p.account, p.id, c, cs⟩
        let noted (c : LateCode) (cs : Option (List (Nat × Nat))) : State := flagged .batchDone { s with cgt := { s.cgt with
          late := some (record c cs), cnt := { s.cgt.cnt with late := bump s.cgt.cnt.late } } }
        let late (c : LateCode) (cs : Option (List (Nat × Nat))) : State := outcomeTaken e p (noted c cs)
        (∀ last, e.body = .post p → findEntry s e.seq = some e → e.state = .failed → unitOutcome e (.failed last) s = noted .failed none) ∧
        (Ended e p s →
          (∀ cs node, p.kind = .ret → unitOutcome e (.answer .done (.counts cs) node) s = late (.answer .done) (some cs) ∧
            unitOutcome e (.answer .clamped (.counts cs) node) s = late (.answer .clamped) (some cs)) ∧
          (∀ d node, p.kind = .ret → unitOutcome e (.answer .doneAlready d node) s = late (.answer .doneAlready) none) ∧
          (∀ d node, p.kind = .issue → unitOutcome e (.answer .refusedFunds d node) s = late (.answer .refusedFunds) none) ∧
          (∀ d node, p.kind = .issue → ep ≠ s.cgt.startEpoch →
            unitOutcome e (.answer .doneAlready d node) s = late (.answer .doneAlready) none) ∧
          unitOutcome e .discarded s = late .discarded none ∧
          (∀ c d node, c = .done ∨ (c = .doneAlready ∧ ep = s.cgt.startEpoch) → p.kind = .issue → s.cgt.poolBusy = false →
            s.cgt.poolT = none → s.cgt.pend = List.replicate 8 0 → s.cgt.riseWaits = false → (∃ n ∈ itemCounts p.items, n ≠ 0) →
            (itemCounts p.items).length = 8 → s.store.list.length + s.store.pend.length < 7 →
            ∃ t carried, unitOutcome e (.answer c d node) s = t ∧
              t.store.list = s.store.list ++ [
                ⟨.pool carried, .group [.node (.pool (List.zipWith (fun p n => min 65535 (p - n)) s.node.pool (itemCounts p.items)))]⟩,
                ⟨.outRemoval p.id, .removal (.outbound p.id.epoch p.id.number)⟩] ∧
              t.cgt.state = s.cgt.state ∧ t.cgt.batch = s.cgt.batch ∧ t.cgt.poolBusy = true ∧ t.cgt.pend = List.replicate 8 0 ∧
              t.cgt.late = some (record (.answer c) none) ∧ t.port.flags = s.port.flags ||| flagBit .batchDone))))
end

