-- ==== Sys2Proof/Laws/State.lean ====
section
/-! SUPPORT. One lemma per field of State for the update of each block, and the lemmas of the smallest shared operations. -/

namespace Sys2Proof.Machine
open Sys2Proof

variable (s : State)

@[simp] theorem onSys_pending (g : Sys → Sys) : (s.onSys g).pending = s.pending := rfl
@[simp] theorem onSys_sys (g : Sys → Sys) : (s.onSys g).sys = g s.sys := rfl
@[simp] theorem onSys_port (g : Sys → Sys) : (s.onSys g).port = s.port := rfl
@[simp] theorem onSys_lif (g : Sys → Sys) : (s.onSys g).lif = s.lif := rfl
@[simp] theorem onSys_exc (g : Sys → Sys) : (s.onSys g).exc = s.exc := rfl
@[simp] theorem onSys_book (g : Sys → Sys) : (s.onSys g).book = s.book := rfl
@[simp] theorem onSys_store (g : Sys → Sys) : (s.onSys g).store = s.store := rfl
@[simp] theorem onSys_node (g : Sys → Sys) : (s.onSys g).node = s.node := rfl
@[simp] theorem onSys_wgu (g : Sys → Sys) : (s.onSys g).wgu = s.wgu := rfl
@[simp] theorem onSys_clu (g : Sys → Sys) : (s.onSys g).clu = s.clu := rfl
@[simp] theorem onSys_icm (g : Sys → Sys) : (s.onSys g).icm = s.icm := rfl
@[simp] theorem onSys_cgt (g : Sys → Sys) : (s.onSys g).cgt = s.cgt := rfl
@[simp] theorem onPort_pending (g : Port → Port) : (s.onPort g).pending = s.pending := rfl
@[simp] theorem onPort_sys (g : Port → Port) : (s.onPort g).sys = s.sys := rfl
@[simp] theorem onPort_port (g : Port → Port) : (s.onPort g).port = g s.port := rfl
@[simp] theorem onPort_lif (g : Port → Port) : (s.onPort g).lif = s.lif := rfl
@[simp] theorem onPort_exc (g : Port → Port) : (s.onPort g).exc = s.exc := rfl
@[simp] theorem onPort_book (g : Port → Port) : (s.onPort g).book = s.book := rfl
@[simp] theorem onPort_store (g : Port → Port) : (s.onPort g).store = s.store := rfl
@[simp] theorem onPort_node (g : Port → Port) : (s.onPort g).node = s.node := rfl
@[simp] theorem onPort_wgu (g : Port → Port) : (s.onPort g).wgu = s.wgu := rfl
@[simp] theorem onPort_clu (g : Port → Port) : (s.onPort g).clu = s.clu := rfl
@[simp] theorem onPort_icm (g : Port → Port) : (s.onPort g).icm = s.icm := rfl
@[simp] theorem onPort_cgt (g : Port → Port) : (s.onPort g).cgt = s.cgt := rfl
@[simp] theorem onLif_pending (g : Lif → Lif) : (s.onLif g).pending = s.pending := rfl
@[simp] theorem onLif_sys (g : Lif → Lif) : (s.onLif g).sys = s.sys := rfl
@[simp] theorem onLif_port (g : Lif → Lif) : (s.onLif g).port = s.port := rfl
@[simp] theorem onLif_lif (g : Lif → Lif) : (s.onLif g).lif = g s.lif := rfl
@[simp] theorem onLif_exc (g : Lif → Lif) : (s.onLif g).exc = s.exc := rfl
@[simp] theorem onLif_book (g : Lif → Lif) : (s.onLif g).book = s.book := rfl
@[simp] theorem onLif_store (g : Lif → Lif) : (s.onLif g).store = s.store := rfl
@[simp] theorem onLif_node (g : Lif → Lif) : (s.onLif g).node = s.node := rfl
@[simp] theorem onLif_wgu (g : Lif → Lif) : (s.onLif g).wgu = s.wgu := rfl
@[simp] theorem onLif_clu (g : Lif → Lif) : (s.onLif g).clu = s.clu := rfl
@[simp] theorem onLif_icm (g : Lif → Lif) : (s.onLif g).icm = s.icm := rfl
@[simp] theorem onLif_cgt (g : Lif → Lif) : (s.onLif g).cgt = s.cgt := rfl
@[simp] theorem onExc_pending (g : Exc → Exc) : (s.onExc g).pending = s.pending := rfl
@[simp] theorem onExc_sys (g : Exc → Exc) : (s.onExc g).sys = s.sys := rfl
@[simp] theorem onExc_port (g : Exc → Exc) : (s.onExc g).port = s.port := rfl
@[simp] theorem onExc_lif (g : Exc → Exc) : (s.onExc g).lif = s.lif := rfl
@[simp] theorem onExc_exc (g : Exc → Exc) : (s.onExc g).exc = g s.exc := rfl
@[simp] theorem onExc_book (g : Exc → Exc) : (s.onExc g).book = s.book := rfl
@[simp] theorem onExc_store (g : Exc → Exc) : (s.onExc g).store = s.store := rfl
@[simp] theorem onExc_node (g : Exc → Exc) : (s.onExc g).node = s.node := rfl
@[simp] theorem onExc_wgu (g : Exc → Exc) : (s.onExc g).wgu = s.wgu := rfl
@[simp] theorem onExc_clu (g : Exc → Exc) : (s.onExc g).clu = s.clu := rfl
@[simp] theorem onExc_icm (g : Exc → Exc) : (s.onExc g).icm = s.icm := rfl
@[simp] theorem onExc_cgt (g : Exc → Exc) : (s.onExc g).cgt = s.cgt := rfl
@[simp] theorem onBook_pending (g : Book → Book) : (s.onBook g).pending = s.pending := rfl
@[simp] theorem onBook_sys (g : Book → Book) : (s.onBook g).sys = s.sys := rfl
@[simp] theorem onBook_port (g : Book → Book) : (s.onBook g).port = s.port := rfl
@[simp] theorem onBook_lif (g : Book → Book) : (s.onBook g).lif = s.lif := rfl
@[simp] theorem onBook_exc (g : Book → Book) : (s.onBook g).exc = s.exc := rfl
@[simp] theorem onBook_book (g : Book → Book) : (s.onBook g).book = g s.book := rfl
@[simp] theorem onBook_store (g : Book → Book) : (s.onBook g).store = s.store := rfl
@[simp] theorem onBook_node (g : Book → Book) : (s.onBook g).node = s.node := rfl
@[simp] theorem onBook_wgu (g : Book → Book) : (s.onBook g).wgu = s.wgu := rfl
@[simp] theorem onBook_clu (g : Book → Book) : (s.onBook g).clu = s.clu := rfl
@[simp] theorem onBook_icm (g : Book → Book) : (s.onBook g).icm = s.icm := rfl
@[simp] theorem onBook_cgt (g : Book → Book) : (s.onBook g).cgt = s.cgt := rfl
@[simp] theorem onStore_pending (g : Store → Store) : (s.onStore g).pending = s.pending := rfl
@[simp] theorem onStore_sys (g : Store → Store) : (s.onStore g).sys = s.sys := rfl
@[simp] theorem onStore_port (g : Store → Store) : (s.onStore g).port = s.port := rfl
@[simp] theorem onStore_lif (g : Store → Store) : (s.onStore g).lif = s.lif := rfl
@[simp] theorem onStore_exc (g : Store → Store) : (s.onStore g).exc = s.exc := rfl
@[simp] theorem onStore_book (g : Store → Store) : (s.onStore g).book = s.book := rfl
@[simp] theorem onStore_store (g : Store → Store) : (s.onStore g).store = g s.store := rfl
@[simp] theorem onStore_node (g : Store → Store) : (s.onStore g).node = s.node := rfl
@[simp] theorem onStore_wgu (g : Store → Store) : (s.onStore g).wgu = s.wgu := rfl
@[simp] theorem onStore_clu (g : Store → Store) : (s.onStore g).clu = s.clu := rfl
@[simp] theorem onStore_icm (g : Store → Store) : (s.onStore g).icm = s.icm := rfl
@[simp] theorem onStore_cgt (g : Store → Store) : (s.onStore g).cgt = s.cgt := rfl
@[simp] theorem onNode_pending (g : NodeRec → NodeRec) : (s.onNode g).pending = s.pending := rfl
@[simp] theorem onNode_sys (g : NodeRec → NodeRec) : (s.onNode g).sys = s.sys := rfl
@[simp] theorem onNode_port (g : NodeRec → NodeRec) : (s.onNode g).port = s.port := rfl
@[simp] theorem onNode_lif (g : NodeRec → NodeRec) : (s.onNode g).lif = s.lif := rfl
@[simp] theorem onNode_exc (g : NodeRec → NodeRec) : (s.onNode g).exc = s.exc := rfl
@[simp] theorem onNode_book (g : NodeRec → NodeRec) : (s.onNode g).book = s.book := rfl
@[simp] theorem onNode_store (g : NodeRec → NodeRec) : (s.onNode g).store = s.store := rfl
@[simp] theorem onNode_node (g : NodeRec → NodeRec) : (s.onNode g).node = g s.node := rfl
@[simp] theorem onNode_wgu (g : NodeRec → NodeRec) : (s.onNode g).wgu = s.wgu := rfl
@[simp] theorem onNode_clu (g : NodeRec → NodeRec) : (s.onNode g).clu = s.clu := rfl
@[simp] theorem onNode_icm (g : NodeRec → NodeRec) : (s.onNode g).icm = s.icm := rfl
@[simp] theorem onNode_cgt (g : NodeRec → NodeRec) : (s.onNode g).cgt = s.cgt := rfl
@[simp] theorem onWgu_pending (g : Wgu → Wgu) : (s.onWgu g).pending = s.pending := rfl
@[simp] theorem onWgu_sys (g : Wgu → Wgu) : (s.onWgu g).sys = s.sys := rfl
@[simp] theorem onWgu_port (g : Wgu → Wgu) : (s.onWgu g).port = s.port := rfl
@[simp] theorem onWgu_lif (g : Wgu → Wgu) : (s.onWgu g).lif = s.lif := rfl
@[simp] theorem onWgu_exc (g : Wgu → Wgu) : (s.onWgu g).exc = s.exc := rfl
@[simp] theorem onWgu_book (g : Wgu → Wgu) : (s.onWgu g).book = s.book := rfl
@[simp] theorem onWgu_store (g : Wgu → Wgu) : (s.onWgu g).store = s.store := rfl
@[simp] theorem onWgu_node (g : Wgu → Wgu) : (s.onWgu g).node = s.node := rfl
@[simp] theorem onWgu_wgu (g : Wgu → Wgu) : (s.onWgu g).wgu = g s.wgu := rfl
@[simp] theorem onWgu_clu (g : Wgu → Wgu) : (s.onWgu g).clu = s.clu := rfl
@[simp] theorem onWgu_icm (g : Wgu → Wgu) : (s.onWgu g).icm = s.icm := rfl
@[simp] theorem onWgu_cgt (g : Wgu → Wgu) : (s.onWgu g).cgt = s.cgt := rfl
@[simp] theorem onClu_pending (g : Clu → Clu) : (s.onClu g).pending = s.pending := rfl
@[simp] theorem onClu_sys (g : Clu → Clu) : (s.onClu g).sys = s.sys := rfl
@[simp] theorem onClu_port (g : Clu → Clu) : (s.onClu g).port = s.port := rfl
@[simp] theorem onClu_lif (g : Clu → Clu) : (s.onClu g).lif = s.lif := rfl
@[simp] theorem onClu_exc (g : Clu → Clu) : (s.onClu g).exc = s.exc := rfl
@[simp] theorem onClu_book (g : Clu → Clu) : (s.onClu g).book = s.book := rfl
@[simp] theorem onClu_store (g : Clu → Clu) : (s.onClu g).store = s.store := rfl
@[simp] theorem onClu_node (g : Clu → Clu) : (s.onClu g).node = s.node := rfl
@[simp] theorem onClu_wgu (g : Clu → Clu) : (s.onClu g).wgu = s.wgu := rfl
@[simp] theorem onClu_clu (g : Clu → Clu) : (s.onClu g).clu = g s.clu := rfl
@[simp] theorem onClu_icm (g : Clu → Clu) : (s.onClu g).icm = s.icm := rfl
@[simp] theorem onClu_cgt (g : Clu → Clu) : (s.onClu g).cgt = s.cgt := rfl
@[simp] theorem onIcm_pending (g : Icm → Icm) : (s.onIcm g).pending = s.pending := rfl
@[simp] theorem onIcm_sys (g : Icm → Icm) : (s.onIcm g).sys = s.sys := rfl
@[simp] theorem onIcm_port (g : Icm → Icm) : (s.onIcm g).port = s.port := rfl
@[simp] theorem onIcm_lif (g : Icm → Icm) : (s.onIcm g).lif = s.lif := rfl
@[simp] theorem onIcm_exc (g : Icm → Icm) : (s.onIcm g).exc = s.exc := rfl
@[simp] theorem onIcm_book (g : Icm → Icm) : (s.onIcm g).book = s.book := rfl
@[simp] theorem onIcm_store (g : Icm → Icm) : (s.onIcm g).store = s.store := rfl
@[simp] theorem onIcm_node (g : Icm → Icm) : (s.onIcm g).node = s.node := rfl
@[simp] theorem onIcm_wgu (g : Icm → Icm) : (s.onIcm g).wgu = s.wgu := rfl
@[simp] theorem onIcm_clu (g : Icm → Icm) : (s.onIcm g).clu = s.clu := rfl
@[simp] theorem onIcm_icm (g : Icm → Icm) : (s.onIcm g).icm = g s.icm := rfl
@[simp] theorem onIcm_cgt (g : Icm → Icm) : (s.onIcm g).cgt = s.cgt := rfl
@[simp] theorem onCgt_pending (g : Cgt → Cgt) : (s.onCgt g).pending = s.pending := rfl
@[simp] theorem onCgt_sys (g : Cgt → Cgt) : (s.onCgt g).sys = s.sys := rfl
@[simp] theorem onCgt_port (g : Cgt → Cgt) : (s.onCgt g).port = s.port := rfl
@[simp] theorem onCgt_lif (g : Cgt → Cgt) : (s.onCgt g).lif = s.lif := rfl
@[simp] theorem onCgt_exc (g : Cgt → Cgt) : (s.onCgt g).exc = s.exc := rfl
@[simp] theorem onCgt_book (g : Cgt → Cgt) : (s.onCgt g).book = s.book := rfl
@[simp] theorem onCgt_store (g : Cgt → Cgt) : (s.onCgt g).store = s.store := rfl
@[simp] theorem onCgt_node (g : Cgt → Cgt) : (s.onCgt g).node = s.node := rfl
@[simp] theorem onCgt_wgu (g : Cgt → Cgt) : (s.onCgt g).wgu = s.wgu := rfl
@[simp] theorem onCgt_clu (g : Cgt → Cgt) : (s.onCgt g).clu = s.clu := rfl
@[simp] theorem onCgt_icm (g : Cgt → Cgt) : (s.onCgt g).icm = s.icm := rfl
@[simp] theorem onCgt_cgt (g : Cgt → Cgt) : (s.onCgt g).cgt = g s.cgt := rfl

/-! ### raise -/

@[simp] theorem raise_pending (x : Flag) : (raise x s).pending = s.pending := by unfold raise; split <;> rfl
@[simp] theorem raise_lif (x : Flag) : (raise x s).lif = s.lif := by unfold raise; split <;> rfl
@[simp] theorem raise_exc (x : Flag) : (raise x s).exc = s.exc := by unfold raise; split <;> rfl
@[simp] theorem raise_book (x : Flag) : (raise x s).book = s.book := by unfold raise; split <;> rfl
@[simp] theorem raise_store (x : Flag) : (raise x s).store = s.store := by unfold raise; split <;> rfl
@[simp] theorem raise_node (x : Flag) : (raise x s).node = s.node := by unfold raise; split <;> rfl
@[simp] theorem raise_wgu (x : Flag) : (raise x s).wgu = s.wgu := by unfold raise; split <;> rfl
@[simp] theorem raise_clu (x : Flag) : (raise x s).clu = s.clu := by unfold raise; split <;> rfl
@[simp] theorem raise_icm (x : Flag) : (raise x s).icm = s.icm := by unfold raise; split <;> rfl
@[simp] theorem raise_cgt (x : Flag) : (raise x s).cgt = s.cgt := by unfold raise; split <;> rfl

theorem raise_running (x : Flag) (h : s.sys.phase = .running) :
    raise x s = { s with port := { s.port with flags := s.port.flags ||| flagBit x } } := by
  unfold raise; rw [if_pos h]; rfl

theorem raise_starting (x : Flag) (h : s.sys.phase ≠ .running) :
    raise x s = { s with sys := { s.sys with lateFlags := s.sys.lateFlags ||| flagBit x } } := by
  unfold raise; rw [if_neg h]; rfl

@[simp] theorem raise_phase (x : Flag) : (raise x s).sys.phase = s.sys.phase := by unfold raise; split <;> rfl
@[simp] theorem raise_mask (x : Flag) : (raise x s).port.mask = s.port.mask := by unfold raise; split <;> rfl
@[simp] theorem raise_role (x : Flag) : (raise x s).port.role = s.port.role := by unfold raise; split <;> rfl
@[simp] theorem raise_cfg (x : Flag) : (raise x s).port.cfg = s.port.cfg := by unfold raise; split <;> rfl

/-! ### counters and timers -/

theorem bump_le (n : Nat) : bump n ≤ 65535 := Nat.min_le_left _ _
theorem bump_of_lt {n : Nat} (h : n < 65535) : bump n = n + 1 := by simp only [bump, bumpBy]; omega
@[simp] theorem bump_top : bump 65535 = 65535 := by decide

@[simp] theorem due_some_zero : due (some 0) = true := rfl
@[simp] theorem due_none : due none = false := rfl
@[simp] theorem tickTimer_none : tickTimer none = none := rfl
@[simp] theorem tickTimer_some (n : Nat) : tickTimer (some n) = some (n - 1) := rfl

end Sys2Proof.Machine
end

