-- ==== Sys2Proof/Laws/Frames.lean ====
section
/-! SUPPORT. What the shared operations can do, once each: the frame of a port command (R196 to R199), the placing of a message (R76,
R77), the placing of a store request (R54), the taking of a queue entry (R22, R133), the reading and the hearing of a message (R71), a
re-identification (R110), the scan of a slot (R65), the update of a sale (R160 to R163), the room of an answer's data (R203), the tables
that are kept in order (R20, R84, R89, R131, R158), the lot queue and its clean-up (R142, R164), the end of a search and the refunded
counts (R103, R191), and the home map (R107). -/

namespace Sys2Proof.Machine
open Sys2Proof

/-! ### Frames -/

theorem Taken.not_starting {s : State} (h : Taken s) : portStarting s = false := by
  simp [portStarting, h.1, h.2]

theorem carryAnswer_eq (s : State) :
    carryAnswer s = { s with port := { s.port with sent := s.port.buf }, wgu := readEnded s.wgu } := by
  obtain ⟨p, y, po, l, x, b, st, n, w, c, m, g⟩ := s
  obtain ⟨w1, w2, w3, w4, w5, w6, w7, w8, waiting, reading⟩ := w
  cases reading <;> cases waiting <;> rfl

theorem statusWord_carryAnswer (s : State) (f : PortFault) : statusWord (carryAnswer s) f = statusWord s f := by
  rw [carryAnswer_eq]; all_goals rfl

theorem portStarting_carryAnswer (s : State) : portStarting (carryAnswer s) = portStarting s := by
  rw [carryAnswer_eq]; all_goals rfl

theorem compose_carryAnswer (c : PCode) (d : PData) (s : State) : compose c d (carryAnswer s) = answered c d s := by
  unfold compose answered
  rw [statusWord_carryAnswer, carryAnswer_eq]

/-- A frame does one of five things: nothing without supply, the answer NONE while STARTING, a refusal of its length, a refusal of
its role, or its owner's effect and answer. -/
theorem frame_cases (ok : Bool) (role : Option Role) (owner : State → State × Reply) (s : State) :
    frame ok role owner s =
      if s.sys.phase = .off then s
      else if portStarting s then unanswered .none s
      else if ok = false then answered .badValue .none s
      else if role.isSome && role != s.port.role then answered .wrongRole .none s
      else compose (owner (carryAnswer s)).2.code (owner (carryAnswer s)).2.data (owner (carryAnswer s)).1 := by
  have hr : (carryAnswer s).port.role = s.port.role := by rw [carryAnswer_eq]
  unfold frame
  split
  · rfl
  · simp only [portStarting_carryAnswer, compose_carryAnswer, hr, Bool.not_eq_true']
    split
    · unfold bareAnswer unanswered
      rw [statusWord_carryAnswer, carryAnswer_eq]
      all_goals rfl
    · rfl

/-- A frame of good length with its role in service: its owner's effect and answer. -/
theorem frame_taken {s : State} (h : Taken s) (role : Option Role) (hr : role = none ∨ role = s.port.role)
    (owner : State → State × Reply) :
    frame true role owner s =
      compose (owner (carryAnswer s)).2.code (owner (carryAnswer s)).2.data (owner (carryAnswer s)).1 := by
  rw [frame_cases]
  have h1 : s.sys.phase ≠ .off := by rw [h.1]; decide
  rcases hr with rfl | rfl <;> simp [h1, h.not_starting]

/-- An owner whose effect stands beside the answer that the frame carried out. -/
theorem frame_effect {s t : State} (h : Taken s) (role : Option Role) (hr : role = none ∨ role = s.port.role)
    (owner : State → State × Reply) (c : PCode) (d : PData) (ho : owner (carryAnswer s) = (carryAnswer t, ⟨c, d⟩)) :
    frame true role owner s = answered c d t := by
  rw [frame_taken h role hr, ho]
  exact compose_carryAnswer c d t

/-! ### Placing a message (R76, R77) -/

/-- A placing does one of three things. -/
theorem placeMsg_cases (e : Ends) (m : Msg) (s : State) :
    (placingOf m s = .taken ∧ placeMsg e m s = enqueueMsg m s) ∨
    (placingOf m s = .waits ∧ placeMsg e m s = s.onLif fun l => { l with wait := l.wait ++ [⟨m, e⟩] }) ∨
    (placingOf m s = .lineDown ∧ placeMsg e m s = s) := by
  unfold placeMsg
  cases h : placingOf m s <;> simp

theorem placingOf_active {m : Msg} {s : State} (h : s.lif.state = .active) (hr : sendRoom s = true) : placingOf m s = .taken := by
  simp [placingOf, h, hr]

theorem placeMsg_active (e : Ends) {m : Msg} {s : State} (h : s.lif.state = .active) (hr : sendRoom s = true) :
    placeMsg e m s = enqueueMsg m s := by
  simp [placeMsg, placingOf_active h hr]

/-- A request of the EXC is placed and counted, waits uncounted, or is dropped with the line (R76, R113). -/
theorem placeRequest_cases (m : Msg) (s : State) :
    (placingOf m s = .taken ∧ placeRequest m s = countSend (enqueueMsg m s)) ∨
    (placingOf m s = .waits ∧ placeRequest m s = s.onLif fun l => { l with wait := l.wait ++ [⟨m, .nothing⟩] }) ∨
    (placingOf m s = .lineDown ∧ placeRequest m s = s) := by
  unfold placeRequest placeMsg
  cases h : placingOf m s <;> simp

/-- A request handed to the own book enters its queue and is counted, or waits uncounted (R22, R113). -/
theorem handToBook_cases (r : BookReq) (s : State) :
    (bookRoom s = true ∧ handToBook r s = bookEnter r (countSend s)) ∨
    (bookRoom s = false ∧ handToBook r s = s.onBook fun b => { b with wait := b.wait ++ [r] }) := by
  unfold handToBook bookEnterOwn
  have hc : bookRoom (countSend s) = bookRoom s := rfl
  cases h : bookRoom s <;> simp [h, hc]

/-- A reserve message finds room, takes the place of another, or is not composed; the reserve never grows past 4. -/
theorem reserveMsg_length (d : Bool) (m : Msg) (s : State) (h : s.lif.reserve.length ≤ 4) :
    (reserveMsg d m s).lif.reserve.length ≤ 4 := by
  unfold reserveMsg
  simp only
  split
  · simp; omega
  · split
    · split
      · rename_i x hx
        simp only [List.length_append, List.length_singleton]
        have hm : x ∈ s.lif.reserve := by
          have : ∀ (ms : List Msg) (acc : Option Msg), (∀ y, acc = some y → y ∈ s.lif.reserve) → (∀ y ∈ ms, y ∈ s.lif.reserve) →
              ∀ y, ms.foldl (fun acc m => match acc with
                | none => some m
                | some x => if x.stamp < m.stamp then some m else some x) acc = some y → y ∈ s.lif.reserve := by
            intro ms
            induction ms with
            | nil => intro acc ha _ y hy; exact ha y hy
            | cons z zs ih =>
              intro acc ha hz y hy
              refine ih _ ?_ (fun y hy => hz y (List.mem_cons_of_mem _ hy)) y hy
              intro w hw
              cases acc with
              | none => simp at hw; exact hw ▸ hz z List.mem_cons_self
              | some a =>
                simp only at hw
                split at hw
                · cases hw; exact hz _ List.mem_cons_self
                · exact ha _ hw
          exact this _ none (by simp) (fun y hy => (List.mem_filter.1 hy).1) x hx
        have : (s.lif.reserve.filter fun y => y.stamp != x.stamp).length < s.lif.reserve.length :=
          List.length_filter_lt_length_iff_exists.2 ⟨x, hm, by simp⟩
        omega
      · simpa using h
    · simpa using h

/-! ### Placing a store request (R54) -/

/-- A placing is discarded during an erasure, takes its place on the list, or waits in its unit. -/
theorem placeStore_cases (r : Request) (s : State) :
    (s.store.erasing.isSome = true ∧ placeStore r s = s) ∨
    (s.store.erasing = none ∧ listRoom s = true ∧ placeStore r s = listRequest r s) ∨
    (s.store.erasing = none ∧ listRoom s = false ∧ placeStore r s = s.onStore fun st => { st with pend := st.pend ++ [r] }) := by
  unfold placeStore
  cases h : s.store.erasing <;> cases hr : listRoom s <;> simp

/-- A request that is no pool update joins the list as it is. -/
theorem listRequest_plain {r : Request} (h : ∀ c, r.owner ≠ .pool c) (s : State) :
    listRequest r s = s.onStore fun st => { st with list := st.list ++ [r] } := by
  unfold listRequest
  split
  · rename_i c hc; exact absurd hc (h c)
  · rfl

theorem placeStore_room {r : Request} {s : State} (he : s.store.erasing = none) (hr : listRoom s = true)
    (h : ∀ c, r.owner ≠ .pool c) : placeStore r s = s.onStore fun st => { st with list := st.list ++ [r] } := by
  simp [placeStore, he, hr, listRequest_plain h]

/-! ### Taking an entry (R22, R133) -/

/-- The book takes the front entry when no entry is in hand and its kind is the one asked for; otherwise nothing happens. -/
theorem takeBook_cases (f : BookReq → Option (State → State)) (s : State) :
    (∃ r rest g, s.book.hand = none ∧ s.book.queue = r :: rest ∧ f r = some g ∧
      takeBook f s = g (s.onBook fun b => { b with queue := rest, hand := some r })) ∨ takeBook f s = s := by
  unfold takeBook
  split
  · rename_i r rest h1 h2
    cases h : f r with
    | none => exact .inr rfl
    | some g => exact .inl ⟨r, rest, g, h1, h2, h, rfl⟩
  · exact .inr rfl

theorem takeBook_front {f : BookReq → Option (State → State)} {s : State} {r : BookReq} {rest : List BookReq} {g : State → State}
    (h1 : s.book.hand = none) (h2 : s.book.queue = r :: rest) (h : f r = some g) :
    takeBook f s = g (s.onBook fun b => { b with queue := rest, hand := some r }) := by
  simp [takeBook, h1, h2, h]

/-! ### Counting the requests that end (R58, R61) -/

theorem countResult_done (s : State) : countResult .done s = s := rfl

/-! ### Groups and removals -/

theorem placeGroup_room {o : Owner} {ws : List RecWrite} {s : State} (he : s.store.erasing = none) (hr : listRoom s = true)
    (h : ∀ c, o ≠ .pool c) :
    placeGroup o ws s = { s with store := { s.store with list := s.store.list ++ [⟨o, .group ws⟩] } } :=
  placeStore_room he hr h

theorem placeRemoval_room {o : Owner} {k : RecKey} {s : State} (he : s.store.erasing = none) (hr : listRoom s = true)
    (h : ∀ c, o ≠ .pool c) :
    placeRemoval o k s = { s with store := { s.store with list := s.store.list ++ [⟨o, .removal k⟩] } } :=
  placeStore_room he hr h

/-! ### Reading a transmission (section 4.1, R71) -/

/-- A kind of the table stands there with its own class and kind code. -/
theorem lineKindOf_codes {cls code : Nat} {k : LineKind} (h : lineKindOf cls code = some k) : k.cls.code = cls ∧ k.code = code := by
  simpa using List.find?_some h

/-- A transmission whose body and check have the announced length: what its check and its header are read from. -/
theorem readLine_whole (a b src dst seq n : Byte) {body check : List Byte} (hb : body.length = n.toNat) (hc : check.length = 2)
    (stop : Bool) :
    readLine ⟨a, b :: src :: dst :: seq :: n :: body ++ check, stop⟩ =
      if stop = true ∨ check ≠ beBytes 2 (lineCheck (b :: src :: dst :: seq :: n :: body)).toNat then .checkError
      else match lineKindOf (b.toNat / 64) (b.toNat % 64) with
        | some k =>
          if a = arbitrationCode k.cls src.toNat ∧ headerOk k.toAll ⟨src.toNat, dst.toNat, seq.toNat⟩ = true then
            .message k ⟨src.toNat, dst.toNat, seq.toNat⟩ body
          else .formatError
        | none => .formatError := by
  have h1 : fieldAt (n.toNat + 5) 2 (b :: src :: dst :: seq :: n :: body ++ check) = check := by
    unfold fieldAt
    rw [List.drop_left' (l₁ := b :: src :: dst :: seq :: n :: body) (by simp [hb]), List.take_of_length_le (by omega)]
  have h2 : (b :: src :: dst :: seq :: n :: body ++ check).take (n.toNat + 5) = b :: src :: dst :: seq :: n :: body := by simp [← hb]
  have h3 : fieldAt 5 n.toNat (b :: src :: dst :: seq :: n :: body ++ check) = body := by simp [fieldAt, ← hb]
  have hn : numAt 4 1 (b :: src :: dst :: seq :: n :: body ++ check) = n.toNat := by simp [numAt, fieldAt]
  have hl : (b :: src :: dst :: seq :: n :: body ++ check).length = n.toNat + 7 := by simp [hb, hc]
  have hr : readHeader ⟨a, b :: src :: dst :: seq :: n :: body ++ check, stop⟩ =
      match lineKindOf (b.toNat / 64) (b.toNat % 64) with
      | some k =>
        if a = arbitrationCode k.cls src.toNat ∧ headerOk k.toAll ⟨src.toNat, dst.toNat, seq.toNat⟩ = true then
          .message k ⟨src.toNat, dst.toNat, seq.toNat⟩ body
        else .formatError
      | none => .formatError := by
    have ha : numAt 0 1 (b :: src :: dst :: seq :: n :: body ++ check) = b.toNat := by simp [numAt, fieldAt]
    have hs : numAt 1 1 (b :: src :: dst :: seq :: n :: body ++ check) = src.toNat := by simp [numAt, fieldAt]
    have hd : numAt 2 1 (b :: src :: dst :: seq :: n :: body ++ check) = dst.toNat := by simp [numAt, fieldAt]
    have hq : numAt 3 1 (b :: src :: dst :: seq :: n :: body ++ check) = seq.toNat := by simp [numAt, fieldAt]
    simp only [readHeader, hn, h3, ha, hs, hd, hq]
    all_goals rfl
  simp only [readLine, checkFails, hn, h1, h2, hl, hr]
  simp

/-! ### Hearing a message (R71) -/

/-- A well-formed message of another node for this node or for all, heard in ACTIVE: the peer is refreshed and the message
delivered. -/
theorem hear_active {toAll : Bool} {h : Hdr} {told : Option (Role × Nat)} {own deliver : State → State} {s : State}
    (ha : s.lif.state = .active) (hk : headerOk toAll h = true) (hs : h.src ≠ s.self) (hd : h.dst = 0 ∨ h.dst = s.self) :
    hear toAll h told own deliver s = deliver (hearPeer h.src told s) := by
  have h1 : (hearPeer h.src told s).lif.state = .active := ha
  have h2 : (hearPeer h.src told s).self = s.self := rfl
  have h3 : ¬(h.dst ≠ 0 ∧ h.dst ≠ s.self) := by omega
  simp [hear, ha, hk, hs, h1, h2, h3]

/-! ### Re-identification (R56, R110) -/

@[simp] theorem renamed_seq (id : Ident) (e : Entry) : (e.renamed id).seq = e.seq := by
  unfold Entry.renamed; split <;> [split; skip] <;> rfl

theorem renamed_post {e : Entry} {p : Posting} {id : Ident} (hb : e.body = .post p) (h : p.id ≠ id) :
    e.renamed id = { e with body := .post { p with id := id }, replaced := some p.id, sends := 0, deferrals := 0 } := by
  simp [Entry.renamed, hb, h]

/-- An entry that has taken the identity with its OUTBOUND write does not take it again. -/
theorem renamed_same {e : Entry} {p : Posting} (hb : e.body = .post p) : e.renamed p.id = e := by simp [Entry.renamed, hb]

/-- The end of an OUTBOUND write renames the entry under re-identification and no other. -/
theorem findEntry_noteRenamed {s : State} {seq : Nat} {id : Ident} (h : s.exc.work = some (.reident seq id)) (q : Nat) :
    findEntry (noteRenamed s) q = (findEntry s q).map fun e => if e.seq = seq then e.renamed id else e := by
  simp only [noteRenamed, h, findEntry, onExc_exc, List.find?_map]
  congr 2
  funext e
  by_cases hq : e.seq = seq <;> simp [hq]

/-! ### The scan's read of a slot (R51, R65) -/

/-- The read of a slot finds it erased, torn, or a copy that it held, with the body as readable as it was or not at all. -/
theorem readData_cases (d : Decay) (x : SlotData) :
    readData d x = .torn ∨ (x = .erased ∧ readData d x = .erased) ∨
    ∃ c ok k, x = .copy c ok k ∧ (readData d x = .copy c false false ∨ readData d x = .copy c ok (ok && decide (0 < decayBytes d))) := by
  cases x with
  | erased => by_cases h : d = {} <;> simp [readData, h]
  | torn => simp [readData]
  | copy c ok k =>
    by_cases h : d.header = .uncorrectable
    · exact .inl (by simp [readData, h])
    · refine .inr (.inr ⟨c, ok, k, rfl, ?_⟩)
      by_cases h' : d.body = .uncorrectable <;> simp [readData, h, h']

/-! ### The sale log (R160 to R163) -/

/-- The search of a list of sales after an update of the sale of one number. -/
theorem find_map_sale (n : Nat) (f : Sale → Sale) (hf : ∀ x, (f x).entry = x.entry) (l : List Sale) :
    (l.map fun e => if e.entry.number = n then f e else e).find? (fun e => e.entry.number == n) =
      (l.find? fun e => e.entry.number == n).map f := by
  induction l with
  | nil => rfl
  | cons a l ih =>
    rw [List.map_cons, List.find?_cons, List.find?_cons]
    by_cases ha : a.entry.number = n
    · simp [ha, hf]
    · simp only [ha, if_false, show (a.entry.number == n) = false by simpa using ha]
      exact ih

theorem findSale_onSale (n : Nat) (f : Sale → Sale) (hf : ∀ x, (f x).entry = x.entry) (s : State) :
    findSale (onSale n f s) n = (findSale s n).map f := find_map_sale n f hf s.clu.sales

@[simp] theorem noteUpdate_entry (c : SaleChange) (e : Sale) : (noteUpdate c e).entry = e.entry := by cases c <;> rfl
@[simp] theorem noteUpdate_removing (c : SaleChange) (e : Sale) : (noteUpdate c e).removing = e.removing := by cases c <;> rfl
@[simp] theorem noteUpdate_reissue (c : SaleChange) (e : Sale) : (noteUpdate c e).reissue = e.reissue := by cases c <;> rfl

/-- Once a sale's `posted` update is placed, no later update unsets it (R160). -/
theorem noteUpdate_posted {e : Sale} (h : e.postedPlaced = true) (c : SaleChange) : (noteUpdate c e).postedPlaced = true := by
  cases c <;> simp [noteUpdate, h]

/-- A placed part update is the newest of its part (R161). -/
theorem noteUpdate_newest (p : SalePart) (st : PartState) (m r : Option Nat) (e : Sale) :
    (noteUpdate (.part p st m r) e).newest.find? (fun x => x.1 == p) = some (p, st) := by simp [noteUpdate]

/-- The record of a sale that is not being removed is updated. -/
theorem updateSale_standing {n : Nat} {s : State} {e : Sale} (h : findSale s n = some e) (hr : e.removing = false)
    (c : SaleChange) : updateSale n c s = placeSaleUpdate n c s := by simp [updateSale, h, hr]

/-! ### The answer buffer as bytes (R196, R203) -/

/-- The groups that fit are the first ones, and their bytes keep within the room. -/
theorem fitGroups_flatten_le (n : Nat) (gs : List (List Byte)) : (fitGroups n gs).flatten.length ≤ n := by
  induction gs generalizing n with
  | nil => simp [fitGroups]
  | cons g gs ih =>
    unfold fitGroups
    split
    · have := ih (n - g.length)
      simp only [List.flatten_cons, List.length_append]
      omega
    · simp

/-- They are the first groups of the data. -/
theorem fitGroups_eq_take (n : Nat) (gs : List (List Byte)) : fitGroups n gs = gs.take (fitGroups n gs).length := by
  induction gs generalizing n with
  | nil => simp [fitGroups]
  | cons g gs ih =>
    unfold fitGroups
    split
    · rw [List.length_cons, List.take_succ_cons, ← ih]
    · simp

/-! ### Tables (R20, R84, R89, R131, R158) -/

theorem insertKeyed_length_le {α : Type} (key : α → Nat) (a : α) (l : List α) : (insertKeyed key a l).length ≤ l.length + 1 := by
  induction l with
  | nil => simp [insertKeyed]
  | cons x xs ih => unfold insertKeyed; split <;> [skip; split] <;> simp only [List.length_cons] <;> omega

theorem mem_insertKeyed {α : Type} {key : α → Nat} {a x : α} {l : List α} (h : x ∈ insertKeyed key a l) : x = a ∨ x ∈ l := by
  induction l with
  | nil => exact .inl (List.mem_singleton.1 h)
  | cons y ys ih =>
    unfold insertKeyed at h
    split at h <;> [skip; split at h] <;> simp only [List.mem_cons] at h ⊢
    · exact h
    · exact h.imp_right .inr
    · exact h.elim (fun h => .inr (.inl h)) fun h => (ih h).imp_right .inr

/-- What putting a row does to a table: it replaces the row of its key, enters a new one while there is room, or leaves a full table. -/
theorem putKeyed_cases {α : Type} (key : α → Nat) (size : Nat) (a : α) (l : List α) :
    ((∃ x ∈ l, key x = key a) ∧ putKeyed key size a l = l.map fun x => if key x = key a then a else x) ∨
    ((∀ x ∈ l, key x ≠ key a) ∧ l.length < size ∧ putKeyed key size a l = insertKeyed key a l) ∨
    ((∀ x ∈ l, key x ≠ key a) ∧ size ≤ l.length ∧ putKeyed key size a l = l) := by
  by_cases h : l.any (fun x => key x == key a)
  · exact .inl ⟨by simpa using h, by simp [putKeyed, h]⟩
  · have h' : ∀ x ∈ l, key x ≠ key a := by simpa using h
    by_cases hs : l.length < size
    · exact .inr (.inl ⟨h', hs, by simp [putKeyed, h, hs]⟩)
    · exact .inr (.inr ⟨h', Nat.le_of_not_lt hs, by simp [putKeyed, h, hs]⟩)

/-- A table of `size` rows keeps its size. -/
theorem putKeyed_length_le {α : Type} (key : α → Nat) {size : Nat} (a : α) {l : List α} (h : l.length ≤ size) :
    (putKeyed key size a l).length ≤ size := by
  have := insertKeyed_length_le key a l
  obtain ⟨-, e⟩ | ⟨-, hs, e⟩ | ⟨-, -, e⟩ := putKeyed_cases key size a l <;> rw [e]
  · rwa [List.length_map]
  · omega
  · exact h

/-- A row of a table that has the key, or room, is found under its key. -/
theorem find_putKeyed_self {α : Type} (key : α → Nat) {size : Nat} {a : α} {l : List α}
    (h : (∃ x ∈ l, key x = key a) ∨ l.length < size) : (putKeyed key size a l).find? (fun x => key x == key a) = some a := by
  have ins (l : List α) : (insertKeyed key a l).find? (fun x => key x == key a) = some a := by
    induction l with
    | nil => simp [insertKeyed]
    | cons x xs ih =>
      unfold insertKeyed
      split <;> [skip; split]
      · simp
      · simp
      · rename_i h
        rw [List.find?_cons_of_neg (by simpa using fun h' => h h'.symm), ih]
  have rep : ∀ l : List α, (∃ x ∈ l, key x = key a) →
      (l.map fun x => if key x = key a then a else x).find? (fun x => key x == key a) = some a := by
    intro l
    induction l with
    | nil => simp
    | cons x xs ih =>
      intro h
      by_cases hx : key x = key a
      · simp [hx]
      · rw [List.map_cons, if_neg hx, List.find?_cons_of_neg (by simpa using hx)]
        exact ih (by simpa [hx] using h)
  obtain ⟨hk, e⟩ | ⟨-, -, e⟩ | ⟨hk, hs, -⟩ := putKeyed_cases key size a l
  · rw [e]; exact rep l hk
  · rw [e]; exact ins l
  · obtain ⟨x, hx, hxk⟩ | hl := h
    · exact absurd hxk (hk x hx)
    · omega

/-- Every other row is found as before. -/
theorem find_putKeyed_other {α : Type} (key : α → Nat) (size : Nat) {a : α} (l : List α) {n : Nat} (hn : n ≠ key a) :
    (putKeyed key size a l).find? (fun x => key x == n) = l.find? (fun x => key x == n) := by
  have ins (l : List α) : (insertKeyed key a l).find? (fun x => key x == n) = l.find? (fun x => key x == n) := by
    induction l with
    | nil => simp [insertKeyed, Ne.symm hn]
    | cons x xs ih =>
      have ha : (key a == n) = false := by simpa using Ne.symm hn
      unfold insertKeyed
      split <;> [skip; split]
      · rw [List.find?_cons_of_neg (by simp [ha])]
      · rename_i h
        rw [List.find?_cons_of_neg (by simp [ha]), List.find?_cons_of_neg (by simp [← h, ha])]
      · rw [List.find?_cons, List.find?_cons, ih]
  have rep (l : List α) :
      (l.map fun x => if key x = key a then a else x).find? (fun x => key x == n) = l.find? (fun x => key x == n) := by
    induction l with
    | nil => rfl
    | cons x xs ih =>
      by_cases hx : key x = key a
      · rw [List.map_cons, if_pos hx, List.find?_cons_of_neg (by simpa using Ne.symm hn),
          List.find?_cons_of_neg (by simpa [hx] using Ne.symm hn), ih]
      · rw [List.map_cons, if_neg hx, List.find?_cons, List.find?_cons, ih]
  obtain ⟨-, e⟩ | ⟨-, -, e⟩ | ⟨-, -, e⟩ := putKeyed_cases key size a l <;> rw [e]
  · exact rep l
  · exact ins l

@[simp] theorem setEntryIn_length (e : Entry) (es : List Entry) : (setEntryIn e es).length = es.length := by simp [setEntryIn]

/-- The rows of a foldl that puts them keep within the table. -/
theorem foldl_putKeyed_length_le {α β : Type} (key : α → Nat) {size : Nat} (f : List α → β → List α)
    (hf : ∀ l b, f l b = l ∨ ∃ a, f l b = putKeyed key size a l) (bs : List β) {l : List α} (h : l.length ≤ size) :
    (bs.foldl f l).length ≤ size := by
  induction bs generalizing l with
  | nil => exact h
  | cons b bs ih =>
    apply ih
    obtain h' | ⟨a, h'⟩ := hf l b <;> rw [h']
    · exact h
    · exact putKeyed_length_le key a h

/-! ### The lot queue of the clock (R142, R164) -/

@[simp] theorem dropQueued_queue (lot : LotId) (c : Clu) : (dropQueued lot c).queue = c.queue.filter fun d => d.id != lot := rfl
@[simp] theorem dropQueued_claims (lot : LotId) (c : Clu) : (dropQueued lot c).claims = c.claims := rfl
@[simp] theorem dropQueued_cleaning (lot : LotId) (c : Clu) : (dropQueued lot c).cleaning = c.cleaning := rfl

/-- The head lot stands in the queue and waits for no clean-up. -/
theorem headOf_mem {c : Clu} {d : LotDesc} (h : headOf c = some d) : d ∈ c.queue ∧ isCleaned c d.id = false :=
  ⟨List.mem_of_find?_eq_some h, by simpa using List.find?_some h⟩

/-- Where no clean-up is under way, the head lot is the first of the queue. -/
theorem headOf_eq_head {c : Clu} (h : c.cleaning = []) : headOf c = c.queue.head? := by
  cases hq : c.queue <;> simp [headOf, isCleaned, h, hq]

/-- The end of a clean-up: the lot leaves the queue, or waits 1,000 ms to have its update placed again. -/
theorem queueCleaned_cases (lot : LotId) (r : StoreRes) (s : State) :
    (r = .done ∧ queueCleaned lot r s = s.onClu fun c =>
        { dropQueued lot c with cleaning := c.cleaning.filter fun x => x.lot != lot }) ∨
    (r ≠ .done ∧ queueCleaned lot r s = s.onClu fun c =>
        { c with cleaning := c.cleaning.map fun x => if x.lot = lot then { x with retry := some 1000 } else x }) := by
  cases r <;> simp [queueCleaned]

/-! ### Searches and refunds (R97, R103, R191) -/

/-- A search that no other entry waits on ends at its own entry alone. -/
theorem endSearch_alone {e : Entry} {s : State} (o : ExcOut) (h : (s.exc.entries.filter fun x => x.seq == e.seq) = [e])
    (hw : ∀ x ∈ s.exc.entries, x.search ≠ some .onOther) : endSearch e o s = takeSearch o (stopSearching e s) e.seq := by
  have ht : searchTakers e s = [e.seq] := by
    have hf : (s.exc.entries.filter fun x =>
        x.seq == e.seq || (x.state == .unresolved && x.account == e.account && x.search == some .onOther)) = [e] := by
      rw [← h]
      refine List.filter_congr fun x hx => ?_
      simp [hw x hx]
    simp [searchTakers, hf]
  simp [endSearch, ht]

/-- What is entered for the entry afterwards stands as if it had not stopped searching first. -/
theorem putEntry_stopSearching {e e' : Entry} (s : State) (h : e'.seq = e.seq) : putEntry e' (stopSearching e s) = putEntry e' s := by
  have hm : setEntryIn e' (setEntryIn { e with search := none } s.exc.entries) = setEntryIn e' s.exc.entries := by
    simp only [setEntryIn, List.map_map, h]
    refine List.map_congr_left fun x _ => ?_
    by_cases hx : x.seq = e.seq <;> simp [hx]
  simp only [putEntry, stopSearching, State.onExc, hm]

/-- Refunded counts come with a DONE or a CLAMPED only. -/
theorem refundedOf_cases {o : ExcOut} {cs : List (Nat × Nat)} (h : refundedOf o = some cs) :
    ∃ node, o = .answer .done (.counts cs) node ∨ o = .answer .clamped (.counts cs) node := by
  unfold refundedOf at h
  split at h <;> simp_all

/-! ### The home map (R107) -/

theorem mapEnter_homeMap_le (acct node : Nat) {s : State} (h : s.exc.homeMap.length ≤ 16) :
    (mapEnter acct node s).exc.homeMap.length ≤ 16 := by
  unfold mapEnter
  split
  · exact h
  · simp only [onExc_exc]; split <;> simp only [List.length_cons, List.length_take] <;> omega

end Sys2Proof.Machine
end

