-- ==== Sys2Proof/Laws/Line.lean ====
section
/-! SUPPORT. What the shared operations of the hall line and of the lot table do, in the words of Safety.lean: the line going down, and an
OFFERED lot. -/

namespace Sys2Proof.Machine
open Sys2Proof

/-! ### The line goes down (R81, R82, R111, R127) -/

theorem foldl_endHand (es : List Ends) (s : State) : es.foldl (fun acc e => endHand e acc) s = { s with
    book := { s.book with hand := if es.any (· == .bookHand) then none else s.book.hand }
    wgu := { s.wgu with lotHand := if es.any (· == .lotHand) then none else s.wgu.lotHand } } := by
  induction es generalizing s with
  | nil => simp
  | cons e es ih =>
    rw [List.foldl_cons, ih]
    cases e <;> simp [endHand, endBookHand, endLotHand, State.onBook, State.onWgu]

/-- R81: entry to CONFLICT or LINE FAULT is the line going down. -/
theorem enterDown_eq_lineDown {st : LineState} (out : JoinOutcome) {s : State} (hs : s.sys.phase = .running) (hst : st ≠ .active) :
    enterDown st out s = lineDown (lineEmptied st out s.lif) s := by
  unfold enterDown emptyQueues
  simp only [foldl_endHand, lineDown, tellLineDown, excLineDown, refreshReady, State.onLif, State.onExc, State.onBook, State.inService,
    wguLineDown, weighLineDown, lineEmptied, State.lineActive, beq_eq_false_iff_ne.2 hst, List.any_map, Function.comp_def]
  rcases s.wgu.weigh with _ | ⟨_, _, _, _, _, _, stage⟩
  · simp [raise, State.onPort, hs]
  · rcases stage with _ | _ | _ <;> by_cases hr : s.port.role = some .scale <;>
      simp [raise, State.onPort, hs, hr, endWeigh, dropAsk, State.onExc, State.onWgu]

/-! ### Offered lots (R132) -/

theorem putLotIn_eq_map {l : Lot} {ls : List Lot} (h : ∃ x ∈ ls, x.number = l.number) :
    putLotIn l ls = ls.map fun x => if x.number = l.number then l else x := by
  obtain ⟨-, e⟩ | ⟨hn, -⟩ | ⟨hn, -⟩ := putKeyed_cases (·.number) 16 l ls
  · exact e
  all_goals obtain ⟨x, hx, hk⟩ := h; exact absurd hk (hn x hx)

/-- The lot put last is the one found under its number. -/
theorem findLot_putLotIn {l : Lot} {ls : List Lot} (h : (∃ x ∈ ls, x.number = l.number) ∨ ls.length < 16) :
    (putLotIn l ls).find? (fun x => x.number == l.number) = some l := find_putKeyed_self Lot.number h

theorem findLot_number {s : State} {n : Nat} {l : Lot} (h : findLot s n = some l) : (∃ x ∈ s.wgu.lots, x.number = l.number) ∧ l.number = n :=
  ⟨⟨l, List.mem_of_find?_eq_some h, rfl⟩, by simpa using List.find?_some h⟩

/-- R132: NO RING of an OFFERED lot decided afresh. -/
theorem decideNoRing_eq_ringDecided {s : State} {n : Nat} {l : Lot} (h : findLot s n = some l) (hl : l.state = .offered)
    (hs : s.sys.phase = .running) : decideNoRing n s = ringDecided l s := by
  obtain ⟨-, rfl⟩ := findLot_number h
  simp only [decideNoRing, h, hl, ringDecided, if_true]
  by_cases hc : (!clockPresent s l.ring) = l.noRing
  · simp [hc]
  · simp [hc, lotEvent, raise, putLot, State.onWgu, State.onPort, hs]

/-- R132: what the offer of an OFFERED lot does while the send queue has a place. -/
theorem offerLot_eq_lotOffered {s : State} {n : Nat} {l : Lot} (h : findLot s n = some l) (hl : l.state = .offered) (hs : s.sys.phase = .running)
    (ho : LineOpen s) : offerLot n s = lotOffered l s := by
  obtain ⟨hx, rfl⟩ := findLot_number h
  have hf : findLot (putLot { l with offer := some 0 } s) l.number = some { l with offer := some 0 } :=
    findLot_putLotIn (l := { l with offer := some 0 }) (.inl hx)
  have hr (t : State) (l' : Lot) (ht : LineOpen t) : LineOpen (ringDecided l' t) := by
    simp only [ringDecided]; split <;> exact ht
  have ho' := hr (putLot { l with offer := some 0 } s) { l with offer := some 0 } ho
  simp only [offerLot, h]
  rw [if_pos hl, decideNoRing_eq_ringDecided hf hl hs]
  simp only [placeMsg, placingOf, ho'.1, ho'.2, if_true]
  rfl

/-! ### Several lots, and several notices (R49, R85, R132) -/

/-- Among lots of different numbers each is the one found under its number. -/
theorem find_of_mem_lots {ls : List Lot} (h : (ls.map (·.number)).Nodup) {l : Lot} (hl : l ∈ ls) :
    ls.find? (fun x => x.number == l.number) = some l := by
  induction ls with
  | nil => cases hl
  | cons x xs ih =>
    simp only [List.map_cons, List.nodup_cons] at h
    obtain rfl | hl := List.mem_cons.1 hl
    · simp
    · rw [List.find?_cons_of_neg, ih h.2 hl]
      simpa using fun e : x.number = l.number => h.1 (e ▸ List.mem_map_of_mem hl)

/-- A lot put leaves the lots of other numbers. -/
theorem findLot_putLotIn_other {s t : State} {l l' : Lot} {n : Nat} (hn : n ≠ l.number) (h : findLot s n = some l')
    (ht : t.wgu.lots = putLotIn l s.wgu.lots) : findLot t n = some l' := by
  simp only [findLot, putLotIn] at h ht ⊢
  rw [ht, find_putKeyed_other Lot.number 16 _ hn, h]

theorem findLot_ringDecided_other {s : State} {l l' : Lot} {n : Nat} (hn : n ≠ l.number) (h : findLot s n = some l') :
    findLot (ringDecided l s) n = some l' := by
  simp only [ringDecided]
  split
  · exact h
  · exact findLot_putLotIn_other (l := { l with noRing := !clockPresent s l.ring }) hn h rfl

theorem findLot_lotOffered_other {s : State} {l l' : Lot} {n : Nat} (hn : n ≠ l.number) (h : findLot s n = some l') :
    findLot (lotOffered l s) n = some l' :=
  findLot_ringDecided_other (l := { l with offer := some 0 }) hn (findLot_putLotIn_other (l := { l with offer := some 0 }) hn h rfl)

@[simp] theorem ringDecided_sys (l : Lot) (s : State) : (ringDecided l s).sys = s.sys := by simp only [ringDecided]; split <;> rfl
@[simp] theorem ringDecided_lif (l : Lot) (s : State) : (ringDecided l s).lif = s.lif := by simp only [ringDecided]; split <;> rfl
@[simp] theorem lotOffered_sys (l : Lot) (s : State) : (lotOffered l s).sys = s.sys := by simp [lotOffered, queued]
@[simp] theorem lotOffered_state (l : Lot) (s : State) : (lotOffered l s).lif.state = s.lif.state := by simp [lotOffered, queued]
@[simp] theorem lotOffered_wait (l : Lot) (s : State) : (lotOffered l s).lif.wait = s.lif.wait := by simp [lotOffered, queued]

@[simp] theorem insertMsg_length (m : Msg) (q : List Msg) : (insertMsg m q).length = q.length + 1 := by
  induction q with
  | nil => rfl
  | cons x xs ih => simp only [insertMsg]; split <;> simp [ih]

@[simp] theorem lotOffered_queue_length (l : Lot) (s : State) : (lotOffered l s).lif.queue.length = s.lif.queue.length + 1 := by
  simp [lotOffered, queued]

/-- R85, R132: NO RING of some OFFERED lots, decided one after another. -/
theorem foldl_decideNoRing {ls : List Lot} {s : State} (hn : (ls.map (·.number)).Nodup) (hs : s.sys.phase = .running)
    (h : ∀ l ∈ ls, findLot s l.number = some l ∧ l.state = .offered) :
    (ls.map (·.number)).foldl (fun acc n => decideNoRing n acc) s = ls.foldl (fun t l => ringDecided l t) s := by
  induction ls generalizing s with
  | nil => rfl
  | cons l ls ih =>
    simp only [List.map_cons, List.nodup_cons] at hn
    simp only [List.map_cons, List.foldl_cons, decideNoRing_eq_ringDecided (h l (by simp)).1 (h l (by simp)).2 hs]
    exact ih hn.2 (by simpa using hs) fun l' hl => ⟨findLot_ringDecided_other (fun e => hn.1 (e ▸ List.mem_map_of_mem hl))
      (h l' (by simp [hl])).1, (h l' (by simp [hl])).2⟩

/-- R132: some OFFERED lots offered one after another, while the send queue has room for their notices. -/
theorem foldl_offerLot {ls : List Lot} {s : State} (hn : (ls.map (·.number)).Nodup) (hs : s.sys.phase = .running) (ha : s.lif.state = .active)
    (hq : s.lif.queue.length + s.lif.wait.length + ls.length ≤ 24)
    (h : ∀ l ∈ ls, findLot s l.number = some l ∧ l.state = .offered) :
    (ls.map (·.number)).foldl (fun acc n => offerLot n acc) s = ls.foldl (fun t l => lotOffered l t) s := by
  induction ls generalizing s with
  | nil => rfl
  | cons l ls ih =>
    simp only [List.map_cons, List.nodup_cons, List.length_cons] at hn hq
    simp only [List.map_cons, List.foldl_cons,
      offerLot_eq_lotOffered (h l (by simp)).1 (h l (by simp)).2 hs ⟨ha, by simp [sendRoom]; omega⟩]
    exact ih hn.2 (by simpa using hs) (by simpa using ha) (by simp; omega) fun l' hl =>
      ⟨findLot_lotOffered_other (fun e => hn.1 (e ▸ List.mem_map_of_mem hl)) (h l' (by simp [hl])).1, (h l' (by simp [hl])).2⟩

/-- R49: some OPENED notices placed one after another, while the send queue has room for them. -/
theorem foldl_placeOpened {as : List Nat} {s : State} (ha : s.lif.state = .active)
    (hq : s.lif.queue.length + s.lif.wait.length + as.length ≤ 24) :
    as.foldl (fun acc a => placeOpened a acc) s = as.foldl (fun t a => queued (newMsg .notice 0 0 (.opened a) .book 0) t) s := by
  induction as generalizing s with
  | nil => rfl
  | cons a as ih =>
    simp only [List.length_cons] at hq
    have hr : sendRoom s = true := by simp [sendRoom]; omega
    have hp : placeOpened a s = queued (newMsg .notice 0 0 (.opened a) .book 0) s := by
      simp [placeOpened, placeMsg, placingOf, ha, hr, queued, enqueueMsg, openedMsg, State.onLif]
    simp only [List.foldl_cons, hp]
    exact ih ha (by simp [queued]; omega)

end Sys2Proof.Machine
end

