-- ==== Sys2Proof/Laws/PerInstr.lean ====
section
/-! SUPPORT. The family HeaderFits of statements about each command as syntax: the header of a well-formed
line arrival lies within its fields. -/

namespace Sys2Proof.Laws
open Sys2Proof

/-- Section 4.1: a well-formed command that carries a line header carries six bits of source, six of destination and five of
sequence. -/
def HeaderFits.Statement (i : Instr) : Prop := ∀ h, i.header? = some h → i.wf = true → h.src < 64 ∧ h.dst < 64 ∧ h.seq < 32

theorem HeaderFits.of_none {i : Instr} (e : i.header? = none) : HeaderFits.Statement i := by
  intro h hh
  rw [e] at hh
  cases hh

theorem HeaderFits.of_header {i : Instr} {h : Hdr} (e : i.header? = some h) : HeaderFits.Statement i := by
  intro h' hh hw
  rw [e] at hh
  cases hh
  simp only [Instr.wf, e, Hdr.fits, Bool.and_eq_true, decide_eq_true_eq] at hw
  exact ⟨hw.1.1.1, hw.1.1.2, hw.1.2⟩

theorem HeaderFits.powerOn : HeaderFits.Statement (.powerOn) := HeaderFits.of_none rfl
theorem HeaderFits.resetnLow : HeaderFits.Statement (.resetnLow) := HeaderFits.of_none rfl
theorem HeaderFits.resetnRelease : HeaderFits.Statement (.resetnRelease) := HeaderFits.of_none rfl
theorem HeaderFits.startupScanEnd (decay : List (Nat × Decay)) (badPages : List Nat) (idBad : Bool) :
    HeaderFits.Statement (.startupScanEnd decay badPages idBad) := HeaderFits.of_none rfl
theorem HeaderFits.restart (ok : Bool) : HeaderFits.Statement (.restart ok) := HeaderFits.of_none rfl
theorem HeaderFits.eraseStore (ok : Bool) : HeaderFits.Statement (.eraseStore ok) := HeaderFits.of_none rfl
theorem HeaderFits.nopStatus (ok : Bool) : HeaderFits.Statement (.nopStatus ok) := HeaderFits.of_none rfl
theorem HeaderFits.ack (ok : Bool) (bits : Word16) : HeaderFits.Statement (.ack ok bits) := HeaderFits.of_none rfl
theorem HeaderFits.mask (ok : Bool) (bits : Word16) : HeaderFits.Statement (.mask ok bits) := HeaderFits.of_none rfl
theorem HeaderFits.lock (ok : Bool) : HeaderFits.Statement (.lock ok) := HeaderFits.of_none rfl
theorem HeaderFits.unlock (ok : Bool) : HeaderFits.Statement (.unlock ok) := HeaderFits.of_none rfl
theorem HeaderFits.configure (ok : Bool) (items : List ConfigItem) :
    HeaderFits.Statement (.configure ok items) := HeaderFits.of_none rfl
theorem HeaderFits.join (ok : Bool) : HeaderFits.Statement (.join ok) := HeaderFits.of_none rfl
theorem HeaderFits.leave (ok : Bool) : HeaderFits.Statement (.leave ok) := HeaderFits.of_none rfl
theorem HeaderFits.leaveTransmissionDrained : HeaderFits.Statement (.leaveTransmissionDrained) := HeaderFits.of_none rfl
theorem HeaderFits.readAccount (ok : Bool) (acct : Field) : HeaderFits.Statement (.readAccount ok acct) := HeaderFits.of_none rfl
theorem HeaderFits.readHold (ok : Bool) (node epoch number : Nat) :
    HeaderFits.Statement (.readHold ok node epoch number) := HeaderFits.of_none rfl
theorem HeaderFits.readLot (ok : Bool) (sel : LotSel) : HeaderFits.Statement (.readLot ok sel) := HeaderFits.of_none rfl
theorem HeaderFits.readQueue (ok : Bool) (sel : QueueSel) : HeaderFits.Statement (.readQueue ok sel) := HeaderFits.of_none rfl
theorem HeaderFits.readSale (ok : Bool) (sel : SaleSel) : HeaderFits.Statement (.readSale ok sel) := HeaderFits.of_none rfl
theorem HeaderFits.collectSale (ok : Bool) (n : Nat) : HeaderFits.Statement (.collectSale ok n) := HeaderFits.of_none rfl
theorem HeaderFits.readOutbound (ok : Bool) (sel : OutSel) : HeaderFits.Statement (.readOutbound ok sel) := HeaderFits.of_none rfl
theorem HeaderFits.readDamaged (ok : Bool) : HeaderFits.Statement (.readDamaged ok) := HeaderFits.of_none rfl
theorem HeaderFits.readPeers (ok : Bool) : HeaderFits.Statement (.readPeers ok) := HeaderFits.of_none rfl
theorem HeaderFits.readReading (ok : Bool) (sel : ReadingSel) :
    HeaderFits.Statement (.readReading ok sel) := HeaderFits.of_none rfl
theorem HeaderFits.readCounters (ok : Bool) (sel : CounterSel) :
    HeaderFits.Statement (.readCounters ok sel) := HeaderFits.of_none rfl
theorem HeaderFits.readList (ok : Bool) (coll : Collection) (pos : Nat) :
    HeaderFits.Statement (.readList ok coll pos) := HeaderFits.of_none rfl
theorem HeaderFits.openAccount (ok : Bool) (acct : Field) (limit : Option Field) :
    HeaderFits.Statement (.openAccount ok acct limit) := HeaderFits.of_none rfl
theorem HeaderFits.adjust (ok : Bool) (acct amount : Field) :
    HeaderFits.Statement (.adjust ok acct amount) := HeaderFits.of_none rfl
theorem HeaderFits.remove (ok : Bool) (acct : Field) : HeaderFits.Statement (.remove ok acct) := HeaderFits.of_none rfl
theorem HeaderFits.clearFlags (ok : Bool) (acct : Field) : HeaderFits.Statement (.clearFlags ok acct) := HeaderFits.of_none rfl
theorem HeaderFits.retry (ok : Bool) (seq : Nat) : HeaderFits.Statement (.retry ok seq) := HeaderFits.of_none rfl
theorem HeaderFits.discard (ok : Bool) (seq : Nat) : HeaderFits.Statement (.discard ok seq) := HeaderFits.of_none rfl
theorem HeaderFits.weigh (ok : Bool) (boat : Field) (species grade ctype : Nat) (count : Field) (ring : Nat) :
    HeaderFits.Statement (.weigh ok boat species grade ctype count ring) := HeaderFits.of_none rfl
theorem HeaderFits.zero (ok : Bool) : HeaderFits.Statement (.zero ok) := HeaderFits.of_none rfl
theorem HeaderFits.tare (ok : Bool) (grams : Field) : HeaderFits.Statement (.tare ok grams) := HeaderFits.of_none rfl
theorem HeaderFits.calZero (ok : Bool) : HeaderFits.Statement (.calZero ok) := HeaderFits.of_none rfl
theorem HeaderFits.calSpan (ok : Bool) (grams : Field) : HeaderFits.Statement (.calSpan ok grams) := HeaderFits.of_none rfl
theorem HeaderFits.calWrite (ok : Bool) (division capacity : Field) :
    HeaderFits.Statement (.calWrite ok division capacity) := HeaderFits.of_none rfl
theorem HeaderFits.releaseLot (ok : Bool) (n : Nat) : HeaderFits.Statement (.releaseLot ok n) := HeaderFits.of_none rfl
theorem HeaderFits.reoffer (ok : Bool) (n : Nat) : HeaderFits.Statement (.reoffer ok n) := HeaderFits.of_none rfl
theorem HeaderFits.delete (ok : Bool) (n : Nat) : HeaderFits.Statement (.delete ok n) := HeaderFits.of_none rfl
theorem HeaderFits.showLot (ok : Bool) : HeaderFits.Statement (.showLot ok) := HeaderFits.of_none rfl
theorem HeaderFits.start (ok : Bool) (startPrice floorPrice step : Field) (tick : Nat) :
    HeaderFits.Statement (.start ok startPrice floorPrice step tick) := HeaderFits.of_none rfl
theorem HeaderFits.halt (ok : Bool) : HeaderFits.Statement (.halt ok) := HeaderFits.of_none rfl
theorem HeaderFits.resume (ok : Bool) : HeaderFits.Statement (.resume ok) := HeaderFits.of_none rfl
theorem HeaderFits.withdraw (ok : Bool) : HeaderFits.Statement (.withdraw ok) := HeaderFits.of_none rfl
theorem HeaderFits.deskIn (ok : Bool) (desk : Nat) (buyer amount : Field) :
    HeaderFits.Statement (.deskIn ok desk buyer amount) := HeaderFits.of_none rfl
theorem HeaderFits.deskOut (ok : Bool) (desk : Nat) : HeaderFits.Statement (.deskOut ok desk) := HeaderFits.of_none rfl
theorem HeaderFits.order (ok : Bool) (boat kg : Field) (acceptLess : Bool) :
    HeaderFits.Statement (.order ok boat kg acceptLess) := HeaderFits.of_none rfl
theorem HeaderFits.stop (ok : Bool) : HeaderFits.Statement (.stop ok) := HeaderFits.of_none rfl
theorem HeaderFits.batchOpen (ok : Bool) (kind : Option BatchKind) (acct : Field) :
    HeaderFits.Statement (.batchOpen ok kind acct) := HeaderFits.of_none rfl
theorem HeaderFits.batchClose (ok : Bool) : HeaderFits.Statement (.batchClose ok) := HeaderFits.of_none rfl
theorem HeaderFits.batchCancel (ok : Bool) : HeaderFits.Statement (.batchCancel ok) := HeaderFits.of_none rfl
theorem HeaderFits.block (ok : Bool) (serial : Nat) : HeaderFits.Statement (.block ok serial) := HeaderFits.of_none rfl
theorem HeaderFits.unblock (ok : Bool) (serial : Nat) : HeaderFits.Statement (.unblock ok serial) := HeaderFits.of_none rfl
theorem HeaderFits.portUnknownCommand (code : Byte) : HeaderFits.Statement (.portUnknownCommand code) := HeaderFits.of_none rfl
theorem HeaderFits.portFrameFault (f : RawFrame) : HeaderFits.Statement (.portFrameFault f) := HeaderFits.of_none rfl
theorem HeaderFits.portFrameTimeout : HeaderFits.Statement (.portFrameTimeout) := HeaderFits.of_none rfl
theorem HeaderFits.lineGarbledMessage (w : RawLine) : HeaderFits.Statement (.lineGarbledMessage w) := HeaderFits.of_none rfl
theorem HeaderFits.joinMessage (h : Hdr) (role ring serial epoch : Nat) :
    HeaderFits.Statement (.joinMessage h role ring serial epoch) := HeaderFits.of_header rfl
theorem HeaderFits.clash (h : Hdr) (number joinSerial ownSerial : Nat) :
    HeaderFits.Statement (.clash h number joinSerial ownSerial) := HeaderFits.of_header rfl
theorem HeaderFits.present (h : Hdr) (role ring : Nat) : HeaderFits.Statement (.present h role ring) := HeaderFits.of_header rfl
theorem HeaderFits.opened (h : Hdr) (acct : Field) : HeaderFits.Statement (.opened h acct) := HeaderFits.of_header rfl
theorem HeaderFits.home (h : Hdr) (acct : Field) : HeaderFits.Statement (.home h acct) := HeaderFits.of_header rfl
theorem HeaderFits.answer (h : Hdr) (a : RawAnswer) : HeaderFits.Statement (.answer h a) := HeaderFits.of_header rfl
theorem HeaderFits.hold (h : Hdr) (r : RawHold) : HeaderFits.Statement (.hold h r) := HeaderFits.of_header rfl
theorem HeaderFits.release (h : Hdr) (r : RawRelease) : HeaderFits.Statement (.release h r) := HeaderFits.of_header rfl
theorem HeaderFits.post (h : Hdr) (r : RawPost) : HeaderFits.Statement (.post h r) := HeaderFits.of_header rfl
theorem HeaderFits.locate (h : Hdr) (acct : Field) : HeaderFits.Statement (.locate h acct) := HeaderFits.of_header rfl
theorem HeaderFits.claim (h : Hdr) (scale number : Nat) : HeaderFits.Statement (.claim h scale number) := HeaderFits.of_header rfl
theorem HeaderFits.lotReport (h : Hdr) (scale number : Nat) (sold : Option Bool) :
    HeaderFits.Statement (.lotReport h scale number sold) := HeaderFits.of_header rfl
theorem HeaderFits.lot (h : Hdr) (d : RawLot) : HeaderFits.Statement (.lot h d) := HeaderFits.of_header rfl
theorem HeaderFits.lineQuietTime : HeaderFits.Statement (.lineQuietTime) := HeaderFits.of_none rfl
theorem HeaderFits.contentionLoss : HeaderFits.Statement (.contentionLoss) := HeaderFits.of_none rfl
theorem HeaderFits.lineError : HeaderFits.Statement (.lineError) := HeaderFits.of_none rfl
theorem HeaderFits.sendComplete : HeaderFits.Statement (.sendComplete) := HeaderFits.of_none rfl
theorem HeaderFits.sendQueuePlaceWaiting : HeaderFits.Statement (.sendQueuePlaceWaiting) := HeaderFits.of_none rfl
theorem HeaderFits.listenIdleWindow : HeaderFits.Statement (.listenIdleWindow) := HeaderFits.of_none rfl
theorem HeaderFits.listenTimeout : HeaderFits.Statement (.listenTimeout) := HeaderFits.of_none rfl
theorem HeaderFits.clashWindowEnd : HeaderFits.Statement (.clashWindowEnd) := HeaderFits.of_none rfl
theorem HeaderFits.presentTimer : HeaderFits.Statement (.presentTimer) := HeaderFits.of_none rfl
theorem HeaderFits.peerAgeExpiry (node : Nat) : HeaderFits.Statement (.peerAgeExpiry node) := HeaderFits.of_none rfl
theorem HeaderFits.excFreePlaceRetry : HeaderFits.Statement (.excFreePlaceRetry) := HeaderFits.of_none rfl
theorem HeaderFits.excSend : HeaderFits.Statement (.excSend) := HeaderFits.of_none rfl
theorem HeaderFits.excAnswerTimeout (seq : Nat) : HeaderFits.Statement (.excAnswerTimeout seq) := HeaderFits.of_none rfl
theorem HeaderFits.excDeferWaitEnd (seq : Nat) : HeaderFits.Statement (.excDeferWaitEnd seq) := HeaderFits.of_none rfl
theorem HeaderFits.locateWindowEnd (seq : Nat) : HeaderFits.Statement (.locateWindowEnd seq) := HeaderFits.of_none rfl
theorem HeaderFits.locateSearchDeferEnd (seq : Nat) : HeaderFits.Statement (.locateSearchDeferEnd seq) := HeaderFits.of_none rfl
theorem HeaderFits.localOpeningRetry (seq : Nat) : HeaderFits.Statement (.localOpeningRetry seq) := HeaderFits.of_none rfl
theorem HeaderFits.bookQueuePlaceWaiting : HeaderFits.Statement (.bookQueuePlaceWaiting) := HeaderFits.of_none rfl
theorem HeaderFits.bookTakePost : HeaderFits.Statement (.bookTakePost) := HeaderFits.of_none rfl
theorem HeaderFits.bookTakeHold : HeaderFits.Statement (.bookTakeHold) := HeaderFits.of_none rfl
theorem HeaderFits.bookTakeRelease : HeaderFits.Statement (.bookTakeRelease) := HeaderFits.of_none rfl
theorem HeaderFits.bookTakeLocate : HeaderFits.Statement (.bookTakeLocate) := HeaderFits.of_none rfl
theorem HeaderFits.bookTakeOpened : HeaderFits.Statement (.bookTakeOpened) := HeaderFits.of_none rfl
theorem HeaderFits.bookTakeHome : HeaderFits.Statement (.bookTakeHome) := HeaderFits.of_none rfl
theorem HeaderFits.bookTakeLocalOpening : HeaderFits.Statement (.bookTakeLocalOpening) := HeaderFits.of_none rfl
theorem HeaderFits.bookTakeOpen : HeaderFits.Statement (.bookTakeOpen) := HeaderFits.of_none rfl
theorem HeaderFits.bookTakeAdjust : HeaderFits.Statement (.bookTakeAdjust) := HeaderFits.of_none rfl
theorem HeaderFits.bookTakeRemove : HeaderFits.Statement (.bookTakeRemove) := HeaderFits.of_none rfl
theorem HeaderFits.bookTakeClearFlags : HeaderFits.Statement (.bookTakeClearFlags) := HeaderFits.of_none rfl
theorem HeaderFits.holdLifetimeSecond (node epoch number : Nat) :
    HeaderFits.Statement (.holdLifetimeSecond node epoch number) := HeaderFits.of_none rfl
theorem HeaderFits.bookYieldRetry (acct : Nat) : HeaderFits.Statement (.bookYieldRetry acct) := HeaderFits.of_none rfl
theorem HeaderFits.bookStateCommitRetry (acct : Nat) : HeaderFits.Statement (.bookStateCommitRetry acct) := HeaderFits.of_none rfl
theorem HeaderFits.storeListPlacePending : HeaderFits.Statement (.storeListPlacePending) := HeaderFits.of_none rfl
theorem HeaderFits.storeTakeRequest : HeaderFits.Statement (.storeTakeRequest) := HeaderFits.of_none rfl
theorem HeaderFits.storeWriteEnd (verified : Bool) : HeaderFits.Statement (.storeWriteEnd verified) := HeaderFits.of_none rfl
theorem HeaderFits.storeEraseEnd (verified : Bool) : HeaderFits.Statement (.storeEraseEnd verified) := HeaderFits.of_none rfl
theorem HeaderFits.storeCalPageEnd (verified : Bool) : HeaderFits.Statement (.storeCalPageEnd verified) := HeaderFits.of_none rfl
theorem HeaderFits.storeBackgroundStart : HeaderFits.Statement (.storeBackgroundStart) := HeaderFits.of_none rfl
theorem HeaderFits.sampleFrame (count : BitVec 24) (parity whole : Bool) :
    HeaderFits.Statement (.sampleFrame count parity whole) := HeaderFits.of_none rfl
theorem HeaderFits.sampleLossTimeout : HeaderFits.Statement (.sampleLossTimeout) := HeaderFits.of_none rfl
theorem HeaderFits.settlingLimit : HeaderFits.Statement (.settlingLimit) := HeaderFits.of_none rfl
theorem HeaderFits.offerTimer (lot : Nat) : HeaderFits.Statement (.offerTimer lot) := HeaderFits.of_none rfl
theorem HeaderFits.lotQueueTakeClaim : HeaderFits.Statement (.lotQueueTakeClaim) := HeaderFits.of_none rfl
theorem HeaderFits.lotQueueTakeLotreport : HeaderFits.Statement (.lotQueueTakeLotreport) := HeaderFits.of_none rfl
theorem HeaderFits.lotQueueTakeReleaseLot : HeaderFits.Statement (.lotQueueTakeReleaseLot) := HeaderFits.of_none rfl
theorem HeaderFits.lotQueueTakeReoffer : HeaderFits.Statement (.lotQueueTakeReoffer) := HeaderFits.of_none rfl
theorem HeaderFits.lotQueueTakeDelete : HeaderFits.Statement (.lotQueueTakeDelete) := HeaderFits.of_none rfl
theorem HeaderFits.queueCommitRetry (scale number : Nat) :
    HeaderFits.Statement (.queueCommitRetry scale number) := HeaderFits.of_none rfl
theorem HeaderFits.clockTick : HeaderFits.Statement (.clockTick) := HeaderFits.of_none rfl
theorem HeaderFits.lotEndRetry : HeaderFits.Statement (.lotEndRetry) := HeaderFits.of_none rfl
theorem HeaderFits.deskScan (pressed : BitVec 32) : HeaderFits.Statement (.deskScan pressed) := HeaderFits.of_none rfl
theorem HeaderFits.saleLogRetry : HeaderFits.Statement (.saleLogRetry) := HeaderFits.of_none rfl
theorem HeaderFits.saleRequestRetry (sale : Nat) : HeaderFits.Statement (.saleRequestRetry sale) := HeaderFits.of_none rfl
theorem HeaderFits.saleUpdateRetry (sale : Nat) : HeaderFits.Statement (.saleUpdateRetry sale) := HeaderFits.of_none rfl
theorem HeaderFits.lotreportReissue (sale : Nat) : HeaderFits.Statement (.lotreportReissue sale) := HeaderFits.of_none rfl
theorem HeaderFits.augerPulse (lowMs : Nat) : HeaderFits.Statement (.augerPulse lowMs) := HeaderFits.of_none rfl
theorem HeaderFits.emergencyStop : HeaderFits.Statement (.emergencyStop) := HeaderFits.of_none rfl
theorem HeaderFits.stallTimer : HeaderFits.Statement (.stallTimer) := HeaderFits.of_none rfl
theorem HeaderFits.coastingEnd : HeaderFits.Statement (.coastingEnd) := HeaderFits.of_none rfl
theorem HeaderFits.icmSettleRetry : HeaderFits.Statement (.icmSettleRetry) := HeaderFits.of_none rfl
theorem HeaderFits.tagRead (bytes : List Byte) : HeaderFits.Statement (.tagRead bytes) := HeaderFits.of_none rfl
theorem HeaderFits.poolUpdateRetry : HeaderFits.Statement (.poolUpdateRetry) := HeaderFits.of_none rfl
theorem HeaderFits.cgtPostingRetry : HeaderFits.Statement (.cgtPostingRetry) := HeaderFits.of_none rfl
theorem HeaderFits.powerLoss : HeaderFits.Statement (.powerLoss) := HeaderFits.of_none rfl
theorem HeaderFits.estopnReturnHigh : HeaderFits.Statement (.estopnReturnHigh) := HeaderFits.of_none rfl

end Sys2Proof.Laws
end

