-- ==== Sys2Proof/Tests/Slice0.lean ====
section
/-! SUPPORT. Small tests: the checks of WellFormed, the spec's worked examples, and for every obligation with hypotheses a state and
operands that meet them (`witness_…`). -/

namespace Sys2Proof.Tests
open Sys2Proof Sys2Proof.Machine

/-! ### States -/

/-- A node with the number 5 in epoch 7, start-up ended, off the line, without a role. -/
def base : State :=
  { State.reset with
    sys := { phase := .running, epoch := 7, epochState := .inUse }
    node := { number := 5, epoch := 7 }
    lif := { serial := 1 } }

def online : State := { base with lif := { state := .active, serial := 1 } }
def inRole (r : Role) (s : State) : State := { s with port := { s.port with role := some r } }
def locked (s : State) : State := { s with port := { s.port with lock := true } }
def withAccounts (as : List Account) (s : State) : State := { s with book := { s.book with accounts := as } }
def withHolds (hs : List Hold) (s : State) : State := { s with book := { s.book with holds := hs } }
def withEntries (es : List Entry) (s : State) : State := { s with exc := { s.exc with entries := es } }
def withLots (ls : List Lot) (s : State) : State := { s with wgu := { s.wgu with lots := ls } }
def bookFront (r : BookReq) (s : State) : State := { s with book := { s.book with queue := [r] } }
def fullLine (l : Lif) : Lif := { l with queue := List.replicate 24 default }

def account (n : Nat) (st : AcctState) (bal floor : Int) : Account :=
  ⟨n, st, bal, floor, [0, 0, 5, 0, 1, 0, 0, 0], 0, false, false, none, 1⟩

def entry (q : Nat) (b : ReqBody) (st : EntryState) (dest acct : Option Nat) : Entry :=
  { seq := q, body := b, ref := .cluRelease, account := acct, dest := dest, openIfNone := false, sends := 1, deferrals := 0, moves := 0
    deadline := none, last := none, state := st, search := none, fromMap := false, committing := false, reident := none
    removing := false, replaced := none, tok := 3 }

def lot (n : Nat) (st : LotState) : Lot := ⟨n, 417, 4, 112, 2, 2, 37450, 3, 2, 0, st, true, some 15000⟩
def lotDesc : LotDesc := ⟨⟨15, 205⟩, 388, 3, 47, 1, 18240, 2, 1, 2, 0⟩
def rawLot : RawLot := ⟨15, 205, writeUnsigned 6 388, 3, 47, 1, writeUnsigned 7 18240, 2, writeUnsigned 5 1, 2, 0⟩
def acctField (n : Nat) : Field := writeUnsigned 6 n
def crates : List CrateRow := [⟨1, 100⟩, ⟨2, 180⟩, ⟨1850, 250⟩, ⟨4, 300⟩, ⟨5, 400⟩, ⟨6, 100⟩, ⟨7, 100⟩, ⟨8, 100⟩]

/-- The page of section 6.10. -/
def calPage : CalFields := ⟨120000, 1320000, 100000, 10, 60000⟩

/-! ### WellFormed: what each check refuses -/

theorem test_wf_source : (Instr.opened ⟨64, 0, 0⟩ []).wf = false := by decide
theorem test_wf_destination : (Instr.opened ⟨1, 64, 0⟩ []).wf = false := by decide
theorem test_wf_sequence : (Instr.opened ⟨1, 0, 32⟩ []).wf = false := by decide
theorem test_wf_field : (Instr.opened ⟨1, 0, 0⟩ [0, 0, 0, 0, 0, 0]).wf = false := by decide
theorem test_wf_good_notice : (Instr.opened ⟨63, 0, 31⟩ (acctField 417)).wf = true := by decide
theorem test_wf_scan : (Instr.startupScanEnd [(256, { body := .uncorrectable })] [] false).wf = false := by decide
theorem test_wf_scan_twice : (Instr.startupScanEnd [(3, { body := .corrected }), (3, { header := .corrected })] [] false).wf = false := by decide
theorem test_wf_page : (Instr.startupScanEnd [] [5] false).wf = false := by decide
theorem test_wf_config : (Instr.configure true [.ring 256]).wf = false := by decide
theorem test_wf_hold_key : (Instr.readHold true 1 65536 0).wf = false := by decide
theorem test_wf_selection : (Instr.readLot true (.number 65536)).wf = false := by decide
theorem test_wf_entry : (Instr.retry true 256).wf = false := by decide
theorem test_wf_position : (Instr.readList true .lots 65536).wf = false := by decide
theorem test_wf_weigh : (Instr.weigh true [] 65536 1 1 [] 1).wf = false := by decide
theorem test_wf_tick : (Instr.start true [] [] [] 65536).wf = false := by decide
theorem test_wf_desk : (Instr.deskOut true 256).wf = false := by decide
theorem test_wf_block : (Instr.block true 16777216).wf = false := by decide
theorem test_wf_serial : (Instr.joinMessage ⟨1, 0, 0⟩ 1 1 281474976710656 1).wf = false := by
  simp [Instr.wf, Instr.bodyFits, serialFits]
theorem test_wf_clash : (Instr.clash ⟨1, 0, 0⟩ 256 0 0).wf = false := by
  simp [Instr.wf, Instr.bodyFits, byteFits]
theorem test_wf_answer : (Instr.answer ⟨1, 2, 0⟩ ⟨some .hold, .lot 256 0, 1, .none⟩).wf = false := by decide
theorem test_wf_answer_code : (Instr.answer ⟨1, 2, 0⟩ ⟨some .hold, .lot 1 1, 256, .none⟩).wf = false := by decide
theorem test_wf_answer_data : (Instr.answer ⟨1, 2, 0⟩ ⟨some .hold, .lot 1 1, 11, .wait 256⟩).wf = false := by decide
theorem test_wf_hold : (Instr.hold ⟨1, 2, 0⟩ ⟨65536, 1, [], [], true, 1⟩).wf = false := by decide
theorem test_wf_release : (Instr.release ⟨1, 2, 0⟩ ⟨1, 65536, []⟩).wf = false := by decide
theorem test_wf_post : (Instr.post ⟨1, 2, 0⟩ ⟨256, 1, 1, some .sale, [], [], none, none, none⟩).wf = false := by decide
theorem test_wf_item : (Instr.post ⟨1, 2, 0⟩ ⟨1, 1, 1, some .sale, [], [], some [⟨256, [], []⟩], none, none⟩).wf = false := by decide
theorem test_wf_transfer :
    (Instr.post ⟨1, 2, 0⟩ ⟨1, 1, 1, some .transfer, [], [], none, none, some ⟨[], [], false, false, [], [], [⟨1, 1, 1, [], 65536⟩]⟩⟩).wf =
      false := by decide
theorem test_wf_lot : (Instr.lot ⟨1, 0, 0⟩ { rawLot with ring := 256 }).wf = false := by decide
theorem test_wf_timer : (Instr.excAnswerTimeout 32).wf = false := by decide
theorem test_wf_account_timer : (Instr.bookYieldRetry 1000000).wf = false := by decide
theorem test_wf_tag (bs : List Byte) (h : 255 < bs.length) : (Instr.tagRead bs).wf = false := by
  simp [Instr.wf, Instr.bodyFits, Instr.header?, h]

/-! ### The spec's worked figures -/

/-- Section 1.3: 41,230 less 61,180 is minus 19,950, through 9999938820 and 9999980050. -/
theorem test_signed_addition :
    tensComplement (toDigs 10 61180) = toDigs 10 9999938820 ∧
      addSigned (toSignMag 10 41230) (toSignMag 10 (-61180)) = ⟨true, toDigs 10 19950⟩ := by decide

/-- Section 1.5: a lot of 37,450 g at 612 c/kg, 350 bp, two crates at 250. -/
theorem test_sale_figures :
    saleAmount 37450 612 = 22919 ∧ levyOf 22919 350 = 802 ∧ proceedsOf 22919 350 = 22117 ∧ buyerCharge 37450 612 2 250 = 23419 := by
  decide

/-- Section 1.6: 2,500 kg at 38 c/kg with 2,500 g per pulse, 61,230 granted. -/
theorem test_ice_figures :
    iceHoldAmount 2500 38 = 95000 ∧ gramsPurchasable 61230 38 = 1611315 ∧ targetPulses 61230 38 2500 = 644 ∧
      targetGrams 61230 38 2500 = 1610000 ∧ iceSettleAmount 1610000 38 = 61180 ∧ iceSettleAmount 1615000 38 = 61370 := by decide

/-- R14: 1,500 g at 37 c/kg. R7: 999,499,500 by 1,000 HALF UP carries. R116: halves away from zero. -/
theorem test_rounding :
    iceSettleAmount 1500 37 = 56 ∧ scaleBy 1000 .halfUp 999499500 = 999500 ∧ roundDiv 4910404 8 = 613801 ∧
      roundDiv (-4910404) 8 = -613801 := by decide

/-- Section 1.7: a refund of 80,000 saturates 999,950,000; the DRAW of 100,000 keeps the flag; CLEAR FLAGS clears it. -/
theorem test_saturation :
    let a := addBalance .other 80000 (account 512044 .opened 999950000 0)
    let b := addBalance .other (-100000) a
    a.balance = 999999999 ∧ a.saturated = true ∧ b.balance = 999899999 ∧ b.saturated = true ∧ b.overdrawn = false := by decide

/-- Section 1.8: the SETTLE of 61,370 overdraws; the SALE of 22,117 with two crates of type 3 met clears it. -/
theorem test_overdrawn :
    let a := applyPosting ⟨⟨14, 2, 88⟩, .settle, 417, 61370, [], some (2, 17), none⟩ (account 417 .opened 41230 (-20000))
    let b := applyPosting ⟨⟨8, 6, 53⟩, .sale, 417, 22117, [⟨3, 2, 250⟩], none, none⟩ a
    a.balance = -20140 ∧ a.overdrawn = true ∧ debitAllowed [] a 250 = false ∧ b.balance = 2477 ∧ b.overdrawn = false := by decide

/-- Section 2.9, step 1: the grant of 200,000 with available funds of 150,000 and a floor of minus 100,000. -/
theorem test_grant :
    grantAmount [] (account 512044 .opened 150000 (-100000)) 200000 true = some (200000, .granted) ∧
      debitAllowed [⟨⟨7, 3, 5⟩, 512044, 200000, 176581, 14400, 0⟩] (account 512044 .opened 126581 (-100000)) 500 = true ∧
      grantAmount [] (account 417 .opened 41230 (-20000)) 95000 true = some (61230, .grantedLess) := by decide

/-- Section 9.9: the RETURN of 3 crates of type 3 and 3 of type 5 to a record that holds 5 and 1. -/
theorem test_return :
    let b := applyPosting ⟨⟨20, 1, 42⟩, .ret, 512044, 0, [⟨3, 3, 250⟩, ⟨5, 3, 400⟩], none, none⟩ (account 512044 .opened 85021 (-100000))
    b.balance = 86171 ∧ b.crates = [0, 0, 2, 0, 0, 0, 0, 0] := by decide

/-- Section 6.10: gross 41,150 and 41,151 g of averages 613,800 and 613,806, both 41,150 in divisions of 10 g. -/
theorem test_gross :
    averageOf [613790, 613812, 613805, 613796, 613801, 613799, 613794, 613803] = 613800 ∧ grossOf calPage 120000 613800 = 41150 ∧
      grossOf calPage 120000 613806 = 41151 ∧ toDivision calPage 41151 = 41150 := by decide

/-- Section 7.9: desks 5 and 17 pressed, rotation from desk 21; the buyer charge at 590 c/kg is 10,942 and the levy 322. -/
theorem test_rotation :
    rotateFrom 20 (pressSet 0x00010010 (List.replicate 32 21)) = [5, 17] ∧ buyerCharge 18240 590 1 180 = 10942 ∧
      levyOf 10762 300 = 322 ∧ proceedsOf 10762 300 = 10440 := by decide

/-- R2, section 4.2: a plus sign is 1010, a minus sign 1011; a hexadecimal digit or another sign is malformed. -/
theorem test_packed :
    readSigned [0xA0, 0x00, 0x04, 0x12, 0x30] = some 41230 ∧ readSigned [0xB0, 0x00, 0x01, 0x99, 0x50] = some (-19950) ∧
      readSigned [0xC0, 0x00, 0x01, 0x99, 0x50] = none ∧ readUnsigned 6 [0x00, 0x04, 0x1A] = none ∧
      readAccountNo [0x00, 0x04, 0x17] = some 417 := by decide

/-- No word spells a command. -/
theorem test_no_word : decodeTableWord 16 0x1234 = none ∧ (base.withFetchWord 16 0x1234).pending = [] := by decide

/-! ### Witnesses: the machine and the amounts -/

theorem witness_stepTakesFront : ({ base with pending := [.leave true, .resetnRelease] } : State).pending = .leave true :: [.resetnRelease] :=
  rfl

theorem witness_emptyQueueTicks :
    (State.reset.pending = [] ∧ State.reset.sys.phase ≠ .running) ∧ (base.pending = [] ∧ base.sys.phase = .running) := by decide

theorem witness_execKeepsQueue : ∃ t, exec .resetnRelease { base with pending := [.powerLoss] } = .next t ∧ t.pending = [.powerLoss] :=
  ⟨_, rfl, rfl⟩

theorem witness_sizesKept : WithinSizes online ∧ ∃ t, step { online with pending := [.resetnRelease] } = .next t :=
  ⟨{ slots := List.length_replicate, requests := by decide, queue := by decide, reserve := by decide, bookQueue := by decide
     holds := by decide, desks := rfl, lotQ := by decide, blocked := by decide, window := by decide, history := by decide
     homeMap := by decide, accounts := by decide, entries := by decide, lots := by decide, lotQueue := by decide, sales := by decide
     peers := by decide, tags := (fun _ h => nomatch h), damaged := by decide, lotNumbers := by decide, weighing := (fun h => nomatch h)
     quiet := fun _ h => absurd rfl h }, _, rfl⟩

theorem witness_signedAddition :
    (∀ d ∈ (toSignMag 10 41230).digs, d ≤ 9) ∧ (toSignMag 10 (-61180)).digs.length = 10 ∧
      ((toSignMag 10 41230).value + (toSignMag 10 (-61180)).value).natAbs < 10 ^ 10 := by decide

theorem witness_longDivision : 0 < 38 ∧ ∀ x ∈ [6, 1, 2, 3, 0, 0, 0, 0], x ≤ 9 := by decide

theorem witness_packedRoundTrip : 999999 < 10 ^ 6 ∧ 0 < 10 ^ 0 ∧ (-999999999 : Int).natAbs ≤ 999999999 := by decide

theorem witness_saleFigures : 2000 ≤ 2000 ∧ 9999999 ≤ 9999999 ∧ 99999 ≤ 99999 ∧ overRange (buyerCharge 9999999 99999 99 9999) = true := by
  decide

theorem witness_iceFigures : 0 < 38 ∧ 0 < 2500 ∧ 61230 ≤ 2500 * 38 ∧ gramsPurchasable 94 38 < 2500 ∧ targetPulses 94 38 2500 = 0 := by decide

theorem witness_balanceAddition :
    let a := account 417 .opened 999999998 0
    (a.balance + 1 ≤ 999999999) ∧ 999999999 < a.balance + 2 ∧ a.balance + (-1999999998) < -999999999 ∧
      a.floor ≤ (addBalance .other (-999999998) a).balance ∧ (addBalance .unchecked (-999999999) a).balance < a.floor := by decide

theorem witness_grants :
    let a := account 417 .opened 1000 0
    grantAmount [] a 1000 false = some (1000, .granted) ∧ grantAmount [] a 1001 true = some (1000, .grantedLess) ∧
      grantAmount [] a 1001 false = none ∧ debitAllowed [] a 1000 = true ∧ debitAllowed [] a 1001 = false := by decide

def slotOf (wc : Nat) (ok : Bool) : Slot := ⟨.copy ⟨.account 417, wc, 6, .account (account 417 .opened 1 0)⟩ ok false, .dirty, false⟩

theorem witness_scanChoosesNewest :
    let xs := [slotOf 3 false, slotOf 2 true, slotOf 2 true]
    (∃ c, candidate (slotOf 2 true) = some c ∧ c.wc = 2) ∧ xs[1]? = some (slotOf 2 true) ∧ (slotOf 2 true).state ≠ .current ∧
      ((chooseCopies xs).map (·.state)) = [.dirty, .current, .dirty] := ⟨⟨_, rfl, rfl⟩, by decide⟩

/-! ### Witnesses: the Station Port -/

theorem witness_portChecksCommands :
    (argumentOk (.zero true)).isSome = true ∧ ({ base with sys := { phase := .off } } : State).sys.phase = .off ∧
      portStarting State.reset = true ∧ Taken base ∧ argumentOk (.zero false) = some false ∧
      (commandRole (.zero true)).isSome = true ∧ commandRole (.zero true) ≠ base.port.role := by decide

theorem witness_ackClearsFlags : Taken base ∧ (4095 : Word16).toNat < 4096 ∧ 4096 ≤ (4096 : Word16).toNat := by decide

theorem witness_maskAndLock :
    let s := locked (inRole .scale base)
    Taken s ∧ (4095 : Word16).toNat < 4096 ∧ 4096 ≤ (4096 : Word16).toNat ∧ s.port.lock = true ∧ s.port.role = some .scale ∧
      (readConfig [.ring 2]).isSome = true ∧ (readAdjust (acctField 417) (writeSigned (-5))).isSome = true ∧
      (readAccountNo (acctField 999999)).isSome = true ∧ (inRange 1000 9999999 (readWeight (writeUnsigned 7 1000))).isSome = true := by
  decide

def saleRec (n : Nat) (collected : Bool) : SaleRec :=
  { (default : SaleRec) with number := n, collected := collected, buyer := 512044, buyerHome := 12, key := ⟨5, 7, 2⟩, charge := 500 }

theorem witness_readsAnswer :
    let s := withAccounts [account 417 .opened 0 0] (withHolds [⟨⟨7, 3, 5⟩, 417, 1, 1, 1, 0⟩]
      (withEntries [entry 4 .locate .sent none (some 417)] base))
    let scale := inRole .scale (withLots [lot 204 .offered] base)
    let clock := inRole .clock { base with clu := { base.clu with sales := [{ entry := saleRec 30 true }, { entry := saleRec 31 false }] } }
    Taken s ∧ readAccountNo (acctField 417) = some 417 ∧ (accountOf s 417).isSome = true ∧ accountOf s 418 = none ∧
      readAccountNo [0, 0, 0] = none ∧ (findHold s.book.holds ⟨7, 3, 5⟩).isSome = true ∧ (findEntry s 4).isSome = true ∧
      s.port.role = none ∧ Taken scale ∧ (findLot scale 204).isSome = true ∧ findLot scale 1 = none ∧ Taken clock ∧
      findSale clock 1 = none ∧ ((findSale clock 30).map (·.entry.collected)) = some true ∧
      ((findSale clock 31).map (·.entry.collected)) = some false ∧ listRoom clock = true := by decide

theorem witness_readReading :
    Taken base ∧ (inRole .scale base).port.role = some .scale ∧ (inRole .ice base).port.role = some .ice ∧
      (inRole .gate base).port.role = some .gate ∧ base.port.role = none := by decide

theorem witness_configure :
    let c : Cfg := { role := some .gate, ring := some 2 }
    readConfig [.role 4, .ring 2] = some c ∧ Taken base ∧ base.port.lock = false ∧ numberFixed base c = false ∧
      roleFixed base c = false ∧ base.lif.state = .offline ∧ base.port.role = none ∧ (base.port.cfg.update c).role = some .gate ∧
      roleFixed (inRole .gate base) c = false ∧ (inRole .gate base).port.role.isSome = true ∧ online.lif.state ≠ .offline ∧
      numberFixed online c = false ∧ roleFixed online c = false := by decide

theorem witness_faultyFrames : base.sys.phase ≠ .off ∧ Taken base ∧ (0 : Byte).toNat = 0 ∧ 51 < (52 : Byte).toNat := by decide

/-! ### Witnesses: supply, start-up, erasure -/

def writing : State := { base with store := { base.store with op := some (.write 3 ⟨.node, 1, 7, .node {}⟩ 1) } }

theorem witness_startUpBegins :
    base.store.op = none ∧ base.sys.resetLow = false ∧ base.sys.phase ≠ .off ∧ Taken base ∧ writing.sys.phase ≠ .off ∧
      writing.store.op = some (.write 3 ⟨.node, 1, 7, .node {}⟩ 1) ∧ (writing.store.slots[3]?).isSome = true := by decide

theorem witness_scanRebuilds :
    let s := State.reset
    s.sys.phase = .scanning ∧ s.store.erasing = none ∧ s.store.list = [] ∧ s.store.pend = [] ∧
      greatestEpoch { slots := [slotOf 3 true], serial := 1 } < 65534 := by decide

theorem witness_eraseStore :
    Taken base ∧ base.port.lock = false ∧ online.lif.state ≠ .offline ∧ base.lif.state = .offline ∧ base.store.op = none ∧
      findSlot (fun x => x.state != .retired) base.store.slots 0 = some 0 := by decide

/-! ### Witnesses: the hall line -/

def announce : State := { base with lif := { state := .announce, clashT := some 0, serial := 1 } }
def listen : State := { base with lif := { state := .listen, listenT := some 0, serial := 1 } }
def ready : State :=
  inRole .gate { base with port := { base.port with cfg := { nodeNumber := some 5, role := some .gate, lineRate := some 1 } } }

theorem witness_joinTowardsActive :
    (Taken online ∧ online.lif.state ≠ .offline) ∧
    (Taken ready ∧ ready.lif.state = .offline ∧ ready.port.staged = {} ∧ ready.port.role.isSome = true ∧ joinRefusal ready = none ∧
      ready.lif.numbering = false ∧ ready.node.number ≠ 0) ∧
    (joinRefusal (inRole .gate base) = some .notConfigured ∧ (inRole .gate base).port.staged = {}) ∧
    (let s : State := { ready with node := { ready.node with number := 0 } }
     joinRefusal s = none ∧ s.node.number = 0 ∧ listRoom s = true) ∧
    (listen.sys.phase = .running ∧ listen.lif.state = .listen ∧ listen.lif.listenT = some 0 ∧ listen.lif.wait = [] ∧
      listen.wgu.weigh = none) ∧
    (announce.lif.state = .announce ∧ announce.lif.clashT = some 0 ∧ announce.book.openedWait = [] ∧ announce.wgu.lots = [] ∧
      ∀ e ∈ announce.exc.entries, e.state ≠ .unresolved ∧ e.state ≠ .queued ∧ e.search = none) ∧
    (let x := entry 4 .locate .unresolved none (some 417)
     let e := entry 6 (.release ⟨5, 7, 1⟩) .queued (some 9) (some 418)
     let s := withEntries [x, e] announce
     s.exc.entries = [x, e] ∧ x.seq < e.seq ∧ x.search = none ∧ x.account = some 417 ∧ accountOf s 417 = none ∧
      mapFind s.exc.homeMap 417 = none ∧ e.search = none ∧ e.committing = false ∧ e.dest = some 9 ∧ 9 ≠ s.node.number ∧
      s.lif.queue.length + s.lif.wait.length < 23) := by decide

theorem witness_leaveGoesOffline :
    (base.sys.phase = .running ∧ base.lif.wait = [] ∧ base.wgu.weigh = none ∧ Taken base ∧ base.lif.state = .offline) ∧
    (Taken online ∧ online.lif.state ≠ .offline ∧ online.lif.tx = none) ∧
    (let s : State := { online with lif := { online.lif with tx := some ⟨2, []⟩, leaving := true } }
     Taken s ∧ s.lif.tx.isSome = true ∧ s.lif.leaving = true) := by decide

def message (b : Block) (attempts : Nat) : Msg := { newMsg .notice 0 0 (.opened 417) b 3 with attempts := attempts, stamp := 2, seq := 4 }
def sends (m : Msg) (errors : Nat) (es : List Entry) : State :=
  withEntries es { online with lif := { online.lif with queue := [m], tx := some ⟨2, []⟩, cnt := { consecErrors := errors } } }

theorem witness_lineSends :
    (let l : Lif := { online.lif with queue := [message .book 0] }
     maySend l = true ∧ firstMsg (l.queue ++ l.reserve) = some (message .book 0)) ∧
    (sending (sends (message .book 0) 0 []) = some (message .book 0) ∧ (message .book 0).block = .book ∧
      (sends (message .book 0) 0 []).lif.leaving = false) ∧
    (let e := entry 4 .locate .sent (some 9) (some 417)
     sending (sends (message .exc 0) 0 [e]) = some (message .exc 0) ∧ findEntry (sends (message .exc 0) 0 [e]) 4 = some e ∧
      e.tok = (message .exc 0).tok ∧ e.state = .sent) ∧
    ((sends (message .book 2) 14 []).lif.cnt.consecErrors < 15 ∧ (message .book 2).attempts < 3 ∧
      sending (sends (message .book 2) 14 []) = some (message .book 2)) ∧
    (3 ≤ (message .book 3).attempts ∧ sending (sends (message .book 3) 14 []) = some (message .book 3)) ∧
    (let s := sends (message .book 0) 15 []
     sending s = some (message .book 0) ∧ s.lif.leaving = false ∧ s.lif.cnt.consecErrors = 15 ∧ s.sys.phase = .running ∧
      s.lif.wait = [] ∧ s.wgu.weigh = none) := by decide

theorem witness_waitingMessage :
    let w : Waiting := ⟨message .book 0, .bookHand⟩
    let s : State := { online with lif := { online.lif with queue := List.replicate 23 default, wait := [w] } }
    s.lif.state = .active ∧ s.lif.queue.length < 24 ∧ s.lif.wait = [w] ∧ w.ends = .bookHand ∧ ∀ d, w.msg.body ≠ .lot d :=
  ⟨rfl, by decide, rfl, rfl, fun _ h => nomatch h⟩

theorem witness_presentAndPeers :
    (let s : State := { online with lif := { online.lif with presentT := some 10000 } }
     s.lif.presentT = some 10000 ∧ s.lif.state = .active ∧ sendRoom s = true ∧ s.lif.queue.any isPresent = false ∧
      (s.lif.wait.any fun w => isPresent w.msg) = false) ∧
    (findPeer [⟨9, some .gate, 0, 35000⟩] 9 = some ⟨9, some .gate, 0, 35000⟩ ∧ online.port.role ≠ some .scale) ∧
    (findPeer [⟨9, none, 0, 34999⟩] 9 = some ⟨9, none, 0, 34999⟩ ∧ 34999 < 35000) := by decide

/-- Headers heard by node 5: to all nodes, to this node, from its own number. -/
def toAll : Hdr := ⟨9, 0, 6⟩
def toMe : Hdr := ⟨9, 5, 6⟩
def fromMe : Hdr := ⟨5, 0, 0⟩

theorem witness_lineStateMessages :
    base.lif.state = .offline ∧ (Instr.opened toAll []).header? = some toAll ∧ online.lif.state ≠ .offline ∧ Heard true toAll online ∧
      (readRoleRing 2 2).isSome = true ∧
      (fromMe.src = online.node.number ∧ headerOk true fromMe = true ∧ 2 ≠ online.lif.serial ∧ online.lif.state = .active ∧
        online.lif.reserve.length < 4) ∧
      (fromMe.src = listen.node.number ∧ 2 ≠ listen.lif.serial ∧ listen.lif.state = .listen ∧ listen.lif.wait = [] ∧
        listen.wgu.weigh = none ∧ listen.sys.phase = .running) ∧
      (announce.lif.state = .announce ∧ toAll.src ≠ announce.node.number ∧ headerOk true toAll = true ∧ announce.lif.wait = [] ∧
        announce.wgu.weigh = none ∧ announce.sys.phase = .running) := by decide

def fullBook (s : State) : State := { s with book := { s.book with queue := List.replicate 16 ⟨.port, .cmdClear 417⟩ } }
def searching (second : Bool) (homes : List Nat) (left : Nat) : Entry :=
  { entry 6 (.hold ⟨5, 7, 1⟩ 100 true 60) .unresolved none (some 417) with search := some (.window second homes none left) }

theorem witness_noticesReachTheBook :
    Heard true toAll online ∧ bookRoom online = true ∧ Heard true toAll (fullBook online) ∧ bookRoom (fullBook online) = false ∧
      findEntry online toAll.seq = none ∧ readAcctField (acctField 417) = .ok 417 ∧
      findEntry (withEntries [searching false [4] 20] online) toAll.seq = some (searching false [4] 20) ∧
      (searching false [4] 20).account = some 417 ∧ (searching false [4] 20).state = .unresolved := by decide

theorem witness_requestsReachTheBook :
    Heard false toMe online ∧ bookRoom online = true ∧ Heard true toAll online ∧ Heard false toMe (fullBook online) ∧
      bookRoom (fullBook online) = false ∧ (fullBook online).lif.reserve.length < 4 ∧
      readReleaseReq toMe.src ⟨7, 1, acctField 417⟩ = .ok ⟨⟨9, 7, 1⟩, 417⟩ := by decide

def clockNode : State :=
  inRole .clock { online with port := { online.port with cfg := { ring := some 2, levy := some 350, crates := some crates } } }

theorem witness_lotMessages :
    let full : State := inRole .scale { online with wgu := { online.wgu with lotQ := List.replicate 8 (.delete 1) } }
    Heard false toMe (inRole .scale online) ∧ (inRole .scale online).port.role = some .scale ∧
      (inRole .scale online).wgu.lotQ.length < 8 ∧ Heard false toMe full ∧ 8 ≤ full.wgu.lotQ.length ∧ online.port.role ≠ some .scale ∧
      online.lif.reserve.length < 4 ∧ Heard true toAll clockNode ∧ readLotDesc rawLot = some lotDesc ∧
      clockNode.port.role = some .clock ∧ (inRole .clock online).port.cfg.ring ≠ some lotDesc.ring ∧
      clockNode.port.cfg.ring = some lotDesc.ring ∧ mayClaim clockNode lotDesc.id = true ∧
      PlaceOpen 0 (List.range' 1 31) clockNode := by decide

theorem witness_answersAreMatched :
    let deferred : RawAnswer := ⟨some .hold, .account (acctField 417), 11, .wait 10⟩
    let done : RawAnswer := ⟨some .release, .account (acctField 417), 1, .none⟩
    let e := entry 6 (.hold ⟨5, 7, 1⟩ 100 true 60) .sent (some 9) (some 417)
    let r := entry 6 (.release ⟨5, 7, 1⟩) .sent (some 9) (some 417)
    Heard false toMe online ∧ ansCodeOf deferred.code = some .defer ∧ readSubject deferred.subject = some (.account 417) ∧
      readAnsData deferred.data = some (.wait 10) ∧ ansDataFits .hold .defer (.wait 10) = true ∧ deferred.kind ≠ some .locate ∧
      findEntry online toMe.seq = none ∧ findEntry (withEntries [e] online) toMe.seq = some e ∧ e.state = .sent ∧
      e.dest = some toMe.src ∧ some e.body.kind = deferred.kind ∧ entrySubject e = some (.account 417) ∧ codeAllowed e.body .defer = true ∧
      e.deferrals < 20 ∧ ansCodeOf done.code = some .done ∧ readAnsData done.data = some .none ∧
      ansDataFits .release .done .none = true ∧ some r.body.kind = done.kind ∧ codeAllowed r.body .done = true ∧ r.ref = .cluRelease ∧
      Heard false toMe (inRole .clock online) ∧ (inRole .clock online).port.role = some .clock := by decide

/-! ### Witnesses: the Account Book -/

def busyBook : State := { base with book := { base.book with queue := [⟨.port, .cmdClear 9⟩] } }

theorem witness_bookCommandsQueue :
    Taken base ∧ readAccountNo (acctField 417) = some 417 ∧ bookCmdBusy base = false ∧ isBoat 417 = true ∧
      readAccountNo (acctField 512044) = some 512044 ∧ isBuyer 512044 = true ∧ isBuyer 500000 = true ∧ isBoat 499999 = true ∧
      readAmount (writeUnsigned 9 999999999) = some 999999999 ∧ base.port.lock = false ∧
      readBalance (writeSigned (-999999999)) = some (-999999999) ∧ Taken busyBook ∧ bookCmdBusy busyBook = true ∧
      busyBook.port.lock = false ∧ readAccountNo (acctField 0) = none := by decide

def posting (k : PostKind) (n : Nat) (items : List CrateItem) (key : Option (Nat × Nat)) : Posting :=
  ⟨⟨7, 3, n⟩, k, 512044, 500, items, key, none⟩
def mark (s : State) : State := { s with book := { s.book with marks := s.book.marks.set 6 ⟨3, 117⟩ } }
def buyer (st : AcctState) : State := mark (withAccounts [account 512044 st 1000 0] online)

theorem witness_postIsDecided :
    let p := posting .draw 118 [] (some (3, 5))
    let q := posting .draw 117 [] (some (3, 5))
    let front (p : Posting) (s : State) : State := bookFront ⟨.line 7 4, .post (.ok p)⟩ s
    BookFront ⟨.line 7 4, .post (.bad [0xFF])⟩ [] (bookFront ⟨.line 7 4, .post (.bad [0xFF])⟩ online) ∧ LineOpen online ∧
      BookFront ⟨.line 7 4, .post (.ok q)⟩ [] (front q (mark online)) ∧ LineOpen (front q (mark online)) ∧
      aboveMark (mark online) q.id = false ∧ aboveMark (mark online) p.id = true ∧ accountOf (front p (mark online)) p.account = none ∧
      aboveMark (buyer .yielding) p.id = true ∧ (accountOf (buyer .yielding) 512044).map (·.state) = some .yielding ∧
      (accountOf (buyer (.moved 4)) 512044).map (·.state) = some (.moved 4) ∧
      (accountOf (buyer .opened) 512044).map (·.state) = some .opened ∧ p.kind ≠ .issue ∧ ListOpen (front p (buyer .opened)) := by
  decide

theorem witness_lineFor : LineFor (.line 7 4) (buyer .opened) ∧ LineFor (.own 3) base ∧ LineFor .port base :=
  by
  refine ⟨fun _ _ _ => by decide, ?_, ?_⟩ <;> (intro _ _ h; cases h)

theorem witness_issue :
    let p (amount : Nat) : Posting := ⟨⟨20, 1, 41⟩, .issue, 512044, amount, [⟨3, 2, 250⟩], none, none⟩
    let a := account 512044 .opened 1000 0
    BookFront ⟨.line 20 4, .post (.ok (p 1000))⟩ [] (bookFront ⟨.line 20 4, .post (.ok (p 1000))⟩ (buyer .opened)) ∧
      (p 1000).kind = .issue ∧ aboveMark (buyer .opened) (p 1000).id = true ∧ accountOf (buyer .opened) 512044 = some a ∧
      a.state = .opened ∧ -999999999 ≤ a.floor ∧ a.balance ≤ 999999999 ∧ LineOpen (buyer .opened) ∧ ListOpen (buyer .opened) ∧
      availableFunds [] a - (1001 : Nat) < a.floor ∧ a.floor ≤ availableFunds [] a - (1000 : Nat) := by decide

theorem witness_postingEffects :
    let a := account 417 .opened 1000 0
    let items : List CrateItem := [⟨3, 2, 250⟩, ⟨8, 1, 100⟩]
    a.crates.length = 8 ∧ (items.map (·.ctype)).Nodup ∧ (∀ i ∈ items, 1 ≤ i.ctype ∧ i.ctype ≤ 8) ∧ (posting .sale 1 items none).kind ≠ .transfer ∧
      (posting .ret 1 items none).kind = .ret ∧ (posting .settle 1 [] (some (1, 1))).kind = .settle ∧
      a.balance - (500 : Nat) = 500 ∧ (∀ i ∈ items, i.ctype ≠ 5) := by decide

theorem witness_postingAppliedOnce :
    let p := posting .draw 118 [⟨3, 2, 250⟩] (some (3, 5))
    let s : State := { buyer .opened with book := { (buyer .opened).book with hand := some ⟨.line 7 4, .post (.ok p)⟩ } }
    s.book.hand = some ⟨.line 7 4, .post (.ok p)⟩ ∧ LineOpen s ∧ nodeOk p.id.node = true ∧ s.book.marks.length = 62 ∧
      accountOf s p.account = some (account 512044 .opened 1000 0) ∧ s.sys.phase = .running := by decide

theorem witness_holdIsDecided :
    let h : HoldReq := ⟨⟨7, 3, 5⟩, 512044, 1000, true, 14400⟩
    let stands (n : Nat) : List Hold := List.replicate n ⟨⟨7, 3, 6⟩, 512044, 1, 1, 1, 0⟩
    let s := buyer .opened
    BookFront ⟨.line 7 4, .hold (.ok h)⟩ [] (bookFront ⟨.line 7 4, .hold (.ok h)⟩ s) ∧ LineOpen s ∧
      ((findHold [⟨⟨7, 3, 5⟩, 512044, 9, 9, 1, 0⟩] h.key).map (·.remaining)) = some 9 ∧ isOpen s 512044 = true ∧
      findHold s.book.holds h.key = none ∧ accountOf online h.account = none ∧
      (accountOf (buyer .yielding) 512044).map (·.state) = some .yielding ∧
      (accountOf (buyer (.moved 4)) 512044).map (·.state) = some (.moved 4) ∧ 24 ≤ (stands 24).length ∧ (stands 23).length < 24 ∧
      findHold (stands 24) h.key = none ∧ grantAmount (stands 23) (account 512044 .opened 23 0) 1 true = none ∧
      grantAmount (stands 23) (account 512044 .opened 24 0) 2 true = some (1, .grantedLess) := by decide

theorem witness_releaseIsDecided :
    let q : ReleaseReq := ⟨⟨7, 3, 5⟩, 512044⟩
    let held : Hold := ⟨⟨7, 3, 5⟩, 512044, 9, 9, 1, 0⟩
    let s := withHolds [held] (buyer .opened)
    BookFront ⟨.line 7 4, .release (.ok q)⟩ [] (bookFront ⟨.line 7 4, .release (.ok q)⟩ s) ∧ LineOpen s ∧
      findHold s.book.holds q.key = some held ∧ isOpen s held.account = true ∧ (s.book.holds.map (·.key)).Nodup ∧
      (account 512044 .opened 1000 0).number = held.account ∧ findHold (buyer .opened).book.holds q.key = none ∧
      findHold (withHolds [held] (buyer .yielding)).book.holds q.key = some held ∧ isOpen (buyer .yielding) held.account = false ∧
      accountOf online q.account = none := by decide

theorem witness_homesAreCompared :
    let front (a : BookAsk) : State := bookFront ⟨.line 9 4, a⟩ (buyer .opened)
    BookFront ⟨.line 9 4, .locate (.ok 512044)⟩ [] (front (.locate (.ok 512044))) ∧ isOpen (buyer .opened) 512044 = true ∧
      LineOpen (buyer .opened) ∧ isOpen online 512044 = false ∧ BookFront ⟨.line 9 4, .opened 9 (.ok 512044)⟩ [] (front (.opened 9 (.ok 512044))) ∧
      BookFront ⟨.line 9 4, .home 4 (.ok 512044)⟩ [] (front (.home 4 (.ok 512044))) ∧ (buyer .opened).node.number < 9 ∧
      4 < (buyer .opened).node.number ∧ ListOpen (buyer .opened) := by decide

def boats : Cfg := { boatFloor := some (-20000) }

theorem witness_bookCommandsTaken :
    let s : State := { online with port := { online.port with cfg := boats } }
    let clean : Account := { account 417 .opened 0 0 with crates := List.replicate 8 0 }
    s.sys.phase = .running ∧ ListOpen s ∧ accountOf s 417 = none ∧ BookFront ⟨.port, .cmdOpen 417 0⟩ [] (bookFront ⟨.port, .cmdOpen 417 0⟩ s) ∧
      base.lif.state ≠ .active ∧ s.lif.state = .active ∧ isBoat 512044 = false ∧
      s.book.accounts.length < 128 ∧ isBoat 417 = true ∧ s.port.cfg.boatFloor = some (-20000) ∧
      BookFront ⟨.own 3, .localOpen 3 417⟩ [] (bookFront ⟨.own 3, .localOpen 3 417⟩ s) ∧
      BookFront ⟨.port, .cmdAdjust 417 5⟩ [] (bookFront ⟨.port, .cmdAdjust 417 5⟩ s) ∧
      BookFront ⟨.port, .cmdRemove 417⟩ [] (bookFront ⟨.port, .cmdRemove 417⟩ s) ∧
      BookFront ⟨.port, .cmdClear 417⟩ [] (bookFront ⟨.port, .cmdClear 417⟩ s) ∧
      accountOf (withAccounts [clean] s) 417 = some clean ∧ clean.state = .opened ∧ removable s clean = true ∧
      removable s (account 417 .opened 0 0) = false ∧ (account 417 .yielding 0 0).state = .yielding ∧
      (account 417 (.moved 4) 0 0).state = .moved 4 ∧ ({ clean with saturated := true } : Account).saturated = true ∧
      clean.saturated = false := by decide

theorem witness_bookFull :
    let full := withAccounts (List.replicate 128 (account 9 .opened 0 0)) online
    128 ≤ full.book.accounts.length ∧ accountOf full 512044 = none := by
  exact ⟨by simp [withAccounts], rfl⟩

theorem witness_bookWaits :
    let waits : State := { base with book := { base.book with queue := List.replicate 15 ⟨.port, .cmdClear 9⟩, wait := [⟨.own 3, .locate (.ok 9)⟩] } }
    let h (life ms : Nat) : Hold := ⟨⟨7, 3, 5⟩, 417, 9, 9, life, ms⟩
    let y (st : YieldStage) : State := { base with book := { base.book with yields := [⟨417, 4, st⟩] } }
    waits.book.wait = [⟨.own 3, .locate (.ok 9)⟩] ∧ waits.book.queue.length < 16 ∧ findHold [h 1 1000] ⟨7, 3, 5⟩ = some (h 1 1000) ∧
      findHold [h 2 1000] ⟨7, 3, 5⟩ = some (h 2 1000) ∧ findHold [h 1 999] ⟨7, 3, 5⟩ = some (h 1 999) ∧
      yieldOf (y (.reopenWait 0)) 417 = some ⟨417, 4, .reopenWait 0⟩ ∧ ListOpen base ∧
      yieldOf (y (.finishWait (.moved 4) true 0)) 417 = some ⟨417, 4, .finishWait (.moved 4) true 0⟩ := by decide

theorem witness_retryAndDiscard :
    let p := posting .draw 118 [] (some (3, 5))
    let e := entry 31 (.post p) .failed (some 9) (some 512044)
    let s := withEntries [e] base
    Taken s ∧ 31 < 32 ∧ 31 ≤ 31 ∧ failedPost base 31 = none ∧ failedPost s 31 = some e ∧ e.reident = none ∧ e.body = .post p ∧
      e.removing = false ∧ listRoom s = true ∧ unitInService s e.ref = false := by decide

/-! ### Witnesses: the Exchange Controller -/

theorem witness_entriesAreSent :
    let e (st : EntryState) (sends : Nat) : Entry :=
      { entry 6 (.release ⟨5, 7, 1⟩) st (some 9) (some 417) with sends := sends, deadline := some 0 }
    let at_ (e : Entry) : State := { withEntries [e] online with exc := { (withEntries [e] online).exc with ready := [6] } }
    let own := entry 6 (.release ⟨5, 7, 1⟩) .queued (some 5) (some 417)
    let f : Entry := { entry 6 (.post (posting .draw 118 [] (some (3, 5)))) .sent (some 9) (some 512044) with deadline := some 0, sends := 4 }
    findEntry (at_ (e .queued 0)) 6 = some (e .queued 0) ∧ LineOpen (at_ (e .queued 0)) ∧ (e .queued 0).dest = some 9 ∧
      9 ≠ online.node.number ∧ (at_ (e .queued 0)).exc.ready = [6] ∧ (e .sent 3).state = .sent ∧ (e .sent 3).deadline = some 0 ∧
      (e .sent 3).sends < 4 ∧ (e .deferred 0).state = .deferred ∧ findEntry (at_ own) 6 = some own ∧ (at_ own).lif.state = .active ∧
      own.dest = some online.node.number ∧ ownAsk own = some (.release (.ok ⟨⟨5, 7, 1⟩, 417⟩)) ∧ bookRoom (at_ own) = true ∧
      findEntry (at_ f) 6 = some f ∧ 4 ≤ f.sends ∧ f.body = .post (posting .draw 118 [] (some (3, 5))) ∧ (at_ f).sys.phase = .running ∧
      unitInService (at_ f) f.ref = false ∧ (at_ f).exc.capture = none ∧ own.deadline ≠ some 0 := by decide

theorem witness_searchesEnd :
    let w := searching false [] 0
    let d : Entry := { searching false [] 0 with search := some (.waiting [] 0) }
    let h := searching true [9, 4] 0
    let o : Entry := { searching false [] 0 with search := some (.openWait 0) }
    let asks : State := { base with exc := { base.exc with
      asks := [⟨.cluRelease, [⟨.release ⟨5, 7, 1⟩, .cluRelease, some 417, some 9, false⟩]⟩] } }
    findEntry (withEntries [w] online) 6 = some w ∧ LineOpen online ∧ w.search = some (.window false [] none 0) ∧
      d.search = some (.waiting [] 0) ∧ h.search = some (.window true [9, 4] none 0) ∧ 4 ∈ [9, 4] ∧ (∀ m ∈ [9, 4], 4 ≤ m) ∧
      h.account = some 417 ∧ (h.body.kind = .hold ∨ h.body.kind = .release) ∧ ([h].filter fun x => x.seq == h.seq) = [h] ∧
      (∀ x ∈ [h], x.search ≠ some .onOther) ∧ o.search = some (.openWait 0) ∧ o.account = some 417 ∧ bookRoom online = true ∧
      asks.exc.asks = [⟨.cluRelease, [⟨.release ⟨5, 7, 1⟩, .cluRelease, some 417, some 9, false⟩]⟩] ∧
      PlaceOpen 0 (List.range' 1 31) asks := by decide

/-! ### Witnesses: the Book Store -/

def nodeReq : Request := ⟨.number, .group [.node (.number 5)]⟩
def lists (r : Request) : State := { base with store := { base.store with list := [r] } }
def slots (xs : List Slot) (s : State) : State := { s with store := { s.store with slots := xs } }
def current (corrected : Bool) : Slot := ⟨.copy ⟨.node, 4, 6, .node {}⟩ true corrected, .current, false⟩
def dirty : Slot := ⟨.copy ⟨.account 417, 2, 6, .account (account 417 .opened 1 0)⟩ true false, .dirty, false⟩
def free : Slot := ⟨.erased, .free, false⟩

theorem witness_placePending :
    let s : State := { base with store := { base.store with list := List.replicate 7 nodeReq, pend := [nodeReq] } }
    s.store.pend = [nodeReq] ∧ s.store.list.length < 8 ∧ s.store.erasing = none ∧ (∀ c, nodeReq.owner ≠ .pool c) ∧ s.cgt.riseWaits = false :=
  ⟨rfl, by decide, rfl, fun _ h => (nomatch h), rfl⟩

theorem witness_storeTakesRequests :
    let create : List RecWrite := [.account 417 (.create 0)]
    let idle (s : State) : Prop := s.sys.phase = .running ∧ s.store.erasing = none ∧ s.store.op = none ∧ s.store.cur = none
    (idle (lists nodeReq) ∧ (lists nodeReq).store.list = [nodeReq] ∧ nodeReq.work = .group [.node (.number 5)] ∧
      reserveRefuses (slots [current false, free] (lists nodeReq)).store [.node (.number 5)] = false ∧
      (currentCount (slots [current false, free] base).store (writeKey (.node (.number 5))) = 4 ∧ 4 < 4294967295) ∧
      lowest isFree (slots [current false, free] base).store = some 1) ∧
    (reserveRefuses (slots [current false, dirty, free] base).store create = true) ∧
    (lowest isFree (slots [current false, dirty] base).store = none ∧ lowest isDirty (slots [current false, dirty] base).store = some 1) ∧
    (lowest (fun x => isDirty x && headerNames (.account 417) x) (slots [current false, dirty] base).store = some 1) ∧
    (calCount base.store < 4) ∧
    (idle (slots [dirty] base) ∧ (slots [dirty] base).store.list = [] ∧ dueRefresh (slots [dirty] base).store = []) ∧
    (let s : State := { slots [current true, free] base with store := { (slots [current true, free] base).store with refresh := [0] } }
     idle s ∧ dueRefresh s.store = [0] ∧ s.store.slots[0]? = some ⟨.copy ⟨.node, 4, 6, .node {}⟩ true true, .current, false⟩ ∧
      lowest isFree s.store = some 1 ∧ currentCount s.store .node = 4) := by
  refine ⟨⟨⟨?_, ?_, ?_, ?_⟩, ?_⟩, ?_, ?_, ?_, ?_, ⟨⟨?_, ?_, ?_, ?_⟩, ?_⟩, ⟨?_, ?_, ?_, ?_⟩, ?_⟩ <;> decide

def inProgress (r : Request) (op : StoreOp) : State :=
  { slots [current false, free] base with store := { (slots [current false, free] base).store with
    list := [r], cur := some r, listed := true, op := some op } }

theorem witness_storeOperationsEnd :
    let write := inProgress nodeReq (.write 1 ⟨.node, 5, 7, .node {}⟩ 3)
    let removal : Request := ⟨.bookRemove, .removal (.account 417)⟩
    let page : Request := ⟨.cal calPage, .calPage calPage⟩
    let back : State := { slots [dirty] base with store := { (slots [dirty] base).store with op := some (.erase 0 .background 1) } }
    write.store.erasing = none ∧ write.store.cur = some nodeReq ∧ write.store.listed = true ∧
      write.store.op = some (.write 1 ⟨.node, 5, 7, .node {}⟩ 3) ∧ nodeReq.work = .group [.node (.number 5)] ∧
      ([RecWrite.node (.number 5)] : List RecWrite)[write.store.idx]? = some (.node (.number 5)) ∧ write.store.idx + 1 = 1 ∧
      write.sys.phase = .running ∧ (inProgress removal (.erase 0 .last 1)).store.op = some (.erase 0 .last 1) ∧
      (inProgress removal (.erase 0 .last 1)).store.cur = some removal ∧ removal.work = .removal (.account 417) ∧
      (inProgress page (.calPage calPage)).store.cur = some page ∧ (inProgress page (.calPage calPage)).store.op = some (.calPage calPage) ∧
      back.store.op = some (.erase 0 .background 1) ∧ back.sys.phase = .running ∧ write.store.slots[1]? = some free ∧
      write.store.op.isSome = true ∧ currentSlot write.store .node = some 0 ∧ currentSlot write.store .node ≠ some 1 := by decide

/-! ### Witnesses: the Weighing Unit -/

/-- A calibrated scale whose window and history stand still, so that its reading is STABLE. -/
def scale : State :=
  let s := inRole .scale online
  { s with
    port := { s.port with cfg := { crates := some crates } }
    store := { s.store with pages := [{ fields := some calPage }] }
    wgu := { s.wgu with window := List.replicate 8 120100, history := List.replicate 16 10, zero := 120000 } }

def swaying : State := { scale with wgu := { scale.wgu with window := [], history := [] } }
def nearTop : State := { scale with wgu := { scale.wgu with window := List.replicate 8 1310001 } }

theorem witness_weighBegins :
    let noPlace : State := { scale with exc := { scale.exc with free := [] } }
    let here := withAccounts [account 417 .opened 0 0] swaying
    TakenBy .scale scale ∧ (readWeigh (acctField 417) 112 2 3 (writeUnsigned 5 99) 8).isSome = true ∧
      weighRefusal (inRole .scale online) = some .notCalibrated ∧ weighRefusal scale = none ∧ openPlaces noPlace.exc = 0 ∧
      weighRefusal noPlace = none ∧ weighRefusal here = none ∧ PlaceOpen 0 (List.range' 1 31) here ∧
      accountOf here 417 = some (account 417 .opened 0 0) ∧ (liveReading here).stable = false ∧ accountOf scale 417 = none ∧
      mapFind scale.exc.homeMap 417 = none ∧ (∀ e ∈ scale.exc.entries, e.account ≠ some 417) ∧ LineOpen scale := by decide

theorem witness_scaleSettings :
    let off : State := { scale with lif := base.lif }
    let draft : State := { off with wgu := { off.wgu with draft := { zero := some 100000, span := some (1300000, 100000) } } }
    TakenBy .scale scale ∧ calInForce scale.store = some calPage ∧ scale.wgu.weigh = none ∧ (liveReading scale).stable = true ∧
      (liveReading scale).average = some 120100 ∧ zeroOutOfRange calPage 120100 = false ∧ (liveReading nearTop).stable = true ∧
      (liveReading nearTop).average = some 1310001 ∧ zeroOutOfRange calPage 1310001 = true ∧ (liveReading swaying).stable = false ∧
      readWeight (writeUnsigned 7 9999999) = some 9999999 ∧ scale.port.lock = false ∧ currentAverage swaying.wgu = none ∧
      currentAverage scale.wgu = some 120100 ∧ inRange 1000 9999999 (readWeight (writeUnsigned 7 1000)) = some 1000 ∧
      scale.wgu.draft.zero = none ∧ draft.wgu.draft.zero = some 100000 ∧ 100000 + 10000 ≤ (120100 : Int) ∧
      (120100 : Int) < 110101 + 10000 ∧ off.lif.state = .offline ∧ off.port.lock = false ∧ calCount draft.store < 4 ∧
      draft.wgu.calBusy = false ∧ listRoom draft = true ∧ draft.wgu.draft.span = some (1300000, 100000) ∧
      readCalFields 100000 1300000 100000 (writeUnsigned 7 10) (writeUnsigned 7 60000) = some ⟨100000, 1300000, 100000, 10, 60000⟩ ∧
      calCount ({ off.store with pages := List.replicate 4 { fields := some calPage } } : Store) = 4 := by decide

def lotFront (r : LotReq) (ls : List Lot) : State := withLots ls { scale with wgu := { scale.wgu with lotQ := [r] } }

theorem witness_lotRequests :
    let claim : LotReq := .claim 7 3 ⟨5, 204⟩ true
    let report (sold : Bool) : LotReq := .report 7 3 ⟨5, 204⟩ true sold
    let third : Lot := { lot 204 (.claimed 7) with unsold := 2 }
    TakenBy .scale scale ∧ numOk 1 = true ∧ numOk 65535 = true ∧ lotCmdBusy scale.wgu = false ∧
      (lotFront claim []).wgu.lotHand = none ∧ (lotFront claim []).wgu.lotQ = [claim] ∧ (lotFront claim []).sys.phase = .running ∧
      (lotFront claim []).node.number = 5 ∧ findLot (lotFront claim []) 204 = none ∧ LineOpen (lotFront claim []) ∧
      findLot (lotFront claim [lot 204 .offered]) 204 = some (lot 204 .offered) ∧ ListOpen (lotFront claim [lot 204 .offered]) ∧
      findLot (lotFront claim [lot 204 (.claimed 7)]) 204 = some (lot 204 (.claimed 7)) ∧ (lot 204 (.claimed 8)).state = .claimed 8 ∧
      8 ≠ 7 ∧ (lotFront (report true) []).wgu.lotQ = [report true] ∧ (lot 204 (.claimed 7)).unsold ≤ 1 ∧ 2 ≤ third.unsold ∧
      (lot 204 .offered).state ≠ .claimed 7 ∧ (lotFront (.releaseLot 204) []).wgu.lotQ = [.releaseLot 204] ∧
      (lotFront (.reoffer 204) []).wgu.lotQ = [.reoffer 204] ∧ (lotFront (.delete 204) []).wgu.lotQ = [.delete 204] ∧
      (lot 204 .withdrawn).state = .withdrawn ∧ (lot 204 .offered).state ≠ .withdrawn := by decide

theorem witness_notClaimed : ∀ c, (lot 204 .offered).state ≠ .claimed c := fun _ h => nomatch h

theorem witness_samplesAndOffers :
    let seven : State := { scale with wgu := { scale.wgu with window := List.replicate 7 0 } }
    let settling : State := { scale with wgu := { scale.wgu with weigh := some ⟨417, 112, 2, 3, 2, 2, .settling 4 0⟩ } }
    let offers := withLots [lot 204 .offered] scale
    scale.port.role = some .scale ∧ parityGood 3 false = true ∧ parityGood 1 false = false ∧ scale.wgu.weigh = none ∧
      scale.wgu.ctr ≤ 65535 ∧ scale.wgu.window.length = 8 ∧ seven.wgu.window.length < 8 ∧ scale.wgu.reading = false ∧
      ({ scale.wgu with lossT := some 0 } : Wgu).lossT = some 0 ∧ settling.wgu.weigh = some ⟨417, 112, 2, 3, 2, 2, .settling 4 0⟩ ∧
      settling.sys.phase = .running ∧ findLot offers 204 = some (lot 204 .offered) ∧ (lot 204 .offered).offer = some 15000 ∧
      LineOpen offers ∧ noticeWaits 204 offers = false ∧ (lot 204 .offered).noRing = !clockPresent offers 2 := by decide

/-! ### Witnesses: the Clock Unit -/

def clockIn (st : ClockState) : State :=
  { clockNode with clu := { clockNode.clu with
    queue := [lotDesc], state := st, price := some 590, figs := some ⟨900, 500, 10, 200⟩, tickT := some 200 } }

theorem witness_clockRuns :
    let fig : Figures := ⟨900, 500, 10, 200⟩
    let at_ (p : Nat) : State := { clockIn .running with clu := { (clockIn .running).clu with price := some p } }
    (clockIn .idle).clu.queue = [lotDesc] ∧ TakenBy .clock (clockIn .idle) ∧ (clockIn .idle).clu.state = .idle ∧
      TakenBy .clock (clockIn .presented) ∧ (clockIn .presented).clu.state = .presented ∧
      readFigures (writeUnsigned 5 900) (writeUnsigned 5 500) (writeUnsigned 5 10) 200 = some fig ∧
      (clockIn .settling).clu.state = .settling ∧ startRefusal (inRole .clock online) = some .notConfigured ∧
      startRefusal (clockIn .presented) = none ∧ (clockIn .running).clu.state = .running ∧ (clockIn .halted).clu.state = .halted ∧
      PlaceOpen 0 (List.range' 1 31) (clockIn .presented) ∧ listRoom (clockIn .presented) = true ∧
      (clockIn .running).clu.figs = some fig ∧ (clockIn .running).clu.tickT = some 200 ∧ 199 < fig.tick ∧ fig.tick ≤ 200 ∧
      (at_ 510).clu.price = some 510 ∧ fig.floor + fig.step ≤ 510 ∧ 509 < fig.floor + fig.step ∧ (at_ 509).clu.price = some 509 ∧
      ListOpen (clockIn .running) ∧ (clockIn .running).sys.phase = .running := by decide

def inDesk (allowance : Nat) : Desk :=
  { state := .inn, buyer := some 512044, home := some 12, key := some ⟨5, 7, 9⟩, granted := 60000, allowance := allowance }
def withDesk (n : Nat) (d : Desk) (s : State) : State := { s with clu := { s.clu with desks := s.clu.desks.set (n - 1) d } }

theorem witness_desks :
    let s := withAccounts [account 512044 .opened 0 0] clockNode
    TakenBy .clock s ∧ (1 ≤ 32 ∧ 32 ≤ 32) ∧ s.clu.desks.length = 32 ∧ readBuyer (acctField 512044) = some 512044 ∧
      readHoldAmount (writeUnsigned 9 1) = some 1 ∧ (inRole .clock base).lif.state ≠ .active ∧ s.lif.state = .active ∧
      (deskAt (withDesk 32 (inDesk 0) s) 32).state ≠ .out ∧ (deskAt s 32).state = .out ∧ PlaceOpen 0 (List.range' 1 31) s ∧
      s.sys.epochState = .inUse ∧ needsAdvance s true 0 = false ∧ accountOf s 512044 = some (account 512044 .opened 0 0) ∧
      (deskAt (withDesk 1 { inDesk 0 with state := .lapsed } s) 1).state = .lapsed ∧
      ((deskAt (withDesk 1 (inDesk 0) s) 1).state = .inn ∧ (deskAt (withDesk 1 (inDesk 0) s) 1).allowance = 0) ∧
      ((deskAt (withDesk 1 { inDesk 0 with state := .asking } s) 1).state = .asking ∧
        (deskAt (withDesk 1 { inDesk 0 with state := .asking } s) 1).key.isSome = true) ∧
      0 < (deskAt (withDesk 1 (inDesk 1) s) 1).allowance ∧ (deskAt (withDesk 1 (inDesk 1) s) 1).key = some ⟨5, 7, 9⟩ ∧
      (deskAt (withDesk 1 (inDesk 1) s) 1).buyer = some 512044 ∧ (deskAt (withDesk 1 (inDesk 1) s) 1).home = some 12 := by decide

def pressed : State :=
  let s := withDesk 17 (inDesk 10942) (withDesk 5 { inDesk 8000 with state := .suspended } (clockIn .running))
  { s with clu := { s.clu with lastWin := 20, released := List.replicate 32 21 } }

theorem witness_firstPressWins :
    let bits : BitVec 32 := 0x00010010
    pressed.port.role = some .clock ∧ pressSet 0 pressed.clu.released = [] ∧ pressed.clu.state ≠ .settling ∧
      pressed.clu.cnt.presses ≤ 65535 ∧ pressed.clu.cnt.idlePresses ≤ 65535 ∧ pressed.clu.state = .running ∧
      pressed.clu.queue = [lotDesc] ∧ pressed.clu.price = some 590 ∧
      rotateFrom pressed.clu.lastWin (pressSet bits pressed.clu.released) = [5] ++ 17 :: [] ∧ pressed.clu.desks.length = 32 ∧
      (∀ x ∈ [5], (deskAt pressed x).state ≠ .inn) ∧ (deskAt pressed 17).state = .inn ∧
      chargeOf pressed lotDesc 590 ≤ (deskAt pressed 17).allowance ∧ overRange (chargeOf pressed lotDesc 590) = false ∧
      ListOpen pressed := by decide

theorem witness_clockRetries :
    let lot : LotId := ⟨15, 205⟩
    let claims : State := { clockNode with clu := { clockNode.clu with claims := [{ lot := lot, granted := some lotDesc, retry := some 0 }] } }
    let settling : State := { clockNode with clu := { clockNode.clu with settling := some { sale := saleRec 30 false, logRetry := some 0 } } }
    let sale : Sale := { entry := saleRec 30 false, redo := [⟨.posted, 0⟩], reissue := some 0 }
    let sales : State := { clockNode with clu := { clockNode.clu with sales := [sale], reqWait := [⟨30, some .draw, 0⟩] } }
    claimOf claims lot = some { lot := lot, granted := some lotDesc, retry := some 0 } ∧ ListOpen claims ∧
      ({ clockNode.clu with lotEndT := some 0 } : Clu).lotEndT = some 0 ∧
      settling.clu.settling = some { sale := saleRec 30 false, logRetry := some 0 } ∧ findSale sales 30 = some sale ∧
      sale.redo = [⟨.posted, 0⟩] ∧ sale.reissue = some 0 ∧ sale.removing = false ∧ PlaceOpen 0 (List.range' 1 31) sales ∧
      sales.clu.reqWait = [⟨30, some .draw, 0⟩] ∧ PostReady sales ∧ ListOpen sales := by decide

/-! ### Witnesses: the Ice Meter -/

def iceNode : State :=
  inRole .ice { online with port := { online.port with cfg := { tariff := some 38, gpp := some 2500 } } }

def order (on : Bool) (pulses : Nat) : OrderRec :=
  { account := 417, kg := 2500, acceptLess := true, tariff := 38, gpp := 2500, key := some ⟨5, 7, 17⟩, home := some 4
    targetPulses := some 644, targetGrams := some 1610000, augerOn := on, pulses := pulses }

def iceAt (st : OrderState) (o : OrderRec) : State :=
  { iceNode with icm := { iceNode.icm with
    state := st, order := some o, edgeMs := 5, stallT := some 0, coastT := some 0, settleT := some 0, ckPlaced := 0 } }

theorem witness_iceOrders :
    let noPlace : State := { iceNode with exc := { iceNode.exc with free := [] } }
    let low : State := { iceNode with sys := { iceNode.sys with estopLow := true } }
    TakenBy .ice iceNode ∧ readBoat (acctField 417) = some 417 ∧ readKg (writeUnsigned 4 9999) = some 9999 ∧
      (orderTerms low matches .error .eStop) = true ∧ (orderTerms iceNode matches .ok (38, 2500)) = true ∧ openPlaces noPlace.exc = 0 ∧
      PlaceOpen 0 (List.range' 1 31) iceNode ∧ accountOf iceNode 417 = none ∧ mapFind iceNode.exc.homeMap 417 = none ∧
      (∀ e ∈ iceNode.exc.entries, e.account ≠ some 417) ∧ LineOpen iceNode ∧ augerRuns (iceAt .dispensing (order true 1)) = true ∧
      iceNode.icm.state = .idle ∧ (iceAt .settling (order false 1)).icm.state = .settling ∧
      ((iceAt .dispensing (order false 1)).icm.state = .dispensing ∧ augerRuns (iceAt .dispensing (order false 1)) = false) ∧
      (iceAt .resolving (order false 0)).icm.state = .resolving ∧ (iceAt .holding (order false 0)).icm.order = some (order false 0) ∧
      iceNode.exc.asks = [] ∧ iceNode.exc.jobs = [] ∧ iceNode.exc.work = none ∧ low.sys.estopLow = true ∧
      iceNode.sys.estopLow = false ∧ online.port.role ≠ some .ice ∧ iceNode.sys.phase = .running ∧
      (iceAt .dispensing (order true 1)).icm.stallT = some 0 := by decide

theorem witness_iceIsMetered :
    let s (on : Bool) (n : Nat) : State := iceAt .dispensing (order on n)
    let closing : State := { s false 644 with icm := { (s false 644).icm with ckPlaced := 644 } }
    let last : State := { s false 644 with icm := { (s false 644).icm with order := some { order false 644 with settle := some 61180 } } }
    iceNode.port.role = some .ice ∧ 4 < 5 ∧ iceNode.icm.edgeMs < 5 ∧ 5 ≤ (s true 1).icm.edgeMs ∧ iceNode.icm.state ≠ .dispensing ∧
      (s true 1).icm.state = .dispensing ∧ (s true 1).icm.closed = false ∧ (s true 1).icm.order = some (order true 1) ∧
      ((order true 1).pulses + 1) * (order true 1).gpp ≤ 9999999 ∧ (order true 1).augerOn = true ∧
      (order true 1).targetPulses ≠ some 2 ∧ (1 + 1) % 64 ≠ 0 ∧ (order true 643).targetPulses = some (643 + 1) ∧ (643 + 1) % 64 ≠ 0 ∧
      (order false 63).augerOn = false ∧ (63 + 1) % 64 = 0 ∧ ListOpen (s false 63) ∧ ((s false 63).store.pend.any isCheckpoint) = false ∧
      (order false 644).key = some ⟨5, 7, 17⟩ ∧ (order false 644).home = some 4 ∧ PostReady last ∧
      last.icm.settleT = some 0 ∧ (last.icm.order.map (·.settle)) = some (some 61180) ∧ closing.icm.coastT = some 0 ∧
      closing.icm.ckPlaced = 644 ∧ closing.icm.closed = false := by decide

/-! ### Witnesses: the Crate Gate -/

def gateNode : State :=
  inRole .gate { online with port := { online.port with cfg := { crates := some crates } } }

def openBatch (k : BatchKind) (tags : List (Nat × Nat)) : Batch :=
  { number := 37, kind := k, account := 512044, deposits := crates.map (·.deposit), home := some 12, tags := tags
    counts := [0, 0, 1, 0, 0, 0, 0, 0] }

def gateAt (st : BatchState) (b : Batch) : State :=
  { gateNode with cgt := { gateNode.cgt with state := st, batch := some b, blocked := [299950], postT := some 0, poolT := some 0
                                             pend := [0, 0, 1, 0, 0, 0, 0, 0] } }

def tagOf (ty a b c : Byte) : List Byte := [ty, a, b, c, ty ^^^ a ^^^ b ^^^ c]

theorem witness_gateBatches :
    let s (tags : List (Nat × Nat)) : State := gateAt .opened (openBatch .issue tags)
    let noPlace : State := { gateNode with exc := { gateNode.exc with free := [] } }
    TakenBy .gate gateNode ∧ readAccountNo (acctField 512044) = some 512044 ∧ gateNode.port.cfg.crates = some crates ∧
      (inRole .gate base).lif.state ≠ .active ∧ (s []).lif.state = .active ∧ (s []).cgt.state ≠ .idle ∧ gateNode.cgt.state = .idle ∧
      openPlaces noPlace.exc = 0 ∧ gateNode.cgt.state ≠ .opened ∧ (s []).cgt.state = .opened ∧ (openBatch .issue []).tags = [] ∧
      (openBatch .issue [(1, 3)]).tags ≠ [] ∧ (openBatch .issue []).kind = .issue ∧ (openBatch .issue []).home = some 12 ∧
      PostReady (s [(1, 3)]) ∧ listRoom (s [(1, 3)]) = true ∧ (s []).exc.asks = [] ∧ (s []).exc.jobs = [] ∧
      (s []).exc.work = none := by
  decide

theorem witness_gateTags :
    let s (tags : List (Nat × Nat)) : State := gateAt .opened (openBatch .issue tags)
    let many : List (Nat × Nat) := (List.range 63).map fun i => (i + 1, 3)
    let fullList : State := { gateNode with cgt := { gateNode.cgt with blocked := List.replicate 32 9 } }
    serialOk 300112 = true ∧ 300112 ∉ (s []).cgt.blocked ∧ (s []).cgt.blocked.length < 32 ∧
      32 ≤ fullList.cgt.blocked.length ∧ 8 ∉ fullList.cgt.blocked ∧ 299950 ∈ (s []).cgt.blocked ∧
      readTag [3, 4, 0x94, 0x50, 0] = none ∧ readTag (tagOf 3 4 0x94 0x50) = some (3, 300112) ∧
      readTag (tagOf 3 4 0x93 0xAE) = some (3, 299950) ∧ (∃ p ∈ [(300112, 3)], p.1 = 300112) ∧
      (∀ p ∈ many, p.1 ≠ 300112) ∧ many.length < 64 ∧ (s []).sys.phase = .running ∧ (s []).cgt.poolT = some 0 ∧
      ((s []).cgt.pend.all (· == 0)) = false ∧ (s []).cgt.poolBusy = false ∧ (s []).cgt.riseWaits = false ∧ ListOpen (s []) ∧
      (gateAt .closing (openBatch .issue [(1, 3)])).cgt.postT = some 0 ∧
      (gateAt .closing (openBatch .issue [(1, 3)])).cgt.state = .closing ∧ PostReady (gateAt .closing (openBatch .issue [(1, 3)])) := by
  decide

/-! ### Witnesses: what the port and start-up read -/

set_option maxRecDepth 20000 in
theorem witness_frames :
    let short : RawFrame := ⟨[1, 0, 0], 0, false⟩
    let begun : RawFrame := ⟨commandBytes 1 [], 3, false⟩
    ({ pdi := [], late := true } : RawFrame).late = true ∧ short.late = false ∧ short.pdi.length < 4 ∧ begun.oddBits ≠ 0 ∧
      (∃ c n rest, [1, 250, 0, 0, 0] = c :: n :: rest ∧ rest.length < (n : Byte).toNat + 2) ∧
      ([0, 0] : List Byte) ≠ beBytes 2 (lineCheck [1, 0]).toNat ∧ base.port.buf.bytes.length ≤ 8 ∧
      base.port.buf.bytes.length ≤ (commandBytes 1 [] ++ [0, 0, 0, 0]).length ∧ ([] : List Byte).length = (0 : Byte).toNat ∧
      readCommand 1 [] = some (.nopStatus true) ∧ readCommand 52 [] = none := by
  refine ⟨?_, ?_, ?_, ?_, ⟨1, 250, [0, 0, 0], rfl, by decide⟩, ?_, ?_, ?_, ?_, ?_, ?_⟩ <;> decide

set_option maxRecDepth 20000 in
/-- Section 10.1: the frame of NOP/STATUS with the answer clocked out whole is that command. One bit wrong is CHECK, one byte short
LENGTH, and a late one TIMEOUT, whatever else is wrong with it. -/
theorem test_readFrame :
    let good := commandBytes 1 [] ++ [0, 0, 0, 0]
    readFrame base.port.buf ⟨good, 0, false⟩ = .command 1 [] ∧ readFrame base.port.buf ⟨good.set 0 2, 0, false⟩ = .fault .check ∧
      readFrame base.port.buf ⟨good.take 7, 0, false⟩ = .fault .length ∧ readFrame base.port.buf ⟨good.take 7, 0, true⟩ = .fault .timeout := by
  decide

/-- R198: the first and the last code, one between, and an argument length that the command does not allow. -/
theorem test_readCommand :
    readCommand 2 [0x0F, 0xFF] = some (.ack true 0x0FFF) ∧ readCommand 51 [0, 4, 0x94] = some (.unblock true 1172) ∧
      readCommand 1 [0] = some (.nopStatus false) ∧ readCommand 0 [] = none ∧ readCommand 52 [] = none ∧
      readCommand 35 [0, 205] = some (.releaseLot true 205) := by decide

def copyOf (k : RecKey) (b : RecBody) : Slot := ⟨.copy ⟨k, 4, 6, b⟩ true false, .current, false⟩
def holding (xs : List Slot) (s : State) : State := { s with store := { s.store with slots := xs } }

def settled (n : Nat) : SaleRec := { saleRec n false with lot := lotDesc.id, drawPart := .done, salePart := .done, reportPart := .done }
def iceRecord : OrderRec :=
  { account := 417, kg := 2500, acceptLess := true, tariff := 38, gpp := 2500, key := some ⟨5, 7, 17⟩, home := some 4, checkpoint := 64 }

theorem witness_rolesComeIntoService :
    let clock := holding [copyOf .queue (.queue [lotDesc]), copyOf (.sale 30) (.sale (settled 30))] base
    let ice := holding [copyOf .iceOrder (.iceOrder iceRecord)] base
    let settle : Entry := { entry 4 (.post default) .queued (some 4) (some 417) with ref := .settle ⟨5, 7, 17⟩ }
    let lots := holding [copyOf (.lot 204) (.lot (lot 204 .offered))] base
    (readConfig [.role 1]).map (·.role) = some (some .scale) ∧ (readConfig [.role 2]).map (·.role) = some (some .clock) ∧
      (readConfig [.role 3]).map (·.role) = some (some .ice) ∧
      .lot (lot 204 .offered) ∈ currentBodies lots.store ∧
      (∀ x ∈ [lot 204 .offered], x.number = 204 → x = lot 204 .offered) ∧
      restoredQueue clock = [lotDesc] ∧ restoredSales clock = [{ entry := settled 30 }] ∧
      (∀ e ∈ restoredSales clock, e.entry.drawPart ≠ .pending ∧ e.entry.salePart ≠ .pending ∧ e.entry.reportPart ≠ .pending ∧
        e.entry.collected = false) ∧
      soldLots (restoredQueue clock) (restoredSales clock) = [lotDesc.id] ∧
      soldLots (restoredQueue base) (restoredSales base) = [] ∧ ListOpen clock ∧ restoredOrder base = none ∧
      restoredOrder ice = some iceRecord ∧ iceRecord.key = some ⟨5, 7, 17⟩ ∧ iceRecord.home = some 4 ∧ ListOpen ice ∧
      (∃ e ∈ (withEntries [settle] ice).exc.entries, e.ref = .settle ⟨5, 7, 17⟩) ∧ PostReady ice := by
  refine ⟨?_, ?_, ?_, ?_, ?_, ?_, ?_, ?_, ?_, ?_, ?_, ?_, ?_, ?_, ?_, ?_, ⟨_, List.mem_singleton.2 rfl, rfl⟩, ?_⟩ <;> decide

theorem witness_readingsHeld :
    let s : State := inRole .ice { base with icm := { order := some iceRecord } }
    let m : State := inRole .ice { base with icm := { order := some { iceRecord with metered := true } } }
    Taken s ∧ s.icm.order = some iceRecord ∧ iceRecord.metered = false ∧ m.icm.order = some { iceRecord with metered := true } ∧
      base.icm.order = none ∧ ({ base with wgu := { base.wgu with reading := true } } : State).wgu.reading = true ∧
      (inRole .clock base).port.role = some .clock := by decide

def sent (k : PostKind) (n acct : Nat) : Posting := ⟨⟨5, 3, n⟩, k, acct, 500, [], none, none⟩
def outOf (p : Posting) (ref : Ref) (old : Option Ident) : Slot :=
  copyOf (.outbound p.id.epoch p.id.number) (.outbound ⟨p, ref, 9, old⟩)

theorem witness_handOver :
    let s : State := { base with sys := { base.sys with phase := .epochCommit, epoch := 6 } }
    let d := sent .draw 8 512044
    let two := holding [outOf d (.settle ⟨5, 3, 1⟩) none, outOf { d with id := ⟨5, 3, 9⟩ } (.settle ⟨5, 3, 1⟩) (some d.id)] s
    let tr := holding [outOf (sent .transfer 8 417) (.transfer 417) none] (withAccounts [account 417 .yielding 0 0] s)
    s.sys.phase = .epochCommit ∧ (∀ a ∈ s.book.accounts, a.state ≠ .yielding) ∧
      (outRecords two.store).map (·.posting.id) = [d.id, ⟨5, 3, 9⟩] ∧
      (outRecords two.store).map (·.replaced) = [none, some d.id] ∧ (⟨5, 3, 9⟩ : Ident) ≠ d.id ∧ ListOpen two ∧
      (outRecords (holding [outOf d (.settle ⟨5, 3, 1⟩) none] s).store).length ≤ 32 ∧
      (∀ o ∈ outRecords (holding [outOf d (.settle ⟨5, 3, 1⟩) none] s).store,
        outDropped [] (outRecords (holding [outOf d (.settle ⟨5, 3, 1⟩) none] s).store) o = false) ∧
      tr.book.accounts = [account 417 .yielding 0 0] ∧ tr.book.yields = [] ∧ outRecords s.store = [] ∧
      (outRecords tr.store) = [⟨sent .transfer 8 417, .transfer 417, 9, none⟩] ∧
      65534 ≤ greatestEpoch { slots := [⟨.copy ⟨.node, 4, 65534, .node {}⟩ true false, .dirty, false⟩], serial := 1 } := by decide

/-! ### Witnesses: the hall line, once more -/

theorem witness_lineOnceMore :
    let leaving (errors : Nat) (attempts : Nat) : State :=
      let s := sends (message .exc attempts) errors []
      { s with lif := { s.lif with leaving := true } }
    let numbering : State := { ready with lif := { ready.lif with numbering := true } }
    let reserve : State := { (fullBook online) with lif := { online.lif with reserve := List.replicate 4 default } }
    let place (n : Nat) : State := { online with lif := { online.lif with state := .announce, serial := n } }
    (leaving 14 3).lif.leaving = true ∧ sending (leaving 14 3) = some (message .exc 3) ∧ 3 ≤ (message .exc 3).attempts ∧
      (leaving 14 3).lif.cnt.consecErrors < 15 ∧ joinRefusal numbering = none ∧ numbering.lif.numbering = true ∧
      ¬ reserve.lif.reserve.length < 4 ∧ Heard false toMe reserve ∧ Heard true toAll reserve ∧ bookRoom reserve = false ∧
      readReleaseReq 9 ⟨7, 1, acctField 417⟩ = .ok ⟨⟨9, 7, 1⟩, 417⟩ ∧ readAcctField (acctField 417) = .ok 417 ∧
      Heard true toAll (fullBook (withEntries [searching false [4] 20] online)) ∧
      bookRoom (fullBook (withEntries [searching false [4] 20] online)) = false ∧
      ((Instr.opened fromMe []).header? = some fromMe ∧ fromMe.src = online.node.number ∧ headerOk true fromMe = true ∧
        online.lif.wait = [] ∧ online.wgu.weigh = none ∧ online.sys.phase = .running) ∧
      ((Instr.release ⟨5, 9, 0⟩ ⟨1, 1, []⟩).header? = some ⟨5, 9, 0⟩ ∧ headerOk false ⟨5, 9, 0⟩ = true) ∧
      (place 1).lif.state = .announce ∧ ({ base with lif := { base.lif with state := .conflict } } : State).lif.state = .conflict := by
  decide

theorem witness_finalAnswer :
    let e := entry 6 (.hold ⟨5, 7, 1⟩ 100 true 60) .sent (some 9) (some 417)
    let s := withEntries [e] online
    let a : RawAnswer := ⟨some .hold, .account (acctField 417), 5, .amount (writeUnsigned 9 100)⟩
    findEntry s toMe.seq = some e ∧ e.state = .sent ∧ ∃ c, ansCodeOf a.code = some c ∧ codeAllowed e.body c = true ∧ c ≠ .defer ∧
      c ≠ .moved ∧ c ≠ .malformed ∧ c ≠ .unknown ∧ (readAnsData a.data).isSome = true := by
  refine ⟨by decide, by decide, _, rfl, ?_⟩; decide

/-! ### Witnesses: postings, holds and yields -/

def inHand (p : Posting) (s : State) : State := { s with book := { s.book with hand := some ⟨.line 7 4, .post (.ok p)⟩ } }

theorem witness_postingKinds :
    let part : TransferPart := ⟨-5, 0, true, false, 2, [1, 0, 0, 0, 0, 0, 0, 0], [⟨⟨7, 3, 5⟩, 9, 60⟩]⟩
    let held : Hold := ⟨⟨7, 3, 5⟩, 512044, 600, 600, 1, 0⟩
    let p (k : PostKind) (items : List CrateItem) (key : Option (Nat × Nat)) : Posting := posting k 118 items key
    let a := account 512044 .opened 1000 0
    let s := withHolds [held] (inHand (p .draw [] (some (3, 5))) (buyer .opened))
    part.counts.length = 8 ∧ (part.holds.map (·.key)).Nodup ∧ (∀ c ∈ part.holds, findHold [] c.key = none) ∧
      a.unmatched ≤ 65535 ∧ (p .sale [⟨3, 2, 250⟩] none).kind = .sale ∧ (p .issue [] none).kind = .issue ∧
      (∀ i ∈ [(⟨3, 5, 250⟩ : CrateItem)], i.count ≤ crateCount a.crates i.ctype) ∧
      (∃ i ∈ [(⟨3, 6, 250⟩ : CrateItem)], crateCount a.crates i.ctype < i.count) ∧ (p .draw [] (some (3, 5))).holdKey = some (3, 5) ∧
      findHold s.book.holds ⟨7, 3, 5⟩ = some held ∧ findHold (buyer .opened).book.holds ⟨7, 3, 5⟩ = none ∧ LineOpen s ∧
      s.book.hand = some ⟨.line 7 4, .post (.ok (p .draw [] (some (3, 5))))⟩ ∧
      (adoptHolds 512044 part.holds (List.replicate 24 { held with key := ⟨7, 3, 6⟩ })).2 = 1 := by
  refine ⟨?_, ?_, ?_, ?_, ?_, ?_, ?_, ⟨_, List.mem_singleton.2 rfl, by decide⟩, ?_, ?_, ?_, ?_, ?_, ?_⟩ <;> decide

theorem witness_holdOfAnother :
    let h : HoldReq := ⟨⟨7, 3, 5⟩, 512044, 1000, true, 14400⟩
    let s := withHolds [⟨⟨7, 3, 5⟩, 417, 9, 9, 1, 0⟩]
      (withAccounts [account 417 .yielding 0 0, account 512044 .opened 1000 0] online)
    (∀ held, findHold s.book.holds h.key = some held → isOpen s held.account = false) ∧ (findHold s.book.holds h.key).isSome = true ∧
      accountOf s h.account = some (account 512044 .opened 1000 0) ∧ s.book.holds.length < 24 ∧
      grantAmount s.book.holds (account 512044 .opened 1000 0) h.amount h.acceptLess = some (1000, .granted) := by
  refine ⟨fun held hh => ?_, by decide, by decide, by decide, by decide⟩
  have hc := Option.some.inj hh
  subst hc
  decide

theorem witness_yields :
    let s := withAccounts [account 417 .opened 0 0] online
    let p := sent .transfer 8 417
    let y (st : YieldStage) : State := { s with book := { s.book with yields := [⟨417, 4, st⟩] } }
    let asked : State := { y .asking with exc := { s.exc with work := some (.create (transferReq 417 4) [p]), free := 0 :: List.range' 1 31 } }
    let e : Entry := { entry 3 (.post p) .sent (some 4) (some 417) with ref := .transfer 417 }
    accountOf s 417 = some (account 417 .opened 0 0) ∧ PostReady s ∧ ListOpen s ∧
      asked.exc.work = some (.create (transferReq 417 4) [p]) ∧ asked.exc.free = 0 :: List.range' 1 31 ∧ asked.exc.jobs = [] ∧ p.account = 417 ∧
      yieldOf asked 417 = some ⟨417, 4, .asking⟩ ∧ asked.node.epoch = asked.sys.epoch ∧ asked.exc.entries = [] ∧
      yieldOf (y .running) 417 = some ⟨417, 4, .running⟩ ∧ e.ref = .transfer 417 ∧ e.body = .post p ∧
      findEntry (y .running) e.seq = none ∧ yieldOf (y (.finishing (.moved 4) false)) 417 = some ⟨417, 4, .finishing (.moved 4) false⟩ ∧
      accountOf (y (.finishing .opened true)) 417 = some (account 417 .opened 0 0) ∧ LineOpen (y (.finishing .opened true)) := by decide

theorem witness_commandsEnd :
    let s := withAccounts [account 417 .opened 0 0] online
    let hand (ask : BookAsk) (s : State) : State := { s with book := { s.book with hand := some ⟨.port, ask⟩ } }
    (hand (.cmdOpen 512044 5) s).book.hand = some ⟨.port, .cmdOpen 512044 5⟩ ∧ accountOf s 512044 = none ∧
      LineOpen (hand (.cmdOpen 512044 5) s) ∧ (hand (.cmdRemove 417) s).book.hand = some ⟨.port, .cmdRemove 417⟩ ∧
      (hand (.cmdAdjust 417 (-5)) s).book.hand = some ⟨.port, .cmdAdjust 417 (-5)⟩ ∧
      (hand (.cmdClear 417) s).book.hand = some ⟨.port, .cmdClear 417⟩ ∧ (accountOf s 417).isSome = true := by decide

theorem witness_localOpening :
    let o : Entry := { entry 6 .locate .unresolved none (some 417) with ref := .weighLocate, search := some .opening, openIfNone := true }
    let s : State := bookFront ⟨.own 6, .localOpen 6 417⟩ (withEntries [o] { (inRole .scale base) with wgu := { base.wgu with
      weigh := some ⟨417, 112, 2, 3, 2, 2, .resolving (some 6)⟩ } })
    let full : State := { withEntries [entry 6 (.release ⟨5, 7, 1⟩) .queued (some 9) (some 417)] online with
      lif := { online.lif with queue := List.replicate 24 default } }
    findEntry s 6 = some o ∧ o.search = some .opening ∧ BookFront ⟨.own 6, .localOpen 6 417⟩ [] s ∧ accountOf s 417 = none ∧
      s.lif.state ≠ .active ∧ o.body = .locate ∧ o.ref = .weighLocate ∧ s.port.role = some .scale ∧
      s.wgu.weigh = some ⟨417, 112, 2, 3, 2, 2, .resolving (some 6)⟩ ∧ s.sys.phase = .running ∧
      (s.exc.entries.filter fun x => x.seq == o.seq) = [o] ∧ (∀ x ∈ s.exc.entries, x.search ≠ some .onOther) ∧
      (accountOf (withAccounts [account 417 .yielding 0 0] s) 417).map (·.state) = some .yielding ∧
      full.lif.state = .active ∧ sendRoom full = false := by decide

/-! ### Witnesses: the outcomes at the units -/

/-- An entry of a posting whose outcome goes to its unit. -/
def ended (q : Nat) (ref : Ref) (p : Posting) (st : EntryState) : Entry := { entry q (.post p) st (some 9) (some p.account) with ref := ref }

theorem witness_capture :
    let g (st : WeighStage) : Weigh := ⟨417, 112, 2, 3, 2, 2, st⟩
    let at_ (st : WeighStage) (s : State) : State := { s with wgu := { s.wgu with weigh := some (g st) } }
    let e : Entry := { entry 6 .locate .unresolved none (some 417) with ref := .weighLocate }
    let heavy : State := { scale with wgu := { scale.wgu with window := List.replicate 8 900000 } }
    let light : State := { scale with wgu := { scale.wgu with window := List.replicate 8 60000 } }
    let full : State := { scale with wgu := { scale.wgu with window := List.replicate 8 613800 } }
    let brim : State := { scale with wgu := { scale.wgu with window := List.replicate 8 840600 } }
    let clocked : State := { at_ (.recording 4 41150 1850 39300 204) full with lif := { full.lif with peers := [⟨7, some .clock, 2, 0⟩] } }
    e.ref = .weighLocate ∧ (g (.resolving (some 6))).stage = .resolving (some e.seq) ∧ scale.port.role = some .scale ∧
      (at_ (.resolving (some 6)) full).wgu.weigh = some (g (.resolving (some 6))) ∧ full.sys.phase = .running ∧
      (liveReading swaying).stable = false ∧ calInForce full.store = some calPage ∧ (liveReading full).stable = true ∧
      (liveReading full).gross = some 41150 ∧ (liveReading full).tooHeavy = false ∧ (liveReading heavy).tooHeavy = true ∧
      (liveReading heavy).stable = true ∧ (liveReading light).gross = some (-5000) ∧ (liveReading light).tooHeavy = false ∧
      (calPage.division : Int) ≤ 41150 - tareToDivision calPage (tareInForce full) ∧
      41150 - tareToDivision calPage (tareInForce full) ≤ (calPage.capacity : Int) ∧ ListOpen full ∧
      (liveReading brim).gross = some 60050 ∧ (liveReading brim).stable = true ∧ (liveReading brim).tooHeavy = false ∧
      (calPage.capacity : Int) < 60050 - tareToDivision calPage (tareInForce brim) ∧
      clocked.wgu.weigh = some (g (.recording 4 41150 1850 39300 204)) ∧ LineOpen clocked ∧ clockPresent clocked 2 = true ∧
      clockPresent full 2 = false := by decide

theorem witness_lotHand :
    let claim : LotReq := .claim 7 3 ⟨5, 204⟩ true
    let l := lot 204 (.claimed 7)
    let s (r : LotReq) : State := withLots [lot 204 .offered, l] { scale with wgu := { scale.wgu with lotHand := some r } }
    (s claim).wgu.lotHand = some claim ∧ (s claim).sys.phase = .running ∧ findLot (s claim) 204 = some (lot 204 .offered) ∧ LineOpen (s claim) ∧
      (lot 204 .offered).unsold ≤ 1 ∧ (s claim).lif.queue.length + (s claim).lif.wait.length < 23 ∧
      (lot 204 .offered).noRing = !clockPresent (s claim) 2 ∧ 2 ≤ ({ l with unsold := 2 } : Lot).unsold ∧ l.state = .claimed 7 ∧
      isLotCmd claim = false ∧ (s (.delete 204)).wgu.lotHand = some (.delete 204) := by decide

theorem witness_deskOutcome :
    let e : Entry := { entry 6 (.hold ⟨5, 7, 9⟩ 100 true 14400) .doneToUnit (some 12) (some 512044) with ref := .deskHold 32 }
    let s := withDesk 32 { inDesk 0 with state := .asking } clockNode
    e.ref = .deskHold 32 ∧ e.body = .hold ⟨5, 7, 9⟩ 100 true 14400 ∧ e.account = some 512044 ∧ e.dest = some 12 ∧
      (deskAt s 32).state = .asking ∧ (deskAt s 32).key = some ⟨5, 7, 9⟩ ∧ PlaceOpen 0 (List.range' 1 31) s ∧
      ¬((deskAt clockNode 32).state = .asking ∧ (deskAt clockNode 32).key = some ⟨5, 7, 9⟩) := by decide

theorem witness_notCovered :
    let s := withDesk 5 (inDesk 8000) pressed
    let none_ := withDesk 17 (inDesk 8000) s
    rotateFrom s.clu.lastWin (pressSet 0x00010010 s.clu.released) = [5] ++ 17 :: [] ∧ (deskAt s 5).state = .inn ∧
      (∀ x ∈ [5], (deskAt s x).state = .inn → (deskAt s x).allowance < chargeOf s lotDesc 590) ∧
      chargeOf s lotDesc 590 ≤ (deskAt s 17).allowance ∧ s.clu.cnt.refusedStops + 1 ≤ 65535 ∧
      (∀ x ∈ pressSet 0x00010010 none_.clu.released, (deskAt none_ x).state = .inn →
        (deskAt none_ x).allowance < chargeOf none_ lotDesc 590 ∨ overRange (chargeOf none_ lotDesc 590) = true) := by decide

theorem witness_clockOutcomes :
    let lot : LotId := ⟨15, 205⟩
    let onClu (c : Clu) : State := { clockNode with clu := c }
    let claims := onClu { clockNode.clu with claims := [{ lot := lot, granted := some lotDesc }] }
    let r : SaleRec := { saleRec 30 false with drawPart := .pending, salePart := .pending, reportPart := .pending }
    let x : Sale := { entry := r }
    let s := withDesk 3 { inDesk 500 with key := some ⟨5, 7, 2⟩ } (onClu { clockNode.clu with sales := [x] })
    let over_ : Sale := { entry := { r with collected := true, drawPart := .done, salePart := .done, reportPart := .failed } }
    let draw : Posting := ⟨⟨5, 7, 8⟩, .draw, 512044, 500, [], some (7, 2), none⟩
    let sale : Posting := ⟨⟨5, 7, 9⟩, .sale, 417, 500, [], none, none⟩
    let y := ended 4 (.salePart 30 .sale) sale .doneToUnit
    clockNode.port.role = some .clock ∧ clockNode.sys.phase = .running ∧
      claimOf claims lot = some { lot := lot, granted := some lotDesc } ∧ ListOpen claims ∧
      (∀ k a less life, (ReqBody.claim lot) ≠ .hold k a less life) ∧ ({ clockNode with exc := { clockNode.exc with free := [0, 1] } } : State).exc.free.length < 3 ∧
      findSale s 30 = some x ∧ x.removing = false ∧ ListOpen s ∧ (partToBe x .draw = .pending ∧ partToBe x .sale = .pending ∧ partToBe x .report = .pending) ∧
      draw.kind = .draw ∧ postHoldKey draw = some ⟨5, 7, 2⟩ ∧ deskWithKey s ⟨5, 7, 2⟩ = some 3 ∧ (deskAt s 3).state = .inn ∧
      (deskAt s 3).home.isSome = true ∧ s.clu.desks.length = 32 ∧ x.entry.collected = false ∧ Ended y sale (withEntries [y] s) ∧
      (over_.entry.collected = true ∧ over_.entry.drawPart ≠ .pending ∧ over_.entry.salePart ≠ .pending ∧ over_.entry.reportPart ≠ .pending) ∧
      (∀ q ∈ s.exc.asks, q.ref ≠ .saleReissue 30) ∧ s.exc.jobs = [] ∧ s.exc.work = none := by
  refine ⟨?_, ?_, ?_, ?_, ?_, ?_, ?_, ?_, ?_, ?_, ?_, ?_, ?_, ?_, ?_, ?_, ?_, ?_, ?_, ?_, ?_, ?_⟩ <;> first | decide | (intro _ _ _ _ h; cases h)

theorem witness_iceOutcomes :
    let e : Entry := { entry 6 (.hold ⟨5, 7, 17⟩ 95000 true 600) .doneToUnit (some 4) (some 417) with ref := .orderHold }
    let p : Posting := ⟨⟨5, 7, 8⟩, .settle, 417, 61180, [], some (7, 17), none⟩
    let x := ended 4 (.settle ⟨5, 7, 17⟩) p .doneToUnit
    let f := ended 4 (.settle ⟨5, 7, 17⟩) p .failed
    let s := iceAt .settling (order false 644)
    (iceAt .holding (order false 0)).icm.state = .holding ∧ (order false 0).key = some ⟨5, 7, 17⟩ ∧ (order false 0).home = some 4 ∧ e.ref = .orderHold ∧
      e.account = some 417 ∧ e.dest = some 4 ∧ targetPulses 61230 38 2500 ≠ 0 ∧ targetPulses 94 38 2500 = 0 ∧
      ListOpen (iceAt .holding (order false 0)) ∧ PlaceOpen 0 (List.range' 1 31) (iceAt .holding (order false 0)) ∧
      Ended x p (withEntries [x] s) ∧ s.icm.state = .settling ∧ s.icm.restoring = false ∧ s.icm.order = some (order false 644) ∧
      findEntry (withEntries [f] s) 4 = some f ∧ f.state = .failed ∧ (order true 63).augerOn = true ∧
      (order true 63).targetPulses ≠ some 64 ∧ ((order true 63).pulses + 1) % 64 = 0 ∧
      ({ order true 63 with targetPulses := some 64 } : OrderRec).targetPulses = some (63 + 1) := by decide

theorem witness_batchOutcomes :
    let b := openBatch .issue []
    let p (k : PostKind) : Posting := ⟨⟨5, 7, 8⟩, k, 512044, 500, [⟨3, 1, 250⟩], none, none⟩
    let x (k : PostKind) := ended 4 (.batchPost 7 37) (p k) .doneToUnit
    let f := ended 4 (.batchPost 7 37) (p .issue) .failed
    let node (st : BatchState) : State := { gateNode with cgt := { gateNode.cgt with
      state := st, batch := some b, startEpoch := 7, pend := List.replicate 8 0 } }
    (node .resolving).cgt.state = .resolving ∧ (node .resolving).cgt.batch = some b ∧ (node .posting).cgt.startEpoch = 7 ∧
      gateNode.port.role = some .gate ∧ Ended (x .ret) (p .ret) (withEntries [x .ret] (node .posting)) ∧
      Ended (x .issue) (p .issue) (withEntries [x .issue] (node .posting)) ∧ (node .posting).cgt.poolBusy = false ∧
      (node .posting).cgt.poolT = none ∧ (∃ n ∈ itemCounts (p .issue).items, n ≠ 0) ∧ (itemCounts (p .issue).items).length = 8 ∧
      (node .posting).store.list.length + (node .posting).store.pend.length < 7 ∧ findEntry (withEntries [f] (node .posting)) 4 = some f ∧
      (node .opened).cgt.state ≠ .posting := by decide

/-! ### Witnesses: the clauses on refusals, failures and what follows -/

theorem witness_moreReads :
    (inRole .scale base).port.role = some .scale ∧ (inRole .clock base).port.role = some .clock ∧
      (inRole .ice base).port.role = some .ice ∧ (inRole .gate base).port.role = some .gate ∧ Taken (inRole .ice base) ∧
      (inRole .ice base).port.role.isSome = true ∧ (inRole .ice base).port.role ≠ some .clock := by decide

theorem witness_answersFollowed :
    let ans (k : ReqKind) (code : Nat) (d : RawData) : RawAnswer := ⟨k, .account (acctField 417), code, d⟩
    let hold := { entry 6 (.hold ⟨5, 7, 1⟩ 100 true 60) .sent (some 9) (some 417) with fromMap := true }
    let post (k : PostKind) (st : EntryState) := ended 6 (.salePart 30 .sale) ⟨⟨5, 7, 8⟩, k, 417, 500, [], none, none⟩ st
    let late := { hold with moves := 8, deferrals := 20 }
    let stub (st : AcctState) := withAccounts [account 417 st 0 0] (withEntries [hold] online)
    ansCodeOf (ans .hold 12 (.newHome 4)).code = some .moved ∧ readAnsData (.newHome 4) = some (.newHome 4) ∧
      ansDataFits .hold .moved (.newHome 4) = true ∧ codeAllowed hold.body .moved = true ∧ awaits hold = true ∧
      hold.state ≠ .failed ∧ hold.moves < 8 ∧ 8 ≤ late.moves ∧ 20 ≤ late.deferrals ∧ hold.account = some 417 ∧ hold.body.isPost = false ∧
      codeAllowed (post .sale .sent).body .moved = true ∧ awaits (post .sale .sent) = true ∧
      (post .sale .sent).body = .post ⟨⟨5, 7, 8⟩, .sale, 417, 500, [], none, none⟩ ∧ CommitReady online ∧ ListOpen online ∧
      ansCodeOf 13 = some .malformed ∧ codeAllowed hold.body .malformed = true ∧ ansDataFits .hold .malformed .none = true ∧
      ansCodeOf 10 = some .unknown ∧ codeAllowed hold.body .unknown = true ∧ hold.fromMap = true ∧
      codeAllowed (post .sale .sent).body .unknown = true ∧ PostKind.sale ≠ .transfer ∧
      ((post .transfer .sent).body = .post ⟨⟨5, 7, 8⟩, .transfer, 417, 500, [], none, none⟩) ∧
      (accountOf (stub .opened) 417).map (·.state) = some .opened ∧ accountOf (withEntries [hold] online) 417 = none ∧
      sendRoom (withEntries [hold] online) = true ∧ (∀ x ∈ (withEntries [hold] online).exc.entries, x.state ≠ .unresolved) ∧
      awaits (post .sale .failed) = true ∧ (post .sale .failed).state = .failed ∧
      codeAllowed (post .sale .failed).body .defer = true := by decide

theorem witness_reidentified :
    let p : Posting := ⟨⟨5, 3, 8⟩, .sale, 417, 500, [], none, none⟩
    let e : Entry := { ended 6 (.salePart 30 .sale) p .queued with committing := true }
    let s : State := { withEntries [e] online with exc := { (withEntries [e] online).exc with work := some (.reident 6 ⟨5, 7, 1⟩) } }
    let f : Entry := { e with state := .failed, committing := false, reident := some 9 }
    s.exc.work = some (.reident e.seq ⟨5, 7, 1⟩) ∧ s.exc.jobs = [] ∧ findEntry s e.seq = some e ∧ e.body = .post p ∧
      s.sys.phase = .running ∧ unitInService s e.ref = false ∧ s.node.epoch = s.sys.epoch ∧ s.node.nextPosting ≤ 65535 ∧
      ListOpen s ∧ failedPost (withEntries [f] base) 6 = some f ∧ f.account = some 417 ∧ f.reident = some 9 ∧
      CommitReady (withEntries [f] base) ∧ ListOpen (withEntries [f] base) := by decide

theorem witness_storeRefuses :
    let full : State := slots [⟨.copy ⟨.node, 4294967295, 6, .node {}⟩ true false, .current, false⟩, free] (lists nodeReq)
    let none_ : State := slots [current false] (lists nodeReq)
    let removal (xs : List Slot) : State := slots xs (lists ⟨.bookRemove, .removal .node⟩)
    reserveRefuses full.store [.node (.number 5)] = false ∧
      4294967295 ≤ currentCount full.store (writeKey (.node (.number 5))) ∧ reserveRefuses none_.store [.node (.number 5)] = false ∧
      lowest isFree none_.store = none ∧ lowest isDirty none_.store = none ∧
      lowest (fun x => isDirty x && headerNames .node x) (removal [current false]).store = none ∧
      currentSlot (removal [current false]).store .node = some 0 ∧ currentSlot (removal [free]).store .node = none := by decide

theorem witness_storeAttemptsFail :
    let op (n : Nat) (xs : List Slot) : State :=
      { slots xs base with store := { (slots xs base).store with
        list := [nodeReq], cur := some nodeReq, listed := true, op := some (.write 1 ⟨.node, 5, 7, .node {}⟩ n) } }
    let failed (s : State) : Store := { s.store with slots := s.store.slots.modify 1 fun x => { x with state := .retired, retired := true } }
    let removal : Request := ⟨.bookRemove, .removal (.account 417)⟩
    let older (xs : List Slot) : State := { slots xs base with store := { (slots xs base).store with
      list := [removal], cur := some removal, listed := true, op := some (.erase 0 .older 1) } }
    let last : Slot := ⟨.copy ⟨.account 417, 3, 6, .account (account 417 .opened 1 0)⟩ true false, .current, false⟩
    let gone (s : State) : Store := { s.store with slots := s.store.slots.modify 0 fun x => { x with data := .erased, state := .free } }
    (op 2 [current false, free, free]).store.op = some (.write 1 ⟨.node, 5, 7, .node {}⟩ 2) ∧ 2 < 3 ∧ 3 ≤ 3 ∧
      currentCount (failed (op 2 [current false, free, free])) (writeKey (.node (.number 5))) < 4294967295 ∧
      lowest isFree (failed (op 2 [current false, free, free])) = some 2 ∧
      lowest isFree (failed (op 2 [current false, free, dirty])) = none ∧
      lowest isDirty (failed (op 2 [current false, free, dirty])) = some 2 ∧
      lowest isFree (failed (op 2 [current false, free])) = none ∧ lowest isDirty (failed (op 2 [current false, free])) = none ∧
      (older [dirty, dirty]).store.op = some (.erase 0 .older 1) ∧
      lowest (fun x => isDirty x && headerNames (.account 417) x) (gone (older [dirty, dirty])) = some 1 ∧
      lowest (fun x => isDirty x && headerNames (.account 417) x) (gone (older [dirty, last])) = none ∧
      currentSlot (gone (older [dirty, last])) (.account 417) = some 1 := by decide

theorem witness_weighRefused :
    let noCrates : State := { scale with port := { scale.port with cfg := {} } }
    let off : State := { scale with lif := base.lif }
    let busy : State := { scale with wgu := { scale.wgu with weigh := some ⟨417, 112, 2, 3, 2, 2, .resolving none⟩ } }
    let many : State := withLots ((List.range 16).map fun n => lot (n + 1) .offered) scale
    calInForce (inRole .scale online).store = none ∧ (calInForce scale.store).isSome = true ∧ noCrates.port.cfg.crates = none ∧
      scale.port.cfg.crates.isSome = true ∧ off.lif.state ≠ .active ∧ scale.lif.state = .active ∧ busy.wgu.weigh.isSome = true ∧
      scale.wgu.weigh = none ∧ 16 ≤ many.wgu.lots.length ∧ many.wgu.weigh = none ∧ scale.wgu.lots.length < 16 ∧
      readWeigh (acctField 417) 1000 2 3 (writeUnsigned 5 99) 8 = none ∧ calPage.zero < calPage.span ∧
      readWeight (writeUnsigned 7 60000) = some 60000 ∧ off.port.lock = false ∧ off.lif.state = .offline ∧ scale.lif.state ≠ .offline ∧
      off.wgu.draft.zero = none ∧ calCount off.store < 4 ∧
      readCalFields 100000 1300000 100000 (writeUnsigned 7 7) (writeUnsigned 7 60000) = none ∧
      ({ off with wgu := { off.wgu with calBusy := true } } : State).wgu.calBusy = true := by decide

set_option maxRecDepth 20000 in
theorem witness_settlingExamines :
    let g : Weigh := ⟨417, 112, 2, 3, 2, 2, .settling 4 1000⟩
    let s : State := { scale with wgu := { scale.wgu with weigh := some g, window := List.replicate 8 613800, history := List.replicate 16 41150 } }
    s.wgu.weigh = some g ∧ g.stage = .settling 4 1000 ∧ s.sys.phase = .running ∧ calInForce s.store = some calPage ∧ ListOpen s ∧
      parityGood 613800 (parityGood 613800 true) = true ∧
      ∃ t, exec (.sampleFrame 613800 (parityGood 613800 true) true) s = .next t ∧ (liveReading t).stable = true ∧
        (liveReading t).gross = some 41150 ∧ (liveReading t).tooHeavy = false ∧
        (calPage.division : Int) ≤ 41150 - tareToDivision calPage (tareInForce s) ∧
        41150 - tareToDivision calPage (tareInForce s) ≤ (calPage.capacity : Int) :=
  ⟨rfl, rfl, rfl, rfl, by decide, by decide, _, rfl, by decide, by decide, by decide, by decide, by decide⟩

theorem witness_clockRefuses :
    let full : State := { clockIn .presented with clu := { (clockIn .presented).clu with
      sales := (List.range 32).map fun n => { entry := saleRec (n + 1) false } } }
    headLot clockNode = none ∧ clockNode.clu.state = .idle ∧ (clockIn .noSale).clu.state = .noSale ∧
      (clockIn .running).clu.state ≠ .idle ∧ readFigures (writeUnsigned 5 900) (writeUnsigned 5 901) (writeUnsigned 5 10) 200 = none ∧
      (inRole .clock online).port.cfg.levy = none ∧ (clockIn .presented).port.cfg.levy.isSome = true ∧
      (clockIn .presented).port.cfg.crates.isSome = true ∧ (clockIn .presented).lif.state = .active ∧
      32 ≤ full.clu.sales.length ∧ (clockIn .presented).clu.sales.length < 32 ∧ headLot (clockIn .presented) = some lotDesc := by decide

theorem witness_queueIsCleaned :
    let c : Cleaning := { lot := lotDesc.id, retry := some 0 }
    let s : State := { clockNode with clu := { clockNode.clu with queue := [lotDesc], cleaning := [c] } }
    claimOf s lotDesc.id = none ∧ c ∈ s.clu.cleaning ∧ ListOpen s ∧ headLot s = none ∧
      (∀ x ∈ clockNode.clu.cleaning, x.lot ≠ lotDesc.id) := by decide

theorem witness_iceRefuses :
    let off : State := { iceNode with lif := base.lif }
    readBoat (acctField 0) = none ∧ (inRole .ice online).port.cfg.tariff = none ∧ iceNode.port.cfg.tariff = some 38 ∧
      iceNode.port.cfg.gpp = some 2500 ∧ off.lif.state ≠ .active ∧ iceNode.lif.state = .active ∧
      (iceAt .settling (order false 1)).icm.state ≠ .idle ∧ iceNode.icm.state = .idle ∧ iceNode.sys.estopLow = false := by decide

theorem witness_settleIsCreated :
    let o := order false 644
    let k : Ident := ⟨5, 7, 17⟩
    let p : Posting := ⟨⟨5, 7, 1⟩, .settle, 417, 61180, [], some (7, 17), none⟩
    let s (st : OrderState) : State :=
      let t := iceAt st { o with settle := some 61180 }
      { t with exc := { t.exc with work := some (.create (settleReq { o with settle := some 61180 } 61180 k) [p]) } }
    let exhausted : State := { iceAt .dispensing { o with settle := some 61180 } with sys := { base.sys with epochState := .exhausted } }
    let noPlace : State := { iceAt .dispensing { o with settle := some 61180 } with exc := { base.exc with free := [] } }
    9999999 < ((order true 4000).pulses + 1) * (order true 4000).gpp ∧ (s .dispensing).icm.restoring = false ∧
      (s .dispensing).exc.jobs = [] ∧ (s .dispensing).exc.free = 0 :: List.range' 1 31 ∧ (s .dispensing).icm.state = .dispensing ∧
      (s .dispensing).node.epoch = (s .dispensing).sys.epoch ∧ (s .dispensing).node.nextPosting ≤ 65535 ∧ ListOpen (s .dispensing) ∧
      exhausted.icm.settleT = some 0 ∧ exhausted.exc.free ≠ [] ∧ exhausted.exc.work = none ∧
      exhausted.sys.epochState = .exhausted ∧ ListOpen exhausted ∧ noPlace.exc.free = [] ∧ noPlace.icm.settleT = some 0 ∧
      (iceAt .dispensing o).icm.ckPlaced ≠ o.pulses ∧ (iceAt .dispensing o).icm.coastT = some 0 ∧
      (iceAt .dispensing o).icm.closed = false ∧ ((iceAt .dispensing o).store.pend.any isCheckpoint) = false ∧
      (iceAt .dispensing o).store.list.length + (iceAt .dispensing o).store.pend.length < 7 ∧ PostReady (iceAt .dispensing o) := by decide

theorem witness_gateOpensAndCloses :
    let s (tags : List (Nat × Nat)) : State := gateAt .opened (openBatch .ret tags)
    let still : State := { s [(1, 3)] with cgt := { (s [(1, 3)]).cgt with poolT := none, pend := List.replicate 8 0 } }
    let busy : State := { still with cgt := { still.cgt with poolBusy := true } }
    let many : List (Nat × Nat) := (List.range 64).map fun i => (i + 1, 3)
    let home := withAccounts [account 512044 .opened 0 0] gateNode
    PlaceOpen 0 (List.range' 1 31) gateNode ∧ (accountOf home 512044).map (·.state) = some .opened ∧ accountOf gateNode 512044 = none ∧
      mapFind gateNode.exc.homeMap 512044 = none ∧ (∀ e ∈ gateNode.exc.entries, e.account ≠ some 512044) ∧ LineOpen gateNode ∧
      (openBatch .ret [(1, 3)]).counts.length = 8 ∧ (∃ n ∈ (openBatch .ret [(1, 3)]).counts, n ≠ 0) ∧ still.cgt.poolT = none ∧
      (openBatch .ret [(1, 3)]).amount = none ∧ still.cgt.poolBusy = false ∧ still.cgt.pend = List.replicate 8 0 ∧ PostReady still ∧
      still.store.list.length + still.store.pend.length < 7 ∧ busy.cgt.poolBusy = true ∧
      (List.zipWith (fun (c : Int) (n : Nat) => c + n) busy.cgt.pend (openBatch .ret [(1, 3)]).counts).all (· == 0) = false ∧
      64 ≤ many.length ∧ (∀ p ∈ many, p.1 ≠ 300112) ∧ 300112 ∉ still.cgt.blocked ∧ gateNode.cgt.state ≠ .opened ∧
      (readTag (tagOf 3 4 0x94 0x50)).isSome = true := by decide

/-! ### Witnesses: the clauses on refusals, drops, late outcomes and the erasure -/

theorem witness_configureFixed :
    let number : Cfg := { nodeNumber := some 6 }
    let role : Cfg := { role := some .clock }
    readConfig [.nodeNumber 6] = some number ∧ numberFixed base number = true ∧ readConfig [.role 2] = some role ∧
      numberFixed (inRole .gate base) role = false ∧ roleFixed (inRole .gate base) role = true := by decide

theorem witness_dropped :
    let jm : Msg := { newMsg .notice 0 0 (.join (some .ice) 2 1 7) .lif 0 with attempts := 3, stamp := 2, seq := 4 }
    let joining : State := { sends jm 3 [] with lif := { (sends jm 3 []).lif with state := .announce } }
    let m := message .exc 3
    let e (n : Nat) : Entry := { entry 4 (.release ⟨5, 7, 1⟩) .sent (some 9) (some 417) with sends := n }
    let l : Entry := { searching true [9] 0 with seq := 4, search := some (.placing true [9] none) }
    let f : Entry := { ended 4 (.salePart 30 .sale) ⟨⟨5, 7, 8⟩, .sale, 417, 500, [], none, none⟩ .sent with sends := 4 }
    sending joining = some jm ∧ joining.lif.cnt.consecErrors < 15 ∧ 3 ≤ jm.attempts ∧ joining.lif.state = .announce ∧
      joining.lif.leaving = false ∧ joining.lif.wait = [] ∧ joining.wgu.weigh = none ∧ sending (sends m 3 [e 3]) = some m ∧
      findEntry (sends m 3 [e 3]) m.seq = some (e 3) ∧ (e 3).seq = m.seq ∧ (e 3).tok = m.tok ∧ (e 3).state = .sent ∧
      (e 3).dest = some 9 ∧ 9 ≠ (sends m 3 [e 3]).node.number ∧ (e 3).sends < 4 ∧ 4 ≤ (e 4).sends ∧ (e 4).isPost = false ∧
      l.state = .unresolved ∧ l.search = some (.placing true [9] none) ∧ l.tok = m.tok ∧ 4 ≤ f.sends ∧
      unitInService (sends m 3 [f]) f.ref = false ∧ LineOpen { online with lif := { online.lif with queue := [] } } := by decide

theorem witness_reserveFull :
    let m := newMsg .answer 9 6 (.answer .hold (.account 417) .defer (.wait 5)) .lif 0
    ¬ ({ online with lif := { online.lif with reserve := List.replicate 4 m } } : State).lif.reserve.length < 4 := by decide

theorem witness_bookRefuses :
    Taken busyBook ∧ bookCmdBusy busyBook = true ∧ isBuyer 512044 = true ∧ readAmount (writeUnsigned 9 5) = some 5 ∧
      readAmount [0xFF] = none ∧ readBalance (writeSigned (-5)) = some (-5) ∧ readBalance [0xFF] = none ∧
      online.port.cfg.boatFloor = none ∧ accountOf online 417 = none ∧ isBoat 417 = true ∧
      BookFront ⟨.own 6, .localOpen 6 417⟩ [] (bookFront ⟨.own 6, .localOpen 6 417⟩ online) ∧
      ({ online with book := { online.book with hand := some ⟨.own 6, .localOpen 6 417⟩ } } : State).book.hand =
        some ⟨.own 6, .localOpen 6 417⟩ := by decide

theorem witness_searchesShared :
    let w (tens : Option Nat) (homes : List Nat) (n : Nat) : Entry :=
      { searching true homes 0 with search := some (.window true homes tens 0), deferrals := n }
    let x : Entry := { searching true [] 0 with seq := 8, search := some .onOther }
    let o : Entry := { w none [] 0 with body := .locate, openIfNone := true }
    let s := withEntries [w none [9, 4] 0, x] online
    findEntry s 6 = some (w none [9, 4] 0) ∧ findEntry s 8 = some x ∧ x.seq ≠ 6 ∧ x.body.kind = .hold ∧
      (s.exc.entries.filter fun y => y.seq == 6 ||
        (y.state == .unresolved && y.account == (w none [9, 4] 0).account && y.search == some .onOther)) = [w none [9, 4] 0, x] ∧
      (w (some 7) [] 19).deferrals < 20 ∧ 20 ≤ (w (some 7) [] 20).deferrals ∧ (w none [] 0).isPost = false ∧
      (w none [] 0).openIfNone = false ∧ o.openIfNone = true ∧ o.account = some 417 ∧ o.body = .locate ∧ bookRoom online = true := by
  decide

theorem witness_storeGoesOn :
    let two : Request := ⟨.number, .group [.node (.number 5), .origin ⟨7, 3, 9⟩]⟩
    let ws : List RecWrite := [.node (.number 5), .origin ⟨7, 3, 9⟩]
    let first := inProgress two (.write 1 ⟨.node, 5, 7, .node {}⟩ 1)
    let room := inProgress nodeReq (.erase 1 .room 2)
    let retired : Slot := ⟨.erased, .retired, true⟩
    let erase (i : Nat) (why : EraseFor) (xs : List Slot) : State :=
      { slots xs base with store := { (slots xs base).store with erasing := some 0, op := some (.erase i why 1) } }
    let write : State := { erase 0 .room [dirty, free] with store := { (erase 0 .room [dirty, free]).store with
      op := some (.write 1 ⟨.node, 5, 7, .node {}⟩ 1) } }
    first.store.op = some (.write 1 ⟨.node, 5, 7, .node {}⟩ 1) ∧ two.work = .group ws ∧ ws[first.store.idx]? = some (.node (.number 5)) ∧
      ws[first.store.idx + 1]? = some (.origin ⟨7, 3, 9⟩) ∧ first.sys.phase = .running ∧ room.store.op = some (.erase 1 .room 2) ∧
      room.store.cur = some nodeReq ∧ (erase 0 .erasure [dirty, retired, free]).store.erasing.isSome = true ∧
      findSlot (fun x => x.state != .retired) ([dirty, retired, free].drop 1) 1 = some 2 ∧
      findSlot (fun x => x.state != .retired) ([dirty, retired].drop 1) 1 = none ∧ (erase 0 .room [dirty]).store.op = some (.erase 0 .room 1) ∧
      EraseFor.room ≠ .erasure ∧ write.store.op = some (.write 1 ⟨.node, 5, 7, .node {}⟩ 1) := by decide

theorem witness_lotRefusals :
    let busy : State := { scale with wgu := { scale.wgu with lotHand := some (.releaseLot 3) } }
    let eight : State := { scale with wgu := { scale.wgu with lotQ := List.replicate 8 (.claim 7 3 ⟨5, 204⟩ true) } }
    let other : LotReq := .claim 7 3 ⟨8, 204⟩ true
    let bad : LotReq := .report 7 3 ⟨5, 0⟩ false true
    TakenBy .scale busy ∧ isLotCmd (.releaseLot 3) = true ∧ 8 ≤ eight.wgu.lotQ.length ∧ ¬(1 ≤ 0 ∧ 0 ≤ 65535) ∧
      (lotFront other []).wgu.lotQ = [other] ∧ 8 ≠ (lotFront other []).node.number ∧ (lotFront bad []).wgu.lotQ = [bad] ∧
      findLot (lotFront other []) 204 = none ∧ findLot (lotFront other [lot 204 .withdrawn]) 204 = some (lot 204 .withdrawn) ∧
      (lotFront (.reoffer 204) []).wgu.lotHand = none ∧ busy.wgu.lotHand = some (.releaseLot 3) := by decide

theorem witness_pressesCounted :
    let s (st : ClockState) : State := { pressed with clu := { pressed.clu with state := st } }
    (s .settling).clu.state = .settling ∧ (s .noSale).clu.state = .noSale ∧ (pressSet 0x00010010 (s .noSale).clu.released).length = 2 := by
  decide

theorem witness_gateCancels :
    let b := { openBatch .issue [] with home := none }
    let s : State := { gateAt .resolving b with exc := { gateNode.exc with asks := [locateReq (.batchLocate 0 37) 512044 false] } }
    let p (k : PostKind) : Posting := ⟨⟨5, 7, 8⟩, k, 512044, 500, [⟨3, 1, 250⟩], none, none⟩
    let x (k : PostKind) (ep : Nat) := ended 4 (.batchPost ep 36) (p k) .doneToUnit
    let f := ended 4 (.batchPost 7 36) (p .ret) .failed
    let node (e : Entry) : State := withEntries [e] { gateNode with cgt := { gateNode.cgt with
      state := .posting, batch := some b, startEpoch := 7, pend := List.replicate 8 0 } }
    TakenBy .gate s ∧ s.cgt.state = .resolving ∧ s.cgt.batch = some b ∧ (∀ j ∈ s.exc.jobs, jobOf (.batchLocate 0 37) j = false) ∧
      s.exc.work = none ∧ (gateAt .posting b).cgt.state = .posting ∧ ¬(1 ≤ 0 ∧ 0 ≤ 16777215) ∧ batchInHand s 0 36 = false ∧
      batchInHand (node (x .issue 7)) 7 36 = false ∧ Ended (x .issue 7) (p .issue) (node (x .issue 7)) ∧
      Ended (x .ret 7) (p .ret) (node (x .ret 7)) ∧ Ended (x .issue 6) (p .issue) (node (x .issue 6)) ∧ 6 ≠ (node f).cgt.startEpoch ∧
      f.body = .post (p .ret) ∧ findEntry (node f) 4 = some f ∧ f.state = .failed ∧ (node f).cgt.poolBusy = false ∧
      (node f).cgt.poolT = none ∧ (node f).cgt.riseWaits = false ∧ (∃ n ∈ itemCounts (p .issue).items, n ≠ 0) ∧
      (node f).store.list.length + (node f).store.pend.length < 7 := by decide

/-! ### Records as bytes, and a search that ends while its outcome asks for more -/

/-- R20: the account number, the kind and the state stand first. -/
theorem test_accountKind :
    (account 417 .opened 0 0).kind = .boat ∧ (account 512044 .opened 0 0).kind = .buyer ∧
      (Account.bytes (account 417 .opened 0 0)).take 4 = acctField 417 ++ coded AcctKind.boat := ⟨rfl, rfl, rfl⟩

/-- R124: a tare of eight digits is shown whole. -/
theorem test_tareBytes : tareBytes 10001849 = [0x10, 0x00, 0x18, 0x49] ∧ shownWeight (-999999999) = -999999999 := ⟨rfl, rfl⟩

/-- R149: granted and allowance are absent while a desk is ASKING. -/
theorem test_deskGrant : ({ state := .asking } : Desk).hasGrant = false ∧ ({ state := .lapsed } : Desk).hasGrant = true := ⟨rfl, rfl⟩

/-- R191: a DONE_ALREADY brings no refunded counts. -/
theorem test_refundedOf :
    refundedOf (.answer .doneAlready (.counts [(3, 1)]) 9) = none ∧ refundedOf (.answer .done (.counts [(3, 1)]) 9) = some [(3, 1)] :=
  ⟨rfl, rfl⟩

/-- R103: while the result of a search is handed out, no entry counts as searching, so that a request asked for then begins its own. -/
theorem test_stopSearching :
    let e := searching true [] 0
    (withEntries [e] online).exc.entries.any Machine.searching = true ∧
      (stopSearching e (withEntries [e] online)).exc.entries.any Machine.searching = false := by decide

/-! ### The hall line's messages as bytes, decayed slots and pages, and a re-identification between its two writes -/

set_option maxRecDepth 8000 in
theorem test_wf_line : (Instr.lineGarbledMessage ⟨0, List.replicate 263 0, false⟩).wf = false := by decide

/-- A PRESENT of node 9, a CLOCK of ring 2: class 3, kind 2, two body bytes and their check (section 4.1). -/
def heardPresent : RawLine := ⟨0xC9, [0xC2, 9, 0, 0, 2, 2, 2, 0x87, 0x9A], false⟩

set_option maxRecDepth 8000 in
theorem test_lineInstr :
    readLine heardPresent = .message .present ⟨9, 0, 0⟩ [2, 2] ∧ lineInstr heardPresent online = .present ⟨9, 0, 0⟩ 2 2 ∧
      lineInstr ⟨0x89, [0x82, 9, 5, 4, 7, 0, 7, 0, 1, 0x00, 0x04, 0x17, 0xDB, 0x15], false⟩ online =
        .release ⟨9, 5, 4⟩ ⟨7, 1, acctField 417⟩ := by decide

set_option maxRecDepth 8000 in
/-- R71 step 1: a wrong check, a bad stop bit, a message cut short. -/
theorem test_checkError :
    readLine { heardPresent with bytes := [0xC2, 9, 0, 0, 2, 2, 3, 0x87, 0x9A] } = .checkError ∧
      readLine { heardPresent with stopBad := true } = .checkError ∧
      readLine { heardPresent with bytes := heardPresent.bytes.take 8 } = .checkError ∧ readLine ⟨0xC9, [], false⟩ = .checkError := by
  decide

set_option maxRecDepth 8000 in
/-- R71 step 2, each with a good check: arbitration code, a reserved bit of the source and of the sequence, a class and kind that form no
pair, source 63, a destination for a kind addressed to 0. -/
theorem test_formatError :
    let heard (a b src dst seq x y : Byte) : LineRead := readLine ⟨a, [b, src, dst, seq, 2, 2, 2, x, y], false⟩
    heard 0xC8 0xC2 9 0 0 0x87 0x9A = .formatError ∧ heard 0xC9 0xC2 0x49 0 0 0xED 0x8A = .formatError ∧
      heard 0xC9 0xC2 9 0 0x20 0xB0 0xD4 = .formatError ∧ heard 0xC9 0xC5 9 0 0 0x9E 0xDE = .formatError ∧
      heard 0xFF 0xC2 63 0 0 0x25 0xF7 = .formatError ∧ heard 0xC9 0xC2 9 5 0 0xA4 0xCD = .formatError := by decide

set_option maxRecDepth 8000 in
/-- A LOCATE that this node puts on the line is heard as that LOCATE. -/
theorem test_ownLocate :
    let m := newMsg .request 0 6 (.request (some 417) .locate) .exc 0
    readLine ⟨arbitrationCode .request 5, (m.onLine 5).tail, false⟩ = .message .locate ⟨5, 0, 6⟩ (acctField 417) := by decide

set_option maxRecDepth 8000 in
/-- R97: a MOVED to a posting; the new home stands behind the code. -/
theorem test_answerBytes :
    rawAnswerOf (some .sale) .post [3, 0x00, 0x04, 0x17, 12, 4] = ⟨some .post, .account (acctField 417), 12, .newHome 4⟩ ∧
      rawAnswerOf (some .sale) .post [3, 0x00, 0x04, 0x17, 1, 2, 0x00, 0x00, 0x07] =
        ⟨some .post, .account (acctField 417), 1, .counts [(2, writeUnsigned 5 7)]⟩ := by decide

/-- R25: the items and the hold key of a DRAW, and a posting whose parts are missing. -/
theorem test_postBytes :
    let head : List Byte := [9, 0, 7, 0, 1, 0, 0x51, 0x20, 0x44] ++ writeUnsigned 9 500
    let r := rawPostOf .draw (head ++ [1, 2] ++ writeUnsigned 5 7 ++ writeUnsigned 4 250 ++ [0, 7, 0, 3])
    r.origin = 9 ∧ r.epoch = 7 ∧ r.number = 1 ∧ r.amount = writeUnsigned 9 500 ∧
      r.items = some [⟨2, writeUnsigned 5 7, writeUnsigned 4 250⟩] ∧ r.holdKey = some (7, 3) ∧ r.transfer = none ∧
      (rawPostOf .draw (head ++ [1, 2])).items = none ∧ (rawPostOf .transfer head).transfer = none := by decide

set_option maxRecDepth 8000 in
/-- R51: one byte of each part is corrected, and counted; two of one part are not. -/
theorem test_readData :
    let c : Copy := ⟨.node, 4, 6, .node {}⟩
    let both : Decay := { header := .corrected, body := .corrected }
    readData both (.copy c true false) = .copy c true true ∧ correctedBytes [(3, both)] 3 ⟨.copy c true true, .dirty, false⟩ = 2 ∧
      readData { body := .uncorrectable } (.copy c true false) = .copy c false false ∧
      readData { header := .uncorrectable, body := .corrected } (.copy c true false) = .torn ∧
      readData { body := .corrected } .erased = .torn := by decide

/-- R62: an unwritten page that cannot be corrected raises STORE_EVENT as a written one does, and a marked one does not. -/
theorem test_pageFails :
    pageFails [3] base.store = true ∧ pageFails [5] base.store = false ∧
      pageFails [1] { base.store with pages := [{ fields := default, marked := true }] } = false := by decide

/-- R56, R110: after the OUTBOUND write and before the NODE write the entry shows its fresh identity. -/
def betweenWrites (fresh : Bool) : State :=
  let p : Posting := ⟨⟨5, 3, 8⟩, .sale, 417, 500, [], none, none⟩
  let e : Entry := { ended 6 (.salePart 30 .sale) p .queued with committing := true, deferrals := 3 }
  let s := withEntries [if fresh then e.renamed ⟨5, 7, 1⟩ else e] online
  let w : List RecWrite := [.outbound ⟨{ p with id := ⟨5, 7, 1⟩ }, e.ref, 9, some p.id⟩, .node (.nextPosting 2)]
  { s with
    exc := { s.exc with work := some (.reident 6 ⟨5, 7, 1⟩) }
    store := { s.store with
      list := [⟨.excWork, .group w⟩], cur := some ⟨.excWork, .group w⟩, listed := true, idx := 0
      op := some (.write 0 ⟨.outbound 7 1, 1, 7, .outbound ⟨{ p with id := ⟨5, 7, 1⟩ }, e.ref, 9, some p.id⟩⟩ 1)
      slots := [free, free] } }

theorem test_renamed :
    let t := (writeEnd true (betweenWrites false)).1
    (findEntry t 6).map (fun e => (e.ident, e.replaced, e.sends, e.deferrals, e.committing)) =
      some (some ⟨5, 7, 1⟩, some ⟨5, 3, 8⟩, 0, 0, true) ∧ t.store.idx = 1 := by decide

/-! ### Witnesses of their clauses -/

theorem witness_betweenWrites :
    let before := betweenWrites false
    let after := betweenWrites true
    let c : Copy := ⟨.outbound 7 1, 1, 7, .outbound ⟨⟨⟨5, 7, 1⟩, .sale, 417, 500, [], none, none⟩, .salePart 30 .sale, 9, some ⟨5, 3, 8⟩⟩⟩
    before.exc.work = some (.reident 6 ⟨5, 7, 1⟩) ∧ before.exc.jobs = [] ∧ (findEntry before 6).map (·.ident) = some (some ⟨5, 3, 8⟩) ∧
      before.store.erasing = none ∧ before.store.op = some (.write 0 c 1) ∧ before.store.idx = 0 ∧
      lowest isFree (slotWritten 0 c before).store = some 1 ∧ currentCount (slotWritten 0 c before).store .node < 4294967295 ∧
      before.sys.phase = .running ∧ unitInService before (.salePart 30 .sale) = false ∧
      (findEntry after 6).map (fun e => (e.ident, e.replaced)) = some (some ⟨5, 7, 1⟩, some ⟨5, 3, 8⟩) ∧ ListOpen after ∧
      after.node.epoch = after.sys.epoch ∧ after.node.nextPosting < 65535 := by decide

theorem witness_locateDefer :
    let s := withEntries [searching true [9] 44] online
    (findEntry s 6).map (fun e => (e.state, e.account, e.search)) = some (.unresolved, some 417, some (.window true [9] none 44)) ∧
      readSubject (.account (acctField 417)) = some (.account 417) ∧ readAnsData (.wait 7) = some (.wait 7) ∧
      ansDataFits .locate .defer (.wait 7) = true ∧ ansCodeOf 11 = some .defer := by decide

set_option maxRecDepth 8000 in
theorem witness_heard :
    online.lif.state ≠ .offline ∧ lineKindOf 3 2 = some .present ∧ lineKindOf 3 5 = none ∧
      ([0x87, 0x9A] : List Byte) = beBytes 2 (lineCheck [0xC2, 9, 0, 0, 2, 2, 2]).toNat ∧
      messageInstr online .present ⟨9, 0, 0⟩ [2, 2] = .present ⟨9, 0, 0⟩ 2 2 := by decide

theorem witness_decayed :
    let ds : List (Nat × Decay) := [(0, { header := .corrected }), (1, { body := .uncorrectable })]
    let st := (slots [current false, free] State.reset).store
    ds.find? (fun p => p.1 == 0) = some (0, { header := .corrected }) ∧ (st.slots[0]?).map (·.retired) = some false ∧
      ds.find? (fun p => p.1 == 1) = some (1, { body := .uncorrectable }) ∧ (st.slots[1]?).map (·.data) = some .erased ∧
      (∃ n ∈ [3], 1 ≤ n ∧ n ≤ 4 ∧ ∀ p, st.pages[n - 1]? = some p → p.marked = false) := by decide

theorem witness_givenUp :
    let e : Entry := { entry 6 (.release ⟨5, 7, 1⟩) .sent (some 9) (some 417) with sends := 4, deadline := some 0 }
    findEntry (withEntries [e] online) e.seq = some e ∧ e.state = .sent ∧ e.deadline = some 0 ∧ 4 ≤ e.sends ∧
      online.sys.phase = .running := by decide

/-! ### Witnesses of the clauses over start-up, the line going up, lots and messages -/

/-- A node whose store holds one CURRENT copy. -/
def stored (k : RecKey) (b : RecBody) (s : State) : State := slots [⟨.copy ⟨k, 1, 6, b⟩ true false, .current, false⟩, free] s

theorem witness_sizesOfAWeigh :
    let s := withLots [lot 204 .offered, lot 205 .withdrawn] { scale with wgu := { scale.wgu with
      weigh := some ⟨417, 112, 2, 3, 2, 2, .resolving none⟩ } }
    (s.wgu.lots.map (·.number)).Nodup ∧ s.wgu.weigh.isSome = true ∧ s.port.role = some .scale ∧ s.wgu.lots.length < 16 := by decide

theorem witness_lotRestored :
    let s := stored (.lot 204) (.lot (lot 204 .offered)) base
    readConfig [.role 1] = some { role := some .scale } ∧ currentBodies s.store = [.lot (lot 204 .offered)] ∧
      ((currentBodies s.store).filter fun b => b matches .lot _).length ≤ 16 ∧
      (s.port.cfg.update { role := some .scale }).role = some .scale := by decide

theorem witness_clockPartsRestored :
    let r (d s t : PartState) (posted collected : Bool) : SaleRec :=
      { saleRec 30 collected with drawPart := d, salePart := s, reportPart := t, posted := posted }
    let s (x : SaleRec) (es : List Entry) : State := withEntries es (stored (.sale 30) (.sale x) base)
    let stands := r .pending .done .done true false
    let e : Entry := { entry 6 (.post (posting .draw 118 [] (some (3, 5)))) .queued (some 9) (some 512044) with ref := .salePart 30 .draw }
    let c : Cfg := { role := some .clock }
    readConfig [.role 2] = some c ∧ (base.port.cfg.update c).role = some .clock ∧
      restoredSales (s stands [e]) = [{ entry := stands }] ∧ soldLots (restoredQueue (s stands [e])) (restoredSales (s stands [e])) = [] ∧
      partState stands .draw = .pending ∧ (∃ x ∈ (s stands [e]).exc.entries, x.ref = .salePart 30 .draw) ∧
      (∀ p, partState (r .done .lapsed .failed true true) p ≠ .pending) ∧ (r .done .lapsed .failed true true).collected = true ∧
      ListOpen (s stands []) ∧ PlaceOpen 0 (List.range' 1 31) (s stands []) ∧ PostReady (s stands []) ∧
      (r .pending .done .done false false).posted = false ∧ (r .pending .done .done true false).posted = true := by
  refine ⟨rfl, rfl, by decide, by decide, rfl, ⟨_, List.mem_singleton.2 rfl, rfl⟩, fun p => by cases p <;> decide, rfl, by decide, by decide, by decide,
    rfl, rfl⟩

theorem witness_lineComesUp :
    let s := withLots [lot 204 .offered, lot 205 .withdrawn] (inRole .scale { announce with book := { announce.book with openedWait := [417] } })
    let staged : State := { ready with port := { ready.port with staged := { ring := some 3 } } }
    s.lif.state = .announce ∧ s.lif.clashT = some 0 ∧ s.exc.entries = [] ∧ (s.wgu.lots.map (·.number)).Nodup ∧
      s.lif.queue.length + s.lif.wait.length + s.book.openedWait.length + s.wgu.lots.length ≤ 24 ∧ s.sys.phase = .running ∧
      Taken staged ∧ staged.lif.state = .offline ∧ staged.port.role.isSome = true ∧
      joinRefusal { staged with port := { staged.port with cfg := staged.port.cfg.update staged.port.staged, staged := {} } } = none := by
  decide

theorem witness_placeForAWaiting :
    let w (b : MsgBody) (e : Ends) : Waiting := ⟨newMsg .notice 0 0 b .wgu 0, e⟩
    let s (x : Waiting) (ls : List Lot) : State := withLots ls { online with lif := { online.lif with wait := [x] } }
    let d := describeLot 5 (lot 204 .offered)
    (s (w (.request (some 417) .locate) .nothing) []).lif.wait = [w (.request (some 417) .locate) .nothing] ∧
      (s (w (.lot d) .nothing) []).lif.wait = [w (.lot d) .nothing] ∧
      findLot (s (w (.lot d) .nothing) [lot 204 .offered]) d.id.number = some (lot 204 .offered) ∧
      findLot (s (w (.lot d) .nothing) [lot 204 .withdrawn]) d.id.number = some (lot 204 .withdrawn) ∧
      (s (w (.lot d) .nothing) []).lif.state = .active ∧ (s (w (.lot d) .nothing) []).lif.queue.length < 24 := by decide

theorem witness_weighEndsWithTheLine :
    let s : State := { scale with wgu := { scale.wgu with weigh := some ⟨417, 112, 2, 3, 2, 2, .resolving (some 6)⟩ } }
    Taken s ∧ s.lif.state ≠ .offline ∧ s.lif.tx = none ∧
      (lineDown (lineEmptied .offline .left s.lif) s).wgu.result = some { code := .notActive, boat := 417 } := by decide

theorem witness_scalePeerLeaves :
    let s := withLots [lot 204 .offered, lot 205 .withdrawn] { scale with lif := { scale.lif with peers := [⟨7, some .clock, 2, 35000⟩] } }
    findPeer s.lif.peers 7 = some ⟨7, some .clock, 2, 35000⟩ ∧ s.port.role = some .scale ∧ s.sys.phase = .running ∧
      (s.wgu.lots.map (·.number)).Nodup := by decide

theorem witness_ownNumberAndOthers :
    online.lif.serial = 1 ∧ online.lif.state = .active ∧ headerOk true fromMe = true ∧ fromMe.src = online.node.number ∧
      (Instr.release ⟨9, 4, 0⟩ ⟨1, 1, []⟩).header? = some ⟨9, 4, 0⟩ ∧ headerOk false ⟨9, 4, 0⟩ = true ∧
      ({ online with lif := { online.lif with state := .lineFault } } : State).lif.state = .lineFault ∧
      (Instr.joinMessage toAll 2 2 8 8).header? = some toAll ∧ readRoleRing 2 2 = some (.clock, 2) := by decide

theorem witness_yieldEnds :
    let p : Posting := ⟨⟨5, 7, 1⟩, .transfer, 417, 0, [], none, none⟩
    let e : Entry := { entry 3 (.post p) .failed (some 4) (some 417) with ref := .transfer 417 }
    let y (st : YieldStage) (s : State) : State := { s with book := { s.book with yields := [⟨417, 4, st⟩] } }
    let asked : State := y .asking { online with exc := { online.exc with work := some (.create (transferReq 417 4) [p]) } }
    let epoch (st : EpochState) : State := y (.askWait 0) { online with sys := { online.sys with epochState := st } }
    let s := withEntries [e] (y .running online)
    yieldOf s 417 = some ⟨417, 4, .running⟩ ∧ s.exc.entries.find? (fun x => x.ref == .transfer 417 && x.state == .failed) = some e ∧
      findEntry s e.seq = some e ∧ e.removing = false ∧ s.store.list.length + s.store.pend.length < 7 ∧
      yieldOf (epoch .inUse) 417 = some ⟨417, 4, .askWait 0⟩ ∧ openPlaces (epoch .inUse).exc ≠ 0 ∧ PostReady (epoch .inUse) ∧
      ListOpen (epoch .exhausted) ∧ (epoch .exhausted).sys.epochState = .exhausted ∧ (epoch .notTaken).sys.epochState = .notTaken ∧
      yieldOf asked 417 = some ⟨417, 4, .asking⟩ ∧ asked.exc.work = some (.create (transferReq 417 4) [p]) ∧ asked.exc.jobs = [] ∧
      accountOf (withAccounts [account 417 .yielding 0 0] (y .reopening online)) 417 = some (account 417 .yielding 0 0) := by decide

theorem witness_readingFormed :
    let seven : State := { scale with wgu := { scale.wgu with window := List.replicate 7 0 } }
    let raw : State := { scale with store := base.store }
    let held : State := { scale with wgu := { scale.wgu with reading := true, waiting := some {} } }
    calInForce scale.store = some calPage ∧ scale.wgu.window.length = 8 ∧ scale.wgu.zero < calPage.span ∧ 0 < calPage.division ∧
      seven.wgu.window.length ≠ 8 ∧ calInForce raw.store = none ∧ scale.wgu.crateTare = none ∧
      ({ scale.wgu with crateTare := some (3, 2) } : Wgu).crateTare = some (3, 2) ∧ held.wgu.reading = true ∧
      held.wgu.waiting.isSome = true ∧ (liveReading scale).stable = true ∧ (liveReading nearTop).tooHeavy = true := by decide

theorem witness_deskOut :
    let s := withDesk 1 { inDesk 1 with state := .suspended } clockNode
    let asks := withDesk 1 { inDesk 0 with state := .asking, key := none } clockNode
    (deskAt s 1).state = .suspended ∧ 0 < (deskAt s 1).allowance ∧ (deskAt s 1).key = some ⟨5, 7, 9⟩ ∧
      PlaceOpen 0 (List.range' 1 31) s ∧ (deskAt asks 1).state = .asking ∧ (deskAt asks 1).key = none := by decide

theorem witness_saleRequests :
    let r := saleRec 30 false
    let draw : Posting := ⟨⟨5, 7, 1⟩, .draw, 512044, 500, [], some (7, 2), none⟩
    let sale : Posting := ⟨⟨5, 7, 2⟩, .sale, 417, 500, [], none, none⟩
    let s : State := { clockIn .settling with clu := { (clockIn .settling).clu with sales := [{ entry := r }], reqWait := [⟨30, none, 0⟩] } }
    let late : State := { s with sys := { s.sys with epochState := .exhausted } }
    let made : State := { s with exc := { s.exc with work := some (.create (salePostsReq r) [draw, sale]) } }
    let desk : State := withDesk 3 { inDesk 500 with key := some ⟨5, 7, 2⟩ } s
    (findSale late 30).isSome = true ∧ late.clu.reqWait = [⟨30, none, 0⟩] ∧ late.sys.epochState = .exhausted ∧
      late.exc.free = 0 :: List.range' 1 31 ∧ 3 ≤ openPlaces late.exc ∧ headLot late = some lotDesc ∧
      late.store.list.length + late.store.pend.length < 6 ∧
      made.exc.work = some (.create (salePostsReq r) [draw, sale]) ∧ made.exc.free = 0 :: 1 :: 2 :: List.range' 3 29 ∧
      made.exc.entries = [] ∧ made.node.epoch = made.sys.epoch ∧ made.port.role = some .clock ∧
      deskWithKey desk ⟨5, 7, 2⟩ = some 3 ∧ (deskAt desk 3).home.isSome = true ∧ postHoldKey draw = some ⟨5, 7, 2⟩ := by decide

theorem witness_coastingPulse :
    let s := iceAt .dispensing (order false 644)
    s.icm.order = some (order false 644) ∧ (644 + 1) * 2500 ≤ 9999999 ∧ (order false 644).augerOn = false ∧ (644 + 1) % 64 ≠ 0 ∧
      5 ≤ s.icm.edgeMs := by decide

/-! ### An unwritten page that does not read, and messages whose bytes stand for nothing -/

/-- R62: the scan spends an unwritten page that it cannot correct: the count rises, and the next calibration goes to the page after it. -/
theorem test_scanSpendsPage :
    let st := scanStore [] [1] false (slots [free] base).store
    calCount st = 1 ∧ calInForce { st with pages := writePage { fields := some calPage } st.pages } = some calPage ∧
      (writePage { fields := some calPage } st.pages).map (·.fields.isSome) = [false, true, false, false] := by decide

/-- R71, R97: an ANSWER whose answered kind is no request kind comes to its row and counts as unmatched; its sender is heard. -/
theorem test_unknownAnswer :
    let i := messageInstr online .answer toMe [99, 0, 0, 0, 1]
    i = .answer toMe ⟨none, .account [0, 0, 0], 1, .none⟩ ∧
      ∃ t, exec i online = .next t ∧ t.exc.cnt.unmatched = 1 ∧ t.lif.peers.length = 1 := ⟨by decide, _, rfl, rfl, rfl⟩

/-- R71, R27: a POST whose kind byte stands for no kind comes to its row, and does not read as a posting. -/
theorem test_unknownPostKind (b : List Byte) (h : postKindAt 5 b = none) :
    ∃ x, messageInstr online .post toMe b = .post toMe x ∧ x.kind = none :=
  ⟨_, by simp only [messageInstr, rawPostAt, h]; rfl, rfl⟩

end Sys2Proof.Tests
end

section
/-! The digit procedures of the Amount Unit give integer arithmetic (R4, R5, R8), and what a sender packs a receiver reads (R2, R72). -/

namespace Sys2Proof.Machine
open Sys2Proof

/-! ### Decimal digits, lowest first -/

/-- A magnitude in the working width: `w` decimal digits (R4). -/
structure IsDecimal (w : Nat) (ds : List Nat) : Prop where
  length_eq : ds.length = w
  le_nine : ∀ d ∈ ds, d ≤ 9

theorem isDecimal_nil : IsDecimal 0 [] := ⟨rfl, by simp⟩

theorem isDecimal_cons {w d : Nat} {ds : List Nat} : IsDecimal (w + 1) (d :: ds) ↔ d ≤ 9 ∧ IsDecimal w ds := by
  constructor
  · rintro ⟨hl, hd⟩
    exact ⟨hd d (by simp), by simpa using hl, fun x hx => hd x (by simp [hx])⟩
  · rintro ⟨hd, hl, hds⟩
    exact ⟨by simp [hl], by simpa using ⟨hd, hds⟩⟩

theorem digVal_eq_ofDigits (ds : List Nat) : digVal ds = Nat.ofDigits 10 ds := by
  induction ds with
  | nil => rfl
  | cons d ds ih => rw [digVal, ih, Nat.ofDigits_cons]

theorem IsDecimal.digVal_lt {w : Nat} {ds : List Nat} (h : IsDecimal w ds) : digVal ds < 10 ^ w := by
  rw [digVal_eq_ofDigits, ← h.length_eq]
  exact Nat.ofDigits_lt_base_pow_length (by decide) fun d hd => Nat.lt_succ_of_le (h.le_nine d hd)

theorem isDecimal_toDigs (w n : Nat) : IsDecimal w (toDigs w n) := by
  induction w generalizing n with
  | zero => exact isDecimal_nil
  | succ w ih => exact isDecimal_cons.2 ⟨by omega, ih (n / 10)⟩

theorem digVal_toDigs (w n : Nat) : digVal (toDigs w n) = n % 10 ^ w := by
  induction w generalizing n with
  | zero => simp [toDigs, digVal, Nat.mod_one]
  | succ w ih => rw [toDigs, digVal, ih, Nat.pow_succ', Nat.mod_mul]

/-! ### Addition and the ten's complement (R4, R5) -/

/-- R4: the digits of the sum in the working width, and the carry out of the highest position. -/
theorem addDigs_spec {w : Nat} {as bs : List Nat} {c : Nat} (ha : IsDecimal w as) (hb : IsDecimal w bs) (hc : c ≤ 1) :
    IsDecimal w (addDigs as bs c).1 ∧ (addDigs as bs c).2 ≤ 1 ∧
      digVal (addDigs as bs c).1 + 10 ^ w * (addDigs as bs c).2 = digVal as + digVal bs + c := by
  induction w generalizing as bs c with
  | zero =>
    obtain rfl := List.eq_nil_of_length_eq_zero ha.length_eq
    obtain rfl := List.eq_nil_of_length_eq_zero hb.length_eq
    simpa [addDigs, digVal, isDecimal_nil] using hc
  | succ w ih =>
    obtain ⟨a, as, rfl⟩ := List.exists_cons_of_length_eq_add_one ha.length_eq
    obtain ⟨b, bs, rfl⟩ := List.exists_cons_of_length_eq_add_one hb.length_eq
    obtain ⟨ha9, ha⟩ := isDecimal_cons.1 ha
    obtain ⟨hb9, hb⟩ := isDecimal_cons.1 hb
    simp only [addDigs, digVal, isDecimal_cons, Nat.pow_succ', Nat.mul_assoc]
    by_cases ht : 9 < a + b + c
    · obtain ⟨hdec, hcarry, hval⟩ := ih ha hb (c := 1) (by omega)
      simp only [ht, if_true]
      exact ⟨⟨by omega, hdec⟩, hcarry, by omega⟩
    · obtain ⟨hdec, hcarry, hval⟩ := ih ha hb (c := 0) (by omega)
      simp only [ht, if_false]
      exact ⟨⟨by omega, hdec⟩, hcarry, by omega⟩

/-- R5: each digit 9 - d gives the magnitude that fills the working width up to all nines. -/
theorem ninesComplement_spec {w : Nat} {ds : List Nat} (h : IsDecimal w ds) :
    IsDecimal w (ds.map fun d => 9 - d) ∧ digVal (ds.map fun d => 9 - d) + digVal ds + 1 = 10 ^ w := by
  induction w generalizing ds with
  | zero =>
    obtain rfl := List.eq_nil_of_length_eq_zero h.length_eq
    exact ⟨isDecimal_nil, rfl⟩
  | succ w ih =>
    obtain ⟨d, ds, rfl⟩ := List.exists_cons_of_length_eq_add_one h.length_eq
    obtain ⟨hd, h⟩ := isDecimal_cons.1 h
    obtain ⟨hdec, hval⟩ := ih h
    simp only [List.map_cons, digVal, isDecimal_cons, Nat.pow_succ']
    exact ⟨⟨by omega, hdec⟩, by omega⟩

/-- R5: the ten's complement of a magnitude other than zero. -/
theorem tensComplement_spec {w : Nat} {ds : List Nat} (h : IsDecimal w ds) (hpos : 0 < digVal ds) :
    IsDecimal w (tensComplement ds) ∧ digVal (tensComplement ds) + digVal ds = 10 ^ w := by
  obtain ⟨hnines, hval⟩ := ninesComplement_spec h
  obtain ⟨hdec, hcarry, hsum⟩ := addDigs_spec hnines (isDecimal_toDigs w 1) (c := 0) (by omega)
  have hlt := hdec.digVal_lt
  have hone : 1 % 10 ^ w = 1 := Nat.mod_eq_of_lt (by omega)
  rw [digVal_toDigs, hone] at hsum
  rw [tensComplement, h.length_eq]
  obtain hc | hc : (addDigs (ds.map fun d => 9 - d) (toDigs w 1) 0).2 = 0 ∨ (addDigs (ds.map fun d => 9 - d) (toDigs w 1) 0).2 = 1 := by
    omega
  · rw [hc] at hsum; exact ⟨hdec, by omega⟩
  · rw [hc] at hsum; omega

/-! ### Signed addition (R4, R5) -/

theorem fixZero_value (z : SignMag) : (fixZero z).value = z.value := by
  unfold fixZero
  split
  · rename_i h; simp [SignMag.value, h]
  · rfl

theorem fixZero_digs (z : SignMag) : (fixZero z).digs = z.digs := by unfold fixZero; split <;> rfl

theorem fixZero_positive {z : SignMag} (h : digVal (fixZero z).digs = 0) : (fixZero z).neg = false := by
  rw [fixZero_digs] at h
  simp [fixZero, h]

/-- Before a zero takes the positive sign, the signed addition has the integer sum. -/
theorem addSigned_eq_fixZero {w : Nat} {x y : SignMag} (hx : IsDecimal w x.digs) (hy : IsDecimal w y.digs)
    (hfit : (x.value + y.value).natAbs < 10 ^ w) :
    ∃ z, addSigned x y = fixZero z ∧ IsDecimal w z.digs ∧ z.value = x.value + y.value := by
  obtain ⟨xn, xs⟩ := x
  obtain ⟨yn, ys⟩ := y
  simp only at hx hy
  by_cases hs : xn = yn
  · subst hs
    obtain ⟨hdec, hcarry, hsum⟩ := addDigs_spec hx hy (c := 0) (by omega)
    have hlt : digVal xs + digVal ys < 10 ^ w := by
      cases xn <;> simp [SignMag.value] at hfit <;> omega
    have hc : (addDigs xs ys 0).2 = 0 := by
      by_contra hne
      have := Nat.mul_le_mul_left (10 ^ w) (Nat.one_le_iff_ne_zero.2 hne)
      omega
    rw [hc] at hsum
    refine ⟨⟨xn, (addDigs xs ys 0).1⟩, by simp [addSigned], hdec, ?_⟩
    cases xn <;> simp [SignMag.value] <;> omega
  · obtain ⟨hnines, hcomp⟩ := ninesComplement_spec hy
    obtain ⟨hdec, hcarry, hsum⟩ := addDigs_spec hx hnines (c := 1) (by omega)
    have hxl := hx.digVal_lt
    have hrl := hdec.digVal_lt
    by_cases hc : (addDigs xs (ys.map fun d => 9 - d) 1).2 = 1
    · refine ⟨⟨xn, (addDigs xs (ys.map fun d => 9 - d) 1).1⟩, by simp [addSigned, hs, hc], hdec, ?_⟩
      rw [hc] at hsum
      cases xn <;> cases yn <;> simp [SignMag.value] at hs ⊢ <;> omega
    · rw [show (addDigs xs (ys.map fun d => 9 - d) 1).2 = 0 by omega] at hsum
      obtain ⟨htens, hval⟩ := tensComplement_spec hdec (by have := hy.digVal_lt; omega)
      refine ⟨⟨yn, tensComplement (addDigs xs (ys.map fun d => 9 - d) 1).1⟩, by simp [addSigned, hs, hc], htens, ?_⟩
      cases xn <;> cases yn <;> simp [SignMag.value] at hs ⊢ <;> omega

/-- Settles O7: the digit procedures keep the value modulo the working width, the carry out deciding the sign. -/
theorem signedAdditionIsInteger : Obligations.SignedAdditionIsInteger := by
  intro w x y hxl hyl hx hy hfit
  obtain ⟨z, hz, hdec, hval⟩ := addSigned_eq_fixZero ⟨hxl, hx⟩ ⟨hyl, hy⟩ hfit
  rw [hz]
  refine ⟨(fixZero_value z).trans hval, ?_, ?_, fixZero_positive⟩
  · rw [fixZero_digs]; exact hdec.length_eq
  · rw [fixZero_digs]; exact hdec.le_nine

/-! ### Long division (R8) -/

/-- The number that digits, highest first, make behind a number that stands already. -/
def numeral (a : Nat) (ds : List Nat) : Nat := ds.foldl (fun a x => 10 * a + x) a

@[simp] theorem numeral_nil (a : Nat) : numeral a [] = a := rfl
@[simp] theorem numeral_cons (a d : Nat) (ds : List Nat) : numeral a (d :: ds) = numeral (10 * a + d) ds := rfl

/-- R8: the quotient digit is the largest up to the fuel. -/
theorem quotDigit_spec (d r fuel : Nat) :
    quotDigit d r fuel ≤ fuel ∧ quotDigit d r fuel * d ≤ r ∧ (quotDigit d r fuel = fuel ∨ r < (quotDigit d r fuel + 1) * d) := by
  induction fuel with
  | zero => simp [quotDigit]
  | succ q ih =>
    obtain ⟨hle, hmul, hmax⟩ := ih
    unfold quotDigit
    split
    · exact ⟨Nat.le_refl _, ‹_›, .inl rfl⟩
    · rename_i hgt
      refine ⟨by omega, hmul, .inr ?_⟩
      obtain heq | hlt := hmax
      · rw [heq]; omega
      · exact hlt

/-- R8: taking the quotient digit leaves less than the divisor. -/
theorem quotDigit_remainder {d r x : Nat} (hr : r < d) (hx : x ≤ 9) :
    quotDigit d (10 * r + x) 9 * d ≤ 10 * r + x ∧ 10 * r + x - quotDigit d (10 * r + x) 9 * d < d := by
  obtain ⟨-, hmul, hmax⟩ := quotDigit_spec d (10 * r + x) 9
  refine ⟨hmul, ?_⟩
  obtain heq | hlt := hmax
  · rw [heq]; omega
  · rw [Nat.add_mul, Nat.one_mul] at hlt; omega

/-- R8: whatever quotient `a` stands already, the dividend is the whole quotient times the divisor, and the remainder. -/
theorem longDiv_spec {d : Nat} {ds : List Nat} (hds : ∀ x ∈ ds, x ≤ 9) {r : Nat} (hr : r < d) (a : Nat) :
    numeral a (longDiv d ds r).1 * d + (longDiv d ds r).2 = numeral (a * d + r) ds ∧ (longDiv d ds r).2 < d ∧
      (longDiv d ds r).1.length = ds.length ∧ ∀ q ∈ (longDiv d ds r).1, q ≤ 9 := by
  induction ds generalizing r a with
  | nil => simpa [longDiv] using hr
  | cons x xs ih =>
    obtain ⟨hmul, hlt⟩ := quotDigit_remainder hr (hds x (by simp))
    have hq := (quotDigit_spec d (10 * r + x) 9).1
    obtain ⟨hval, hrem, hlen, hdig⟩ := ih (fun y hy => hds y (by simp [hy])) hlt (10 * a + quotDigit d (10 * r + x) 9)
    have hstart : (10 * a + quotDigit d (10 * r + x) 9) * d + (10 * r + x - quotDigit d (10 * r + x) 9 * d)
        = 10 * (a * d + r) + x := by
      rw [Nat.add_mul, Nat.mul_assoc]; omega
    rw [hstart] at hval
    exact ⟨hval, hrem, by simp [longDiv, hlen], by simpa [longDiv, hq] using hdig⟩

/-- Settles O8: the division identity with a remainder below the divisor pins quotient and remainder. -/
theorem longDivisionTruncates : Obligations.LongDivisionTruncates := by
  intro d ds hd hds
  obtain ⟨hval, hrem, hlen, hdig⟩ := longDiv_spec hds hd 0
  rw [Nat.zero_mul, Nat.zero_add, Nat.add_comm, Nat.mul_comm] at hval
  obtain ⟨hquot, hmod⟩ := (Nat.div_mod_unique hd).2 ⟨hval, hrem⟩
  exact ⟨hquot.symm, hmod.symm, hlen, hdig⟩

/-! ### Packed decimal fields (R2, R72) -/

theorem digitsOf_length (n v : Nat) : (digitsOf n v).length = n := by
  induction n generalizing v with
  | zero => rfl
  | succ n ih => simp [digitsOf, ih]

theorem digitsOf_le_nine (n v : Nat) : ∀ d ∈ digitsOf n v, d ≤ 9 := by
  induction n generalizing v with
  | zero => simp [digitsOf]
  | succ n ih =>
    intro d hd
    obtain hd | hd := List.mem_append.1 hd
    · exact ih _ d hd
    · rw [List.mem_singleton.1 hd]; omega

theorem numeral_digitsOf (n v : Nat) : numeral 0 (digitsOf n v) = v % 10 ^ n := by
  induction n generalizing v with
  | zero => simp [digitsOf, Nat.mod_one]
  | succ n ih =>
    have happ : numeral 0 (digitsOf (n + 1) v) = 10 * numeral 0 (digitsOf n (v / 10)) + v % 10 := by
      simp [digitsOf, numeral]
    rw [happ, ih, Nat.pow_succ', Nat.mod_mul, Nat.add_comm]

/-- R2: decimal digits read as the number they make. -/
theorem digitsValue_eq_numeral {ds : List Nat} (h : ∀ d ∈ ds, d ≤ 9) : digitsValue ds = some (numeral 0 ds) := by
  induction ds using List.reverseRecOn with
  | nil => rfl
  | append_singleton ds d ih =>
    have hfront : digitsValue ds = some (numeral 0 ds) := ih fun x hx => h x (by simp [hx])
    unfold digitsValue at hfront ⊢
    rw [List.foldl_append, hfront]
    simp [numeral, h d (by simp)]

theorem digitsValue_digitsOf {n v : Nat} (h : v < 10 ^ n) : digitsValue (digitsOf n v) = some v := by
  rw [digitsValue_eq_numeral (digitsOf_le_nine n v), numeral_digitsOf, Nat.mod_eq_of_lt h]

/-- Nibbles packed two to a byte are read back, when none is left over. -/
theorem nibbles_packNibbles {ns : List Nat} (hlen : ns.length % 2 = 0) (h : ∀ d ∈ ns, d < 16) : nibbles (packNibbles ns) = ns := by
  induction ns using packNibbles.induct with
  | case1 a b ns ih =>
    have ha := h a (by simp)
    have hb := h b (by simp)
    have hrest : nibbles (packNibbles ns) = ns :=
      ih (by simp only [List.length_cons] at hlen; omega) fun d hd => h d (by simp [hd])
    have hbyte : (BitVec.ofNat 8 (16 * a + b)).toNat = 16 * a + b := by rw [BitVec.toNat_ofNat]; omega
    simp only [packNibbles, nibbles, hbyte, hrest]
    congr 1 <;> [skip; congr 1] <;> omega
  | case2 ns hns =>
    obtain _ | ⟨a, _ | ⟨b, ns⟩⟩ := ns
    · rfl
    · simp at hlen
    · exact absurd rfl (hns a b ns)

/-- A leading nibble and `n` digits, `n` odd, are read back. -/
theorem nibbles_lead_digitsOf {lead n v : Nat} (hn : n % 2 = 1) (hl : lead < 16) :
    nibbles (packNibbles (lead :: digitsOf n v)) = lead :: digitsOf n v := by
  refine nibbles_packNibbles (by simp only [List.length_cons, digitsOf_length]; omega) ?_
  simp only [List.mem_cons, forall_eq_or_imp]
  exact ⟨hl, fun d hd => by have := digitsOf_le_nine n v d hd; omega⟩

theorem readUnsigned_writeUnsigned {n v : Nat} (h : v < 10 ^ n) : readUnsigned n (writeUnsigned n v) = some v := by
  obtain hn | hn := Nat.mod_two_eq_zero_or_one n
  · have hpack : nibbles (writeUnsigned n v) = digitsOf n v := by
      simp only [writeUnsigned, hn, Nat.zero_ne_one, if_false]
      exact nibbles_packNibbles (by rwa [digitsOf_length])
        fun d hd => by have := digitsOf_le_nine n v d hd; omega
    simp [readUnsigned, hpack, hn, digitsOf_length, digitsValue_digitsOf h]
  · have hpack : nibbles (writeUnsigned n v) = 0 :: digitsOf n v := by
      simp only [writeUnsigned, hn, if_true]
      exact nibbles_lead_digitsOf hn (by decide)
    simp [readUnsigned, hpack, hn, digitsOf_length, digitsValue_digitsOf h]

theorem readSigned_writeSigned {v : Int} (h : v.natAbs ≤ 999999999) : readSigned (writeSigned v) = some v := by
  have hdigits : digitsValue (digitsOf 9 v.natAbs) = some v.natAbs := digitsValue_digitsOf (by omega)
  by_cases hv : v < 0
  · have hpack : nibbles (writeSigned v) = 11 :: digitsOf 9 v.natAbs := by
      simp only [writeSigned, hv, if_true]
      exact nibbles_lead_digitsOf rfl (by decide)
    simp [readSigned, hpack, digitsOf_length, hdigits, abs_of_neg hv]
  · have hpack : nibbles (writeSigned v) = 10 :: digitsOf 9 v.natAbs := by
      simp only [writeSigned, hv, if_false]
      exact nibbles_lead_digitsOf rfl (by decide)
    simp [readSigned, hpack, digitsOf_length, hdigits, abs_of_nonneg (Int.not_lt.1 hv)]

/-- Settles O9, the unsigned fields by their digit count even or odd, the signed field by its sign nibble. -/
theorem packedRoundTrip : Obligations.PackedRoundTrip :=
  ⟨fun _ _ => readUnsigned_writeUnsigned, fun _ => readSigned_writeSigned⟩

end Sys2Proof.Machine
end

section
/-! What the calculations on amounts and balances guarantee (R7, R9 to R19). -/

namespace Sys2Proof.Machine
open Sys2Proof

/-! ### Rounding (R7) -/

/-- Half up: the scaled number is the nearest, a half going up. -/
theorem scaleBy_halfUp_bounds {divisor : Nat} (hd : 0 < divisor) (n : Nat) :
    2 * (divisor * scaleBy divisor .halfUp n) ≤ 2 * n + divisor ∧ 2 * n < 2 * (divisor * scaleBy divisor .halfUp n) + divisor := by
  have hn := Nat.div_add_mod n divisor
  have hlt := Nat.mod_lt n hd
  by_cases h : divisor ≤ 2 * (n % divisor) <;> simp only [scaleBy, h, if_true, if_false, Nat.mul_add, Nat.mul_one] <;> omega

theorem scaleBy_truncate_bounds {divisor : Nat} (hd : 0 < divisor) (n : Nat) :
    divisor * scaleBy divisor .truncate n ≤ n ∧ n < divisor * (scaleBy divisor .truncate n + 1) :=
  ⟨Nat.mul_div_le n divisor, Nat.lt_mul_div_succ n hd⟩

/-- A whole multiple is scaled exactly, however it would be rounded. -/
theorem scaleBy_mul {divisor : Nat} (hd : 0 < divisor) (m : Round) (n : Nat) : scaleBy divisor m (n * divisor) = n := by
  cases m <;> simp [scaleBy, Nat.ne_of_gt hd]

/-! ### Sale figures (R9 to R11) -/

theorem saleAmount_bounds (net price : Nat) :
    1000 * saleAmount net price ≤ net * price + 500 ∧ net * price < 1000 * saleAmount net price + 500 := by
  obtain ⟨hlow, hhigh⟩ := scaleBy_halfUp_bounds (divisor := 1000) (by decide) (net * price)
  rw [saleAmount]
  omega

theorem levyOf_bounds (amount rate : Nat) :
    10000 * levyOf amount rate ≤ amount * rate ∧ amount * rate < 10000 * (levyOf amount rate + 1) :=
  scaleBy_truncate_bounds (by decide) _

/-- R10: at a levy rate of at most 20 percent the levy is at most a fifth of the amount. -/
theorem levyOf_le_fifth {amount rate : Nat} (h : rate ≤ 2000) : 5 * levyOf amount rate ≤ amount := by
  have hlevy := (levyOf_bounds amount rate).1
  have hrate := Nat.mul_le_mul_left amount h
  omega

/-- Settles O10, by the bounds of each rounding. -/
theorem saleFigures : Obligations.SaleFigures := by
  intro net price rate count deposit amount
  have hsale := saleAmount_bounds net price
  refine ⟨hsale, levyOf_bounds amount rate, fun hrate => ?_, rfl, decide_eq_true_iff, fun hnet hprice => ?_⟩
  · have hfifth := levyOf_le_fifth (amount := amount) hrate
    exact ⟨Nat.sub_add_cancel (by omega), hfifth⟩
  · have hproduct := Nat.mul_le_mul hnet hprice
    have hlow := hsale.1
    omega

/-! ### Ice figures (R12 to R14) -/

theorem iceHoldAmount_eq (kg tariff : Nat) : iceHoldAmount kg tariff = kg * tariff := by
  rw [iceHoldAmount, Nat.mul_right_comm]
  exact scaleBy_mul (by decide) .up (kg * tariff)

/-- R13: the grams purchasable with an amount are the most that it pays for. -/
theorem gramsPurchasable_mul_le (granted tariff : Nat) : gramsPurchasable granted tariff * tariff ≤ granted * 1000 :=
  Nat.div_mul_le_self _ _

theorem gramsPurchasable_mono {granted granted' : Nat} (h : granted ≤ granted') (tariff : Nat) :
    gramsPurchasable granted tariff ≤ gramsPurchasable granted' tariff :=
  Nat.div_le_div_right (Nat.mul_le_mul_right 1000 h)

/-- R12, R13: the hold amount in full buys the order's grams. -/
theorem gramsPurchasable_full (kg : Nat) {tariff : Nat} (h : 0 < tariff) : gramsPurchasable (kg * tariff) tariff = kg * 1000 := by
  rw [gramsPurchasable, Nat.mul_right_comm, Nat.mul_div_cancel _ h]

theorem targetGrams_le (granted tariff gpp : Nat) : targetGrams granted tariff gpp ≤ gramsPurchasable granted tariff :=
  Nat.div_mul_le_self _ _

theorem lt_targetGrams_add (granted tariff : Nat) {gpp : Nat} (h : 0 < gpp) :
    gramsPurchasable granted tariff < targetGrams granted tariff gpp + gpp :=
  Nat.lt_div_mul_add h

/-- R14: the grams of the target cost at most what was granted: the cost scaled is at most the amount, so no half rounds it past. -/
theorem iceSettleAmount_targetGrams_le (granted tariff gpp : Nat) :
    iceSettleAmount (targetGrams granted tariff gpp) tariff ≤ granted := by
  have hcost : targetGrams granted tariff gpp * tariff ≤ granted * 1000 :=
    (Nat.mul_le_mul_right tariff (targetGrams_le granted tariff gpp)).trans (gramsPurchasable_mul_le granted tariff)
  have hround := (scaleBy_halfUp_bounds (divisor := 1000) (by decide) (targetGrams granted tariff gpp * tariff)).1
  rw [iceSettleAmount]
  omega

/-- Settles O11, by the bounds of the whole division at each step. -/
theorem iceFigures : Obligations.IceFigures := by
  intro kg tariff gpp granted htariff hgpp
  have hfull := gramsPurchasable_full kg htariff
  refine ⟨iceHoldAmount_eq kg tariff, hfull, fun hgranted => ?_, rfl, targetGrams_le granted tariff gpp,
    lt_targetGrams_add granted tariff hgpp, Nat.div_eq_zero_iff_lt hgpp, iceSettleAmount_targetGrams_le granted tariff gpp⟩
  exact (targetGrams_le granted tariff gpp).trans (hfull ▸ gramsPurchasable_mono hgranted tariff)

/-! ### Balance addition (R15, R18) -/

theorem saturate_eq_clamp (v : Int) : saturate v = max (-999999999) (min 999999999 v) := by
  unfold saturate balanceMax
  split <;> [skip; split] <;> omega

theorem saturates_iff (v : Int) : saturates v = true ↔ v < -999999999 ∨ 999999999 < v := by
  simp [saturates, or_comm]

theorem overdrawnAfter_eq (k : DebitKind) (floor balance : Int) (before : Bool) :
    overdrawnAfter k floor balance before = (decide (balance < floor) && (decide (k = .unchecked) || before)) := by
  by_cases h : floor ≤ balance
  · simp [overdrawnAfter, h, Int.not_lt.2 h]
  · cases k <;> simp [overdrawnAfter, h, Int.not_le.1 h]

section
variable (k : DebitKind) (change : Int) (a : Account)

@[simp] theorem addBalance_balance :
    (addBalance k change a).balance = max (-999999999) (min 999999999 (a.balance + change)) := saturate_eq_clamp _

@[simp] theorem addBalance_saturated : (addBalance k change a).saturated = (a.saturated || saturates (a.balance + change)) := rfl

@[simp] theorem addBalance_overdrawn : (addBalance k change a).overdrawn =
    (decide ((addBalance k change a).balance < a.floor) && (decide (k = .unchecked) || a.overdrawn)) := overdrawnAfter_eq ..

@[simp] theorem addBalance_number : (addBalance k change a).number = a.number := rfl
@[simp] theorem addBalance_state : (addBalance k change a).state = a.state := rfl
@[simp] theorem addBalance_floor : (addBalance k change a).floor = a.floor := rfl
@[simp] theorem addBalance_crates : (addBalance k change a).crates = a.crates := rfl
@[simp] theorem addBalance_unmatched : (addBalance k change a).unmatched = a.unmatched := rfl

end

/-- R15: SATURATED stays, and is set by a sum that passes an end. -/
theorem addBalance_saturated_iff (k : DebitKind) (change : Int) (a : Account) : (addBalance k change a).saturated = true ↔
    a.saturated = true ∨ a.balance + change < -999999999 ∨ 999999999 < a.balance + change := by
  rw [addBalance_saturated, Bool.or_eq_true, saturates_iff]

/-- A sum within the balance range is the balance, and SATURATED is as it was (R15). -/
theorem addBalance_within (k : DebitKind) {change : Int} {a : Account} (hlo : -999999999 ≤ a.balance + change)
    (hhi : a.balance + change ≤ 999999999) :
    (addBalance k change a).balance = a.balance + change ∧ (addBalance k change a).saturated = a.saturated := by
  have hno : saturates (a.balance + change) = false := by
    rw [Bool.eq_false_iff, ne_eq, saturates_iff]; omega
  exact ⟨by rw [addBalance_balance]; omega, by rw [addBalance_saturated, hno, Bool.or_false]⟩

/-- Settles O12, by where the sum and the new balance lie. -/
theorem balanceAddition : Obligations.BalanceAddition := by
  intro k change a b sum
  have hbal : b.balance = max (-999999999) (min 999999999 sum) := addBalance_balance k change a
  have hsat : b.saturated = true ↔ _ := addBalance_saturated_iff k change a
  have hover : b.overdrawn = _ := addBalance_overdrawn k change a
  refine ⟨by omega, addBalance_within k, fun h => ⟨by omega, hsat.2 (.inr (.inr h))⟩, fun h => ⟨by omega, hsat.2 (.inr (.inl h))⟩,
    fun h => ?_, fun h => ?_, rfl⟩
  · rw [hover, decide_eq_false (Int.not_lt.2 h), Bool.false_and]
  · rw [hover, decide_eq_true h, Bool.true_and]
    cases k <;> simp

/-! ### Available funds, checked debits and grants (R16, R17, R19) -/

theorem debitAllowed_iff (hs : List Hold) (a : Account) (d : Nat) :
    debitAllowed hs a d = true ↔ a.floor ≤ availableFunds hs a - d := by simp [debitAllowed]

/-- R16: a hold of the account that joins the table lowers available funds by its remaining amount. -/
theorem availableFunds_append {hs : List Hold} {a : Account} {h : Hold} (hacct : h.account = a.number) :
    availableFunds (hs ++ [h]) a = availableFunds hs a - h.remaining := by
  simp only [availableFunds, heldFunds, List.filter_append, List.map_append, List.sum_append]
  simp [hacct]; omega

/-- R19: a grant gives all of the amount, or with accept-less all that is free. -/
theorem grantAmount_eq_some_iff {hs : List Hold} {a : Account} {amount g : Nat} {less : Bool} {c : AnsCode} :
    grantAmount hs a amount less = some (g, c) ↔
      (a.floor ≤ availableFunds hs a - amount ∧ g = amount ∧ c = .granted) ∨
      (availableFunds hs a - amount < a.floor ∧ less = true ∧ 1 ≤ g ∧ availableFunds hs a - g = a.floor ∧ c = .grantedLess) := by
  unfold grantAmount
  by_cases hall : (amount : Int) ≤ availableFunds hs a - a.floor
  · simp only [hall, if_true, Option.some.injEq, Prod.mk.injEq]
    constructor
    · rintro ⟨rfl, rfl⟩; exact .inl ⟨by omega, rfl, rfl⟩
    · rintro (⟨-, rfl, rfl⟩ | ⟨hshort, -⟩)
      · exact ⟨rfl, rfl⟩
      · omega
  · by_cases hless : less = true ∧ 1 ≤ availableFunds hs a - a.floor
    · simp only [hall, hless, if_true, if_false, Bool.true_and, decide_true, Option.some.injEq, Prod.mk.injEq]
      constructor
      · rintro ⟨rfl, rfl⟩; exact .inr ⟨by omega, trivial, by omega, by omega, rfl⟩
      · rintro (⟨hfree, -⟩ | ⟨-, -, -, hg, rfl⟩)
        · omega
        · exact ⟨by omega, rfl⟩
    · have hno : (less && decide (1 ≤ availableFunds hs a - a.floor)) = false := by simpa using hless
      simp only [hall, hno, if_false, reduceCtorEq, false_iff]
      rintro (⟨hfree, -⟩ | ⟨-, hl, hg, hfloor, -⟩)
      · omega
      · exact hless ⟨hl, by omega⟩

/-- R19: a refusal for funds says that not all, and with accept-less not one cent, was free. -/
theorem grantAmount_eq_none_iff {hs : List Hold} {a : Account} {amount : Nat} {less : Bool} :
    grantAmount hs a amount less = none ↔
      availableFunds hs a - amount < a.floor ∧ (less = true → availableFunds hs a - 1 < a.floor) := by
  unfold grantAmount
  by_cases hall : (amount : Int) ≤ availableFunds hs a - a.floor
  · simp only [hall, if_true, reduceCtorEq, false_iff]
    omega
  · cases less
    · simp [hall]; omega
    · by_cases hone : 1 ≤ availableFunds hs a - a.floor
      · simp [hall, hone]; omega
      · simp [hall, hone]; omega

/-- Settles O13, by the two forms of a grant. -/
theorem grantsAndCheckedDebits : Obligations.GrantsAndCheckedDebits := by
  intro hs a amount less hamount
  refine ⟨fun g c hgrant => ?_, grantAmount_eq_none_iff, debitAllowed_iff hs a amount, fun hallowed => ?_⟩
  · have hfunds (key : Ident) (life : Nat) :
        availableFunds (hs ++ [⟨key, a.number, g, g, life, 0⟩]) a = availableFunds hs a - g := availableFunds_append rfl
    obtain ⟨hfree, rfl, rfl⟩ | ⟨hshort, hless, hg, hfloor, rfl⟩ := grantAmount_eq_some_iff.1 hgrant
    · exact ⟨hamount, Nat.le_refl _, hfree, fun _ => rfl, nofun, .inl rfl, hfunds⟩
    · exact ⟨hg, by omega, by omega, nofun, fun _ => ⟨hless, by omega, hfloor⟩, .inr rfl, hfunds⟩
  · have hfloor := (debitAllowed_iff hs a amount).1 hallowed
    unfold availableFunds at hfloor
    omega

end Sys2Proof.Machine
end

section
/-! What each kind of posting does to its account record (R15, R18, R29 to R35), and an ISSUE as the checked debit (R17). -/

namespace Sys2Proof.Machine
open Sys2Proof

/-! ### Crate counts (R20, R29, R30) -/

@[simp] theorem setCrates_length (cs : List Nat) (ty n : Nat) : (setCrates cs ty n).length = cs.length := List.length_set

theorem crateCount_setCrates_self {cs : List Nat} {ty : Nat} (n : Nat) (hlo : 1 ≤ ty) (hhi : ty ≤ cs.length) :
    crateCount (setCrates cs ty n) ty = n := by
  simp [crateCount, setCrates, List.getD_eq_getElem?_getD, List.getElem?_set_self (show ty - 1 < cs.length by omega)]

theorem crateCount_setCrates_other (cs : List Nat) {ty ty' : Nat} (n : Nat) (h : 1 ≤ ty) (h' : 1 ≤ ty') (hne : ty ≠ ty') :
    crateCount (setCrates cs ty n) ty' = crateCount cs ty' := by
  simp [crateCount, setCrates, List.getD_eq_getElem?_getD, List.getElem?_set_ne (show ty - 1 ≠ ty' - 1 by omega)]

/-- The counts after each item, in turn, has changed the count of its type by `f`. -/
def updateCrates (f : CrateItem → Nat → Nat) (is : List CrateItem) (cs : List Nat) : List Nat :=
  is.foldl (fun acc i => setCrates acc i.ctype (f i (crateCount acc i.ctype))) cs

theorem takeCrates_eq_updateCrates (cs : List Nat) (is : List CrateItem) :
    takeCrates cs is = updateCrates (fun i n => n - cratesMet cs i) is cs := rfl

theorem giveCrates_eq_updateCrates (cs : List Nat) (is : List CrateItem) :
    giveCrates cs is = updateCrates (fun i n => addCrates n i.count) is cs := rfl

@[simp] theorem updateCrates_length (f : CrateItem → Nat → Nat) (is : List CrateItem) (cs : List Nat) :
    (updateCrates f is cs).length = cs.length := by
  induction is generalizing cs with
  | nil => rfl
  | cons i is ih => exact (ih _).trans (setCrates_length cs _ _)

section
variable {f : CrateItem → Nat → Nat} {is : List CrateItem} {cs : List Nat}

theorem crateCount_updateCrates_other (hty : ∀ i ∈ is, 1 ≤ i.ctype) {ty : Nat} (hlo : 1 ≤ ty) (hne : ∀ i ∈ is, i.ctype ≠ ty) :
    crateCount (updateCrates f is cs) ty = crateCount cs ty := by
  induction is generalizing cs with
  | nil => rfl
  | cons i is ih =>
    simp only [List.mem_cons, forall_eq_or_imp] at hty hne
    exact (ih hty.2 hne.2).trans (crateCount_setCrates_other cs _ hty.1 hlo hne.1)

/-- Of items of different types, each changes the count that stood before any of them. -/
theorem crateCount_updateCrates_mem (hn : (is.map (·.ctype)).Nodup) (hty : ∀ i ∈ is, 1 ≤ i.ctype ∧ i.ctype ≤ cs.length) :
    ∀ i ∈ is, crateCount (updateCrates f is cs) i.ctype = f i (crateCount cs i.ctype) := by
  induction is generalizing cs with
  | nil => simp
  | cons i is ih =>
    simp only [List.map_cons, List.nodup_cons, List.mem_map, not_exists, not_and] at hn
    simp only [List.mem_cons, forall_eq_or_imp] at hty ⊢
    obtain ⟨hnew, hn⟩ := hn
    obtain ⟨⟨hlo, hhi⟩, hty⟩ := hty
    constructor
    · exact (crateCount_updateCrates_other (fun j hj => (hty j hj).1) hlo hnew).trans (crateCount_setCrates_self _ hlo hhi)
    · intro j hj
      have hrest := ih (cs := setCrates cs i.ctype (f i (crateCount cs i.ctype))) hn (by simpa using hty) j hj
      rwa [crateCount_setCrates_other cs _ hlo (hty j hj).1 fun h => hnew j hj h.symm] at hrest

end

/-- R29: what an item asks for beyond the crates met is what passes the count held. -/
theorem count_sub_cratesMet (cs : List Nat) (i : CrateItem) : i.count - cratesMet cs i = i.count - crateCount cs i.ctype := by
  unfold cratesMet; omega

/-- R20: additions one after another, each clamped, are the clamped sum. -/
theorem foldl_addCrates {α : Type} (f : α → Nat) (l : List α) {u : Nat} (hu : u ≤ 65535) :
    l.foldl (fun u x => addCrates u (f x)) u = min 65535 (u + (l.map f).sum) := by
  induction l generalizing u with
  | nil => simpa using hu
  | cons x xs ih =>
    have hx : addCrates u (f x) ≤ 65535 := Nat.min_le_left _ _
    rw [List.foldl_cons, ih hx, List.map_cons, List.sum_cons, addCrates]
    omega

/-- R34: the carried counts are added type by type. -/
theorem crateCount_zipWith_addCrates {cs ds : List Nat} (hlen : cs.length = ds.length) {ty : Nat} (hlo : 1 ≤ ty) (hhi : ty ≤ cs.length) :
    crateCount (List.zipWith addCrates cs ds) ty = min 65535 (crateCount cs ty + crateCount ds ty) := by
  have hc : ty - 1 < cs.length := by omega
  have hd : ty - 1 < ds.length := by omega
  simp [crateCount, List.getElem?_zipWith, List.getElem?_eq_getElem hc, List.getElem?_eq_getElem hd, addCrates]

/-! ### The record after a posting (R29 to R34) -/

section
variable {p : Posting} (a : Account)

theorem applyPosting_sale (h : p.kind = .sale) : applyPosting p a = { applySale p a with last := some p.id } := by
  simp only [applyPosting, h]

theorem applyPosting_draw (h : p.kind = .draw) : applyPosting p a = { applyDraw p a with last := some p.id } := by
  simp only [applyPosting, h]

theorem applyPosting_settle (h : p.kind = .settle) : applyPosting p a = { applySettle p a with last := some p.id } := by
  simp only [applyPosting, h]

theorem applyPosting_issue (h : p.kind = .issue) : applyPosting p a = { applyIssue p a with last := some p.id } := by
  simp only [applyPosting, h]

theorem applyPosting_ret (h : p.kind = .ret) : applyPosting p a = { applyReturn p a with last := some p.id } := by
  simp only [applyPosting, h]

theorem applyPosting_transfer {t : TransferPart} (h : p.kind = .transfer) (ht : p.transfer = some t) :
    applyPosting p a = { applyTransfer t a with last := some p.id } := by
  simp only [applyPosting, h, ht]

theorem applyPosting_transfer_none (h : p.kind = .transfer) (ht : p.transfer = none) :
    applyPosting p a = { a with last := some p.id } := by
  simp only [applyPosting, h, ht]

theorem applyPosting_settle_zero (h : p.kind = .settle) (hz : p.amount = 0) : applyPosting p a = { a with last := some p.id } := by
  rw [applyPosting_settle a h, applySettle, if_pos hz]

theorem applyPosting_settle_pos (h : p.kind = .settle) (hpos : 0 < p.amount) :
    applyPosting p a = { addBalance .unchecked (-(p.amount : Int)) a with last := some p.id } := by
  rw [applyPosting_settle a h, applySettle, if_neg (Nat.ne_of_gt hpos)]

end

/-- Number, state and floor stand, and the posting's identity is the record's last (R27). -/
theorem applyPosting_frame (p : Posting) (a : Account) : (applyPosting p a).number = a.number ∧ (applyPosting p a).state = a.state ∧
    (applyPosting p a).floor = a.floor ∧ (applyPosting p a).last = some p.id := by
  cases h : p.kind with
  | sale => rw [applyPosting_sale a h]; exact ⟨rfl, rfl, rfl, rfl⟩
  | draw => rw [applyPosting_draw a h]; exact ⟨rfl, rfl, rfl, rfl⟩
  | issue => rw [applyPosting_issue a h]; exact ⟨rfl, rfl, rfl, rfl⟩
  | ret => rw [applyPosting_ret a h]; exact ⟨rfl, rfl, rfl, rfl⟩
  | settle =>
    obtain hz | hpos := Nat.eq_zero_or_pos p.amount
    · rw [applyPosting_settle_zero a h hz]; exact ⟨rfl, rfl, rfl, rfl⟩
    · rw [applyPosting_settle_pos a h hpos]; exact ⟨rfl, rfl, rfl, rfl⟩
  | transfer =>
    cases ht : p.transfer with
    | some t => rw [applyPosting_transfer a h ht]; exact ⟨rfl, rfl, rfl, rfl⟩
    | none => rw [applyPosting_transfer_none a h ht]; exact ⟨rfl, rfl, rfl, rfl⟩

section
variable {p : Posting} (a : Account)

/-- R29, R33: a SALE and a RETURN take the crates met. -/
theorem applyPosting_crates_taken (h : p.kind = .sale ∨ p.kind = .ret) : (applyPosting p a).crates = takeCrates a.crates p.items := by
  obtain h | h := h
  · rw [applyPosting_sale a h]; rfl
  · rw [applyPosting_ret a h]; rfl

/-- R30, R32: a DRAW and an ISSUE add the items. -/
theorem applyPosting_crates_given (h : p.kind = .draw ∨ p.kind = .issue) :
    (applyPosting p a).crates = giveCrates a.crates p.items := by
  obtain h | h := h
  · rw [applyPosting_draw a h]; rfl
  · rw [applyPosting_issue a h]; rfl

/-- R31: a SETTLE moves no crates. -/
theorem applyPosting_crates_settle (h : p.kind = .settle) : (applyPosting p a).crates = a.crates := by
  obtain hz | hpos := Nat.eq_zero_or_pos p.amount
  · rw [applyPosting_settle_zero a h hz]
  · rw [applyPosting_settle_pos a h hpos]; rfl

/-- A posting that is no TRANSFER takes crates, adds crates, or moves none. -/
theorem applyPosting_crates_cases (h : p.kind ≠ .transfer) :
    (p.kind = .settle ∧ (applyPosting p a).crates = a.crates) ∨
    ∃ f, (applyPosting p a).crates = updateCrates f p.items a.crates := by
  cases hk : p.kind with
  | sale => exact .inr ⟨_, (applyPosting_crates_taken a (.inl hk)).trans (takeCrates_eq_updateCrates ..)⟩
  | ret => exact .inr ⟨_, (applyPosting_crates_taken a (.inr hk)).trans (takeCrates_eq_updateCrates ..)⟩
  | draw => exact .inr ⟨_, (applyPosting_crates_given a (.inl hk)).trans (giveCrates_eq_updateCrates ..)⟩
  | issue => exact .inr ⟨_, (applyPosting_crates_given a (.inr hk)).trans (giveCrates_eq_updateCrates ..)⟩
  | settle => exact .inl ⟨rfl, applyPosting_crates_settle a hk⟩
  | transfer => exact absurd hk h

/-- R29: only a SALE, or a TRANSFER, changes the unmatched crates. -/
theorem applyPosting_unmatched (ht : p.kind ≠ .transfer) (hs : p.kind ≠ .sale) : (applyPosting p a).unmatched = a.unmatched := by
  cases hk : p.kind with
  | sale => exact absurd hk hs
  | ret => rw [applyPosting_ret a hk]; rfl
  | draw => rw [applyPosting_draw a hk]; rfl
  | issue => rw [applyPosting_issue a hk]; rfl
  | settle =>
    obtain hz | hpos := Nat.eq_zero_or_pos p.amount
    · rw [applyPosting_settle_zero a hk hz]
    · rw [applyPosting_settle_pos a hk hpos]; rfl
  | transfer => exact absurd hk ht

/-- R29: the crates of a SALE that the record does not hold join its unmatched crates. -/
theorem applyPosting_unmatched_sale (h : p.kind = .sale) (hu : a.unmatched ≤ 65535) : (applyPosting p a).unmatched =
    min 65535 (a.unmatched + (p.items.map fun i => i.count - crateCount a.crates i.ctype).sum) := by
  rw [applyPosting_sale a h]
  simp only [applySale, count_sub_cratesMet]
  exact foldl_addCrates _ _ hu

end

/-! ### Balance and flags after a posting (R15, R18) -/

/-- What `b` shows of a balance addition that comes to `sum`: the balance with its ends, SATURATED and OVERDRAWN by the flags before it
(R15, R18). -/
def BalanceChanged (b : Account) (sum : Int) (saturated unchecked overdrawn : Bool) : Prop :=
  b.balance = max (-999999999) (min 999999999 sum) ∧
  (b.saturated = true ↔ saturated = true ∨ sum < -999999999 ∨ 999999999 < sum) ∧
  b.overdrawn = (decide (b.balance < b.floor) && (unchecked || overdrawn))

/-- A record that is a balance addition in its balance, floor and flags shows it. -/
theorem balanceChanged_of_addBalance {k : DebitKind} {change : Int} {a b : Account} (hbal : b.balance = (addBalance k change a).balance)
    (hfloor : b.floor = a.floor) (hsat : b.saturated = (addBalance k change a).saturated)
    (hover : b.overdrawn = (addBalance k change a).overdrawn) :
    BalanceChanged b (a.balance + change) a.saturated (decide (k = .unchecked)) a.overdrawn := by
  refine ⟨hbal.trans (addBalance_balance k change a), ?_, ?_⟩
  · rw [hsat]; exact addBalance_saturated_iff k change a
  · rw [hover, hbal, hfloor]; exact addBalance_overdrawn k change a

section
variable {p : Posting} (a : Account)

theorem applyPosting_balance_sale (h : p.kind = .sale) : BalanceChanged (applyPosting p a)
    (a.balance + (p.amount + metDeposits a.crates p.items)) a.saturated false a.overdrawn := by
  rw [applyPosting_sale a h]
  exact balanceChanged_of_addBalance (k := .other) rfl rfl rfl rfl

theorem applyPosting_balance_ret (h : p.kind = .ret) : BalanceChanged (applyPosting p a)
    (a.balance + metDeposits a.crates p.items) a.saturated false a.overdrawn := by
  rw [applyPosting_ret a h]
  exact balanceChanged_of_addBalance (k := .other) rfl rfl rfl rfl

theorem applyPosting_balance_draw (h : p.kind = .draw) :
    BalanceChanged (applyPosting p a) (a.balance - p.amount) a.saturated true a.overdrawn := by
  rw [applyPosting_draw a h]
  exact balanceChanged_of_addBalance (k := .unchecked) rfl rfl rfl rfl

theorem applyPosting_balance_issue (h : p.kind = .issue) :
    BalanceChanged (applyPosting p a) (a.balance - p.amount) a.saturated false a.overdrawn := by
  rw [applyPosting_issue a h]
  exact balanceChanged_of_addBalance (k := .other) rfl rfl rfl rfl

theorem applyPosting_balance_settle (h : p.kind = .settle) (hpos : 0 < p.amount) :
    BalanceChanged (applyPosting p a) (a.balance - p.amount) a.saturated true a.overdrawn := by
  rw [applyPosting_settle_pos a h hpos]
  exact balanceChanged_of_addBalance (k := .unchecked) rfl rfl rfl rfl

/-- R34: the carried flags are combined first; a negative carried balance is an unchecked debit. -/
theorem applyPosting_balance_transfer {t : TransferPart} (h : p.kind = .transfer) (ht : p.transfer = some t) :
    BalanceChanged (applyPosting p a) (a.balance + t.balance) (a.saturated || t.saturated) (decide (t.balance < 0))
      (a.overdrawn || t.overdrawn) := by
  rw [applyPosting_transfer a h ht]
  have hkind : decide (t.balance < 0) = decide ((if t.balance < 0 then DebitKind.unchecked else .other) = .unchecked) := by
    by_cases hneg : t.balance < 0 <;> simp [hneg]
  rw [hkind]
  exact balanceChanged_of_addBalance
    (a := { a with saturated := a.saturated || t.saturated, overdrawn := a.overdrawn || t.overdrawn }) rfl rfl rfl rfl

end

/-! ### Carried holds (R35) -/

theorem findHold_append_other {hs : List Hold} {h : Hold} {k : Ident} (hk : h.key ≠ k) :
    findHold (hs ++ [h]) k = findHold hs k := by
  simp [findHold, List.find?_append, hk]

/-- Holds with new keys of their own are adopted while the table has room, and dropped once it is full. -/
theorem adoptHolds_new (acct : Nat) {cs : List CarriedHold} {hs : List Hold} (hn : (cs.map (·.key)).Nodup)
    (hnew : ∀ c ∈ cs, findHold hs c.key = none) (hroom : hs.length ≤ 24) :
    adoptHolds acct cs hs =
      (hs ++ (cs.take (24 - hs.length)).map (fun c => ⟨c.key, acct, c.remaining, c.remaining, c.life, 0⟩),
        hs.length + cs.length - 24) := by
  induction cs generalizing hs with
  | nil => simp [adoptHolds]; omega
  | cons c cs ih =>
    simp only [List.map_cons, List.nodup_cons, List.mem_map, not_exists, not_and] at hn
    simp only [List.mem_cons, forall_eq_or_imp] at hnew
    obtain ⟨hc, hn⟩ := hn
    obtain ⟨hcnew, hnew⟩ := hnew
    by_cases hfull : hs.length < 24
    · have hrest := ih (hs := hs ++ [⟨c.key, acct, c.remaining, c.remaining, c.life, 0⟩]) hn
        (fun d hd => (findHold_append_other (hc d hd ·.symm)).trans (hnew d hd)) (by simpa using hfull)
      have htake : 24 - hs.length = 24 - (hs.length + 1) + 1 := by omega
      simp only [adoptHolds, hcnew, Option.isSome_none, Bool.false_eq_true, if_false, hfull, if_true, hrest, List.length_append,
        List.length_cons, List.length_nil, htake, List.take_succ_cons, List.map_cons, List.append_assoc, List.cons_append,
        List.nil_append, Prod.mk.injEq, true_and]
      omega
    · have hlen : hs.length = 24 := by omega
      simp [adoptHolds, hcnew, ih hn hnew hroom, hlen]

/-- Settles O38: the balance by the kind's addition, the crates by its change of each item's type. -/
theorem postingEffects : Obligations.PostingEffects := by
  refine ⟨fun p a hlen hu => ?_, fun acct cs hs => adoptHolds_new acct⟩
  intro b changed
  obtain ⟨hnumber, hstate, hfloor, hlast⟩ := applyPosting_frame p a
  have hchanged {sum : Int} {saturated unchecked overdrawn : Bool} :
      BalanceChanged b sum saturated unchecked overdrawn → changed sum saturated unchecked overdrawn := by
    rintro ⟨hbal, hsat, hover⟩
    exact ⟨hbal, hsat, hfloor ▸ hover⟩
  refine ⟨⟨hnumber, hstate, hfloor, hlast⟩, fun hn hty hkind => ?_, fun t hk ht htlen => ?_⟩
  · have hty' : ∀ i ∈ p.items, 1 ≤ i.ctype ∧ i.ctype ≤ a.crates.length := by rwa [hlen]
    refine ⟨?_, fun hk => ⟨hchanged (applyPosting_balance_sale a hk), applyPosting_unmatched_sale a hk hu⟩,
      fun hk => hchanged (applyPosting_balance_ret a hk), fun hk => hchanged (applyPosting_balance_draw a hk),
      fun hk => hchanged (applyPosting_balance_issue a hk), fun hk hpos => hchanged (applyPosting_balance_settle a hk hpos),
      applyPosting_settle_zero a, applyPosting_unmatched a hkind, fun hk i hi => ?_, fun hk i hi => ?_,
      applyPosting_crates_settle a, fun hk ty hlo _ hne => ?_⟩
    · obtain ⟨-, h⟩ | ⟨f, h⟩ := applyPosting_crates_cases a hkind
      · rw [h, hlen]
      · rw [h, updateCrates_length, hlen]
    · rw [applyPosting_crates_taken a hk, takeCrates_eq_updateCrates, crateCount_updateCrates_mem hn hty' i hi, cratesMet]
    · rw [applyPosting_crates_given a hk, giveCrates_eq_updateCrates, crateCount_updateCrates_mem hn hty' i hi, addCrates]
    · obtain ⟨h, -⟩ | ⟨f, h⟩ := applyPosting_crates_cases a hkind
      · exact absurd h hk
      · rw [h, crateCount_updateCrates_other (fun i hi => (hty i hi).1) hlo hne]
  · refine ⟨hchanged (applyPosting_balance_transfer a hk ht), ?_, fun ty hlo hhi => ?_⟩
    · simp only [b, applyPosting_transfer a hk ht]; rfl
    · simp only [b, applyPosting_transfer a hk ht]
      exact crateCount_zipWith_addCrates (hlen.trans htlen.symm) hlo (by omega)

/-! ### A POST at the front of the book's queue (R17, R23 to R27) -/

/-- R23: the answer to the entry in hand, when a request of the line finds a place for it. -/
theorem bookReply_eq_bookReplied {r : BookReq} {s : State} (h : LineFor r.src s) (k : ReqKind) (acct : Nat) (c : AnsCode) (d : AnsData) :
    bookReply r k (.account acct) c d s = bookReplied r k acct c d (endBookHand s) := by
  obtain ⟨src, ask⟩ := r
  cases src with
  | line node seq =>
    obtain ⟨hactive, hroom⟩ := h node seq rfl
    simp only [bookReply, placingOf_active hactive hroom, placeMsg_active _ hactive hroom]
    rfl
  | own seq => rfl
  | port => rfl

/-- R23: the book takes the POST at the front of its queue in hand and decides it. -/
theorem exec_bookTakePost {s : State} {src : Src} {x : Parsed Posting} {rest : List BookReq}
    (h : BookFront ⟨src, .post x⟩ rest s) :
    exec .bookTakePost s = .next (decidePost ⟨src, .post x⟩ x (bookHeld ⟨src, .post x⟩ rest s)) :=
  congrArg Host.Outcome.next (takeBook_front (f := takePost) h.1 h.2 rfl)

/-- R25 to R27, R32: a posting above the watermark of its origin, for an OPEN account, is refused as an ISSUE that is not allowed, or its
commit is placed. -/
theorem decidePost_open {s : State} {p : Posting} {a : Account} (r : BookReq) (habove : aboveMark s p.id = true)
    (hacct : accountOf s p.account = some a) (hopen : a.state = .opened) :
    decidePost r (.ok p) s =
      if p.kind = .issue ∧ debitAllowed s.book.holds a p.amount = false then replyPost r p .refusedFunds .none s
      else placeGroup .bookPost [.account p.account (.post p), .origin p.id] s := by
  have hanswer : stateAnswer s p.account = none := by simp [stateAnswer, hacct, hopen]
  simp [decidePost, habove, hanswer, hacct]

/-- R17: a debit that is allowed, from a balance in its range, does not meet an end of the range: it stays at or above the floor and the
remaining amounts of the holds. -/
theorem applyPosting_issue_allowed {p : Posting} {a : Account} {hs : List Hold} (hk : p.kind = .issue) (hfloor : -999999999 ≤ a.floor)
    (hmax : a.balance ≤ 999999999) (hallowed : a.floor ≤ availableFunds hs a - p.amount) :
    (applyPosting p a).balance = a.balance - p.amount ∧ (applyPosting p a).saturated = a.saturated ∧
      a.floor + heldFunds hs a.number ≤ (applyPosting p a).balance := by
  unfold availableFunds at hallowed
  obtain ⟨hbal, hsat⟩ := addBalance_within .other (change := -(p.amount : Int)) (a := a) (by omega) (by omega)
  rw [applyPosting_issue a hk]
  simp only [applyIssue, hbal, hsat, true_and]
  omega

/-- Settles O37, by whether the checked debit is allowed. -/
theorem issueIsCheckedDebit : Obligations.IssueIsCheckedDebit := by
  intro s src p rest a r hfront hk habove hacct hopen hfloor hmax
  have hdecide := decidePost_open (s := bookHeld r rest s) r habove hacct hopen
  rw [exec_bookTakePost hfront, hdecide]
  refine ⟨fun hline hshort => ?_, fun hlist hallowed => ?_, applyPosting_issue_allowed hk hfloor hmax⟩
  · have hno : debitAllowed s.book.holds a p.amount = false := by
      rw [Bool.eq_false_iff, ne_eq, debitAllowed_iff]; omega
    rw [if_pos ⟨hk, hno⟩]
    exact congrArg Host.Outcome.next (bookReply_eq_bookReplied hline ..)
  · have hyes : debitAllowed s.book.holds a p.amount = true := (debitAllowed_iff ..).2 hallowed
    rw [if_neg fun h => by simpa [bookHeld, hyes] using h.2]
    exact congrArg Host.Outcome.next (placeGroup_room hlist.1 hlist.2 nofun)

end Sys2Proof.Machine
end

section
/-! The sizes of the tables and queues, block by block, and what each operation of the model does to them (R21, R22, R41, R51, R54, R66, R76,
R77, R84, R89, R107, R114, R118, R126, R129, R131, R133, R140, R149, R158, R183, R186). -/

namespace Sys2Proof.Machine
open Sys2Proof

/-! ### The sizes by block -/

def StoreSizes (st : Store) : Prop := st.slots.length = 256 ∧ st.list.length ≤ 8 ∧ st.damaged.length ≤ 8

/-- The line's sizes in line state `ls`: messages stand in the send queue only in ANNOUNCE and ACTIVE. -/
def LifSizes (ls : LineState) (l : Lif) : Prop :=
  l.state = ls ∧ l.queue.length ≤ 24 ∧ l.reserve.length ≤ 4 ∧ l.peers.length ≤ 62 ∧ (ls ≠ .announce → ls ≠ .active → l.queue = [])

def BookSizes (b : Book) : Prop := b.queue.length ≤ 16 ∧ b.holds.length ≤ 24 ∧ b.accounts.length ≤ 128

def ExcSizes (x : Exc) : Prop := x.entries.length + x.free.length ≤ 32 ∧ x.homeMap.length ≤ 16

/-- The lots have different numbers, and with a WEIGH in hand the table has a place left. -/
def LotSizes (weighing : Bool) (ls : List Lot) : Prop :=
  ls.length ≤ 16 ∧ (ls.map (·.number)).Nodup ∧ (weighing = true → ls.length < 16)

def WguSizes (w : Wgu) : Prop :=
  w.window.length ≤ 8 ∧ w.history.length ≤ 16 ∧ w.lotQ.length ≤ 8 ∧ LotSizes w.weigh.isSome w.lots

def CluSizes (c : Clu) : Prop := c.desks.length = 32 ∧ c.queue.length + c.claims.length ≤ 12 ∧ c.sales.length ≤ 32

def CgtSizes (c : Cgt) : Prop := c.blocked.length ≤ 32 ∧ ∀ b, c.batch = some b → b.tags.length ≤ 64

/-- `WithinSizes`, block by block, of a state in line state `ls`: what every operation keeps that does not itself change the line state. -/
structure Sized (ls : LineState) (s : State) : Prop where
  store : StoreSizes s.store
  lif : LifSizes ls s.lif
  book : BookSizes s.book
  exc : ExcSizes s.exc
  wgu : WguSizes s.wgu
  scale : s.wgu.weigh.isSome = true → s.port.role = some .scale
  clu : CluSizes s.clu
  cgt : CgtSizes s.cgt

protected theorem Sized.within {ls : LineState} {s : State} (h : Sized ls s) : WithinSizes s := by
  obtain ⟨⟨hslots, hlist, hdamaged⟩, ⟨rfl, hqueue, hreserve, hpeers, hquiet⟩, ⟨hbook, hholds, haccounts⟩, ⟨hentries, hmap⟩,
    ⟨hwindow, hhistory, hlotQ, hlots, hnumbers, hplace⟩, hscale, ⟨hdesks, hclaims, hsales⟩, ⟨hblocked, htags⟩⟩ := h
  exact
    { slots := hslots, requests := hlist, queue := hqueue, reserve := hreserve, bookQueue := hbook, holds := hholds, desks := hdesks
      lotQ := hlotQ, blocked := hblocked, window := hwindow, history := hhistory, homeMap := hmap, accounts := haccounts
      entries := hentries, lots := hlots, lotQueue := hclaims, sales := hsales, peers := hpeers, tags := htags, damaged := hdamaged
      lotNumbers := hnumbers, weighing := fun hw => ⟨hscale hw, hplace hw⟩, quiet := hquiet }

protected theorem WithinSizes.sized {s : State} (h : WithinSizes s) : Sized s.lif.state s where
  store := ⟨h.slots, h.requests, h.damaged⟩
  lif := ⟨rfl, h.queue, h.reserve, h.peers, h.quiet⟩
  book := ⟨h.bookQueue, h.holds, h.accounts⟩
  exc := ⟨h.entries, h.homeMap⟩
  wgu := ⟨h.window, h.history, h.lotQ, h.lots, h.lotNumbers, fun hw => (h.weighing hw).2⟩
  scale := fun hw => (h.weighing hw).1
  clu := ⟨h.desks, h.lotQueue, h.sales⟩
  cgt := ⟨h.blocked, h.tags⟩

variable {ls : LineState} {s : State}

/-! ### Updates of one block -/

protected theorem Sized.onSys (h : Sized ls s) (f : Sys → Sys) : Sized ls (s.onSys f) :=
  ⟨h.store, h.lif, h.book, h.exc, h.wgu, h.scale, h.clu, h.cgt⟩

protected theorem Sized.onNode (h : Sized ls s) (f : NodeRec → NodeRec) : Sized ls (s.onNode f) :=
  ⟨h.store, h.lif, h.book, h.exc, h.wgu, h.scale, h.clu, h.cgt⟩

protected theorem Sized.onIcm (h : Sized ls s) (f : Icm → Icm) : Sized ls (s.onIcm f) :=
  ⟨h.store, h.lif, h.book, h.exc, h.wgu, h.scale, h.clu, h.cgt⟩

protected theorem Sized.onPort (h : Sized ls s) {f : Port → Port} (hf : (f s.port).role = s.port.role) : Sized ls (s.onPort f) :=
  ⟨h.store, h.lif, h.book, h.exc, h.wgu, fun hw => hf.trans (h.scale hw), h.clu, h.cgt⟩

protected theorem Sized.onStore (h : Sized ls s) {f : Store → Store} (hf : StoreSizes (f s.store)) : Sized ls (s.onStore f) :=
  ⟨hf, h.lif, h.book, h.exc, h.wgu, h.scale, h.clu, h.cgt⟩

protected theorem Sized.onLif (h : Sized ls s) {f : Lif → Lif} {ls' : LineState} (hf : LifSizes ls' (f s.lif)) : Sized ls' (s.onLif f) :=
  ⟨h.store, hf, h.book, h.exc, h.wgu, h.scale, h.clu, h.cgt⟩

protected theorem Sized.onBook (h : Sized ls s) {f : Book → Book} (hf : BookSizes (f s.book)) : Sized ls (s.onBook f) :=
  ⟨h.store, h.lif, hf, h.exc, h.wgu, h.scale, h.clu, h.cgt⟩

protected theorem Sized.onExc (h : Sized ls s) {f : Exc → Exc} (hf : ExcSizes (f s.exc)) : Sized ls (s.onExc f) :=
  ⟨h.store, h.lif, h.book, hf, h.wgu, h.scale, h.clu, h.cgt⟩

/-- A WEIGH comes into hand at a scale only. -/
protected theorem Sized.onWgu (h : Sized ls s) {f : Wgu → Wgu} (hf : WguSizes (f s.wgu))
    (hs : (f s.wgu).weigh.isSome = true → s.port.role = some .scale) : Sized ls (s.onWgu f) :=
  ⟨h.store, h.lif, h.book, h.exc, hf, hs, h.clu, h.cgt⟩

protected theorem Sized.onClu (h : Sized ls s) {f : Clu → Clu} (hf : CluSizes (f s.clu)) : Sized ls (s.onClu f) :=
  ⟨h.store, h.lif, h.book, h.exc, h.wgu, h.scale, hf, h.cgt⟩

protected theorem Sized.onCgt (h : Sized ls s) {f : Cgt → Cgt} (hf : CgtSizes (f s.cgt)) : Sized ls (s.onCgt f) :=
  ⟨h.store, h.lif, h.book, h.exc, h.wgu, h.scale, h.clu, hf⟩

/-! ### Tables -/

theorem insertKeyed_perm {α : Type} {key : α → Nat} {a : α} {l : List α} (h : ∀ x ∈ l, key x ≠ key a) :
    (insertKeyed key a l).Perm (a :: l) := by
  induction l with
  | nil => exact .refl _
  | cons x xs ih =>
    simp only [List.mem_cons, forall_eq_or_imp] at h
    unfold insertKeyed
    split
    · exact .refl _
    · rw [if_neg fun he => h.1 he.symm]
      exact ((ih h.2).cons x).trans (.swap a x xs)

/-- The rows of a table keep different keys. -/
theorem putKeyed_keys_nodup {α : Type} (key : α → Nat) (size : Nat) (a : α) {l : List α} (h : (l.map key).Nodup) :
    ((putKeyed key size a l).map key).Nodup := by
  obtain ⟨-, e⟩ | ⟨hk, -, e⟩ | ⟨-, -, e⟩ := putKeyed_cases key size a l <;> rw [e]
  · have hkeys : (l.map fun x => if key x = key a then a else x).map key = l.map key := by
      rw [List.map_map]
      exact List.map_congr_left fun x _ => by by_cases hx : key x = key a <;> simp [hx]
    rwa [hkeys]
  · rw [((insertKeyed_perm hk).map key).nodup_iff, List.map_cons, List.nodup_cons]
    exact ⟨by simpa using hk, h⟩
  · exact h

/-- A row that takes the place of another leaves the table as long as it was. -/
theorem putKeyed_length_of_mem {α : Type} (key : α → Nat) (size : Nat) {a : α} {l : List α} (h : ∃ x ∈ l, key x = key a) :
    (putKeyed key size a l).length = l.length := by
  obtain ⟨-, e⟩ | ⟨hn, -⟩ | ⟨hn, -⟩ := putKeyed_cases key size a l
  · rw [e, List.length_map]
  all_goals obtain ⟨x, hx, hk⟩ := h; exact absurd hk (hn x hx)

theorem LotSizes.idle {b : Bool} {l : List Lot} (h : LotSizes b l) : LotSizes false l := ⟨h.1, h.2.1, nofun⟩

theorem LotSizes.put {b : Bool} {l : List Lot} (h : LotSizes b l) (x : Lot) : LotSizes false (putLotIn x l) :=
  ⟨putKeyed_length_le _ x h.1, putKeyed_keys_nodup _ _ x h.2.1, nofun⟩

theorem LotSizes.replace {b : Bool} {l : List Lot} (h : LotSizes b l) {x : Lot} (hx : ∃ y ∈ l, y.number = x.number) :
    LotSizes b (putLotIn x l) := by
  have hlen : (putLotIn x l).length = l.length := putKeyed_length_of_mem Lot.number 16 hx
  exact ⟨hlen ▸ h.1, (h.put x).2.1, fun hb => hlen ▸ h.2.2 hb⟩

theorem LotSizes.filter {b : Bool} {l : List Lot} (h : LotSizes b l) (p : Lot → Bool) : LotSizes b (l.filter p) :=
  ⟨(List.length_filter_le ..).trans h.1, h.2.1.sublist (List.filter_sublist.map _),
    fun hb => (List.length_filter_le ..).trans_lt (h.2.2 hb)⟩

/-! ### The operations that the blocks share -/

protected theorem Sized.raise (h : Sized ls s) (f : Flag) : Sized ls (raise f s) := by
  unfold raise; split
  · exact h.onPort rfl
  · exact h.onSys _

/-- Whether a message is the JOIN of an ANNOUNCE. -/
def isJoin (m : Msg) : Bool := match m.body with | .join .. => true | _ => false

theorem LifSizes.enqueue {l : Lif} (h : LifSizes ls l) (hst : ls = .announce ∨ ls = .active) (hroom : l.queue.length < 24) (m : Msg)
    (n : Nat) : LifSizes ls { l with queue := insertMsg m l.queue, stamp := n } := by
  obtain ⟨hs, -, hreserve, hpeers, -⟩ := h
  exact ⟨hs, by simpa using hroom, hreserve, hpeers, fun ha hb => (hst.elim ha hb).elim⟩

protected theorem Sized.enqueueMsg (h : Sized ls s) (hst : ls = .announce ∨ ls = .active) (hroom : s.lif.queue.length < 24) (m : Msg) :
    Sized ls (enqueueMsg m s) :=
  h.onLif (h.lif.enqueue hst hroom _ _)

protected theorem Sized.placeMsg (h : Sized ls s) (e : Ends) {m : Msg} (hm : isJoin m = false) : Sized ls (placeMsg e m s) := by
  obtain ⟨hp, he⟩ | ⟨-, he⟩ | ⟨-, he⟩ := placeMsg_cases e m s <;> rw [he]
  · have hs : s.lif.state = ls := h.lif.1
    have htaken : s.lif.state = .active ∧ sendRoom s = true := by
      unfold placingOf at hp
      unfold isJoin at hm
      split at hp
      · exact ⟨‹_›, by simpa using hp⟩
      · split at hp
        · rename_i hb; rw [hb] at hm; cases hm
        · cases hp
      · cases hp
    refine h.enqueueMsg (.inr (hs ▸ htaken.1)) ?_ m
    have hroom := htaken.2
    simp only [sendRoom, decide_eq_true_eq] at hroom
    omega
  · exact h.onLif h.lif
  · exact h

protected theorem Sized.reserveMsg (h : Sized ls s) (d : Bool) (m : Msg) : Sized ls (reserveMsg d m s) := by
  obtain ⟨hs, hqueue, hreserve, hpeers, hquiet⟩ := h.lif
  have hlen := reserveMsg_length d m s hreserve
  have hkeeps : ∃ r n c, reserveMsg d m s = s.onLif fun l => { l with reserve := r, stamp := n, cnt := c } := by
    unfold reserveMsg
    dsimp only
    split
    · exact ⟨_, _, _, rfl⟩
    · split
      · split <;> exact ⟨_, _, _, rfl⟩
      · exact ⟨_, _, _, rfl⟩
  obtain ⟨r, n, c, e⟩ := hkeeps
  rw [e] at hlen ⊢
  exact h.onLif ⟨hs, hqueue, hlen, hpeers, hquiet⟩

protected theorem Sized.listRequest (h : Sized ls s) (hroom : s.store.list.length < 8) (r : Request) : Sized ls (listRequest r s) := by
  have hlist (r : Request) : StoreSizes { s.store with list := s.store.list ++ [r] } := ⟨h.store.1, by simpa using hroom, h.store.2.2⟩
  unfold listRequest; split
  · exact (h.onStore (f := fun _ => _) (hlist _)).onCgt (f := fun _ => _) h.cgt
  · exact h.onStore (hlist r)

protected theorem Sized.placeStore (h : Sized ls s) (r : Request) : Sized ls (placeStore r s) := by
  obtain ⟨-, e⟩ | ⟨-, hroom, e⟩ | ⟨-, -, e⟩ := placeStore_cases r s <;> rw [e]
  · exact h
  · simp only [listRoom, decide_eq_true_eq] at hroom
    exact h.listRequest (by omega) r
  · exact h.onStore h.store

protected theorem Sized.placeGroup (h : Sized ls s) (o : Owner) (ws : List RecWrite) : Sized ls (placeGroup o ws s) := h.placeStore _

protected theorem Sized.placeRemoval (h : Sized ls s) (o : Owner) (k : RecKey) : Sized ls (placeRemoval o k s) := h.placeStore _

protected theorem Sized.compose (h : Sized ls s) (c : PCode) (d : PData) : Sized ls (compose c d s) := h.onPort (f := fun _ => _) rfl

protected theorem Sized.carryAnswer (h : Sized ls s) : Sized ls (carryAnswer s) := by
  unfold carryAnswer releaseRead; split
  · exact (h.onPort rfl).onWgu h.wgu h.scale
  · exact h.onPort rfl

/-- A frame keeps the sizes where its owner does, with its role in service. -/
protected theorem WithinSizes.frame (h : WithinSizes s) (ok : Bool) {role : Option Role} {owner : State → State × Reply}
    (ho : ∀ t, WithinSizes t → (role.isSome = true → role = t.port.role) → WithinSizes (owner t).1) :
    WithinSizes (frame ok role owner s) := by
  have hc := h.sized.carryAnswer
  unfold frame
  split
  · exact h
  · dsimp only
    split
    · exact (hc.onPort rfl).within
    · split
      · exact (hc.compose ..).within
      · split
        · exact (hc.compose ..).within
        · rename_i hrole
          exact ((ho _ hc.within (by simpa using hrole)).sized.compose ..).within

protected theorem Sized.faultedFrame (h : Sized ls s) (f : PortFault) : Sized ls (faultedFrame f s) := by
  unfold faultedFrame; split
  · exact h
  · exact (h.carryAnswer.onPort rfl).onPort rfl

end Sys2Proof.Machine
end

section
/-! The sizes at the Book Store and at a start-up. -/

namespace Sys2Proof.Machine
open Sys2Proof

variable {ls : LineState} {s : State}

/-! ### The Book Store -/

theorem StoreSizes.onSlot {st : Store} (h : StoreSizes st) (i : Nat) (f : Slot → Slot) : StoreSizes (st.onSlot i f) :=
  ⟨by simpa [Store.onSlot] using h.1, h.2⟩

protected theorem Sized.noteFall (h : Sized ls s) (n : Nat) : Sized ls (noteFall n s) := by
  unfold noteFall; split
  · exact h.raise _
  · exact h

protected theorem Sized.retireSlot (h : Sized ls s) (i : Nat) : Sized ls (retireSlot i s) := (h.onStore (h.store.onSlot ..)).raise _

protected theorem Sized.countResult (h : Sized ls s) (r : StoreRes) : Sized ls (countResult r s) := by
  cases r with
  | done => exact h
  | full _ => exact .raise (h.onStore h.store) _
  | fault _ => exact .raise (h.onStore h.store) _

protected theorem Sized.endRequest (h : Sized ls s) (r : StoreRes) : Sized ls (endRequest r s).1 := by
  obtain ⟨hslots, hlist, hdamaged⟩ := h.store
  unfold endRequest
  dsimp only
  split <;> dsimp only
  · exact (h.onStore ⟨hslots, by simp only [List.length_tail]; omega, hdamaged⟩).countResult r
  · exact h.onStore h.store

protected theorem Sized.setOp (h : Sized ls s) (o : StoreOp) : Sized ls (setOp o s) := h.onStore h.store

protected theorem Sized.beginWrite (h : Sized ls s) (n : Nat) (w : RecWrite) : Sized ls (beginWrite n w s).1 := by
  unfold beginWrite
  dsimp only
  split
  · exact h.endRequest _
  · split
    · exact h.setOp _
    · split
      · exact h.setOp _
      · exact h.endRequest _

protected theorem Sized.nextWrite (h : Sized ls s) (n : Nat) : Sized ls (nextWrite n s).1 := by
  unfold nextWrite; split
  · exact h.beginWrite ..
  · exact h.endRequest _

protected theorem Sized.noteRenamed (h : Sized ls s) : Sized ls (noteRenamed s) := by
  unfold noteRenamed; split
  · exact h.onExc ⟨by simpa using h.exc.1, h.exc.2⟩
  · exact h

protected theorem Sized.noteWritten (h : Sized ls s) (w : RecWrite) (c : Copy) : Sized ls (noteWritten w c s) := by
  unfold noteWritten; split
  · exact h.onNode fun _ => _
  · exact h.onClu ⟨h.clu.1, h.clu.2.1, by simpa using h.clu.2.2⟩
  · exact h.noteRenamed
  · exact h.onBook ⟨h.book.1, h.book.2.1, by simpa using h.book.2.2⟩
  · exact h

protected theorem Sized.slotWritten (h : Sized ls s) (i : Nat) (c : Copy) : Sized ls (slotWritten i c s) := by
  unfold slotWritten
  refine (h.onStore ?_).noteFall _
  dsimp only
  split
  · exact (h.store.onSlot ..).onSlot ..
  · exact h.store.onSlot ..

protected theorem Sized.slotFailed (h : Sized ls s) (i : Nat) : Sized ls (slotFailed i s) := (h.onStore h.store).retireSlot i

protected theorem Sized.nextRemoval (h : Sized ls s) (k : RecKey) : Sized ls (nextRemoval k s).1 := by
  unfold nextRemoval; split
  · exact h.setOp _
  · split
    · exact (h.onStore (h.store.onSlot ..)).setOp _
    · exact h.endRequest _

protected theorem Sized.slotErased (h : Sized ls s) (i : Nat) (v : Bool) : Sized ls (slotErased i v s) := by
  unfold slotErased; split
  · exact h.onStore (h.store.onSlot ..)
  · exact (h.onStore h.store).retireSlot i

/-! ### Start-up begins -/

protected theorem Sized.cutOperation (h : Sized ls s) : Sized ls (cutOperation s) := by
  unfold cutOperation
  dsimp only
  split
  · exact h
  · exact (h.onSys _).onStore (h.store.onSlot ..)
  · exact (h.onSys _).onStore (h.store.onSlot ..)
  · exact (h.onSys _).onStore h.store

/-- The sizes hold right after reset, which leaves the store's slots and damaged list as they stood. -/
theorem sized_cleared {s : State} (hstore : StoreSizes s.store) (hlif : s.lif = {}) (hbook : s.book = Book.initial)
    (hexc : s.exc = Exc.initial) (hwgu : s.wgu = Wgu.initial) (hclu : s.clu = Clu.initial) (hcgt : s.cgt = {}) : Sized .offline s where
  store := hstore
  lif := by rw [hlif]; exact ⟨rfl, Nat.zero_le _, Nat.zero_le _, Nat.zero_le _, fun _ _ => rfl⟩
  book := by rw [hbook]; exact ⟨Nat.zero_le _, Nat.zero_le _, Nat.zero_le _⟩
  exc := by rw [hexc]; exact ⟨by simp [Exc.initial], Nat.zero_le _⟩
  wgu := by rw [hwgu]; exact ⟨Nat.zero_le _, Nat.zero_le _, Nat.zero_le _, Nat.zero_le _, List.nodup_nil, nofun⟩
  scale := by rw [hwgu]; nofun
  clu := by rw [hclu]; exact ⟨by simp [Clu.initial], Nat.zero_le _, Nat.zero_le _⟩
  cgt := by rw [hcgt]; exact ⟨Nat.zero_le _, nofun⟩

protected theorem Sized.clearWorking (h : Sized ls s) (c : StartCause) (p : Phase) : Sized .offline (clearWorking c p s) :=
  sized_cleared ⟨h.store.1, Nat.zero_le _, h.store.2.2⟩ rfl rfl rfl rfl rfl rfl

protected theorem Sized.beginStartUp (h : Sized ls s) (c : StartCause) : Sized .offline (beginStartUp c s) := h.cutOperation.clearWorking ..

protected theorem Sized.eraseFrom (h : Sized ls s) (i : Nat) : WithinSizes (eraseFrom i s) := by
  unfold eraseFrom; split
  · exact Sized.within (ls := ls) (h.onStore (h.store.onSlot _ fun x => { x with state := .dirty }))
  · exact (Sized.beginStartUp (h.onStore h.store) _).within

protected theorem Sized.markErasure (h : Sized ls s) : Sized ls (markErasure s) := h.onStore ⟨h.store.1, Nat.zero_le _, h.store.2.2⟩

protected theorem Sized.goErase (h : Sized ls s) : WithinSizes (goErase s) := by
  unfold goErase; split
  · exact h.within
  · exact h.eraseFrom 0

/-! ### The STORE's steps -/

protected theorem Sized.takeRequest (h : Sized ls s) : Sized ls (takeRequest s).1 := by
  unfold takeRequest; split
  · exact h
  · split
    · exact h
    · have ht := h.onStore (f := fun st => { st with cur := some ‹_›, listed := true, idx := 0 }) h.store
      dsimp only
      split <;> [split; skip; split]
      · exact ht.endRequest _
      · exact ht.nextWrite _
      · exact ht.nextRemoval _
      · exact ht.setOp _
      · exact ht.endRequest _

protected theorem Sized.writeEnd (h : Sized ls s) (v : Bool) : WithinSizes (writeEnd v s).1 := by
  unfold writeEnd; split
  · rename_i i c attempt _
    split
    · refine Sized.eraseFrom (ls := ls) ?_ 0
      split
      · exact h.slotWritten i c
      · exact h.slotFailed i
    · split
      · have hw : Sized ls (match currentWrite s with | some w => noteWritten w c (slotWritten i c s) | none => slotWritten i c s) := by
          split
          · exact (h.slotWritten i c).noteWritten ..
          · exact h.slotWritten i c
        exact ((hw.onStore hw.store).nextWrite 1).within
      · have hf := h.slotFailed i
        dsimp only
        split
        · exact ((hf.onStore hf.store).nextWrite _).within
        · exact (hf.endRequest _).within
  · exact h.within

protected theorem Sized.eraseEnd (h : Sized ls s) (v : Bool) : WithinSizes (eraseEnd v s).1 := by
  unfold eraseEnd; split
  · rename_i i why attempt _
    have he := h.slotErased i v
    have hn := he.onStore (f := fun st => { st with op := none }) he.store
    dsimp only
    split
    · exact he.eraseFrom _
    · split
      · exact (hn.nextWrite _).within
      · exact (hn.nextRemoval _).within
      · exact (hn.endRequest _).within
      · exact hn.within
  · exact h.within

protected theorem Sized.calPageEnd (h : Sized ls s) (v : Bool) : WithinSizes (calPageEnd v s).1 := by
  unfold calPageEnd; split
  · rename_i f _
    have hp := h.onStore (f := fun st => { st with op := none, pages := writePage { fields := some f, marked := !v } st.pages }) h.store
    dsimp only
    split
    · refine Sized.eraseFrom (ls := ls) ?_ 0
      split
      · exact hp
      · exact hp.raise _
    · exact (hp.endRequest _).within
  · exact h.within

protected theorem Sized.backgroundStart (h : Sized ls s) : Sized ls (backgroundStart s) := by
  unfold backgroundStart
  dsimp only
  split
  · exact h
  · split
    · split
      · exact (h.onStore (f := fun st => { st with refresh := _, cur := _, listed := false, idx := 0 }) h.store).nextWrite 1
      · exact h
    · split
      · exact h.setOp _
      · exact h

end Sys2Proof.Machine
end

section
/-! The sizes at the Exchange Controller, below the units. -/

namespace Sys2Proof.Machine
open Sys2Proof

variable {ls : LineState} {s : State}

/-! ### The Exchange Controller below the units -/

theorem findEntry_mem {q : Nat} {e : Entry} (h : findEntry s q = some e) : e ∈ s.exc.entries ∧ e.seq = q :=
  ⟨List.mem_of_find?_eq_some h, by simpa using List.find?_some h⟩

protected theorem Sized.refreshReady (h : Sized ls s) : Sized ls (refreshReady s) := h.onExc h.exc

protected theorem Sized.putEntry (h : Sized ls s) (e : Entry) : Sized ls (putEntry e s) :=
  .refreshReady (h.onExc ⟨by simpa using h.exc.1, h.exc.2⟩)

/-- An entry that leaves the table gives its place to the free ones. -/
protected theorem Sized.freePlace (h : Sized ls s) (q : Nat) : Sized ls (freePlace q s) := by
  unfold freePlace; split
  · rename_i hq
    obtain ⟨e, he⟩ := Option.isSome_iff_exists.1 hq
    obtain ⟨hmem, hseq⟩ := findEntry_mem he
    have hless : (s.exc.entries.filter fun e => e.seq != q).length < s.exc.entries.length :=
      List.length_filter_lt_length_iff_exists.2 ⟨e, hmem, by simp [hseq]⟩
    have hsum := h.exc.1
    exact .refreshReady (h.onExc ⟨by simp only [List.length_append, List.length_singleton]; omega, h.exc.2⟩)
  · exact h

protected theorem Sized.mapEnter (h : Sized ls s) (a n : Nat) : Sized ls (mapEnter a n s) := by
  have hmap := mapEnter_homeMap_le a n h.exc.2
  unfold mapEnter at hmap ⊢
  by_cases hn : n = s.self
  · rwa [if_pos hn]
  · rw [if_neg hn] at hmap ⊢
    refine h.onExc ⟨?_, hmap⟩
    dsimp only
    split <;> exact h.exc.1

protected theorem Sized.mapRemove (h : Sized ls s) (a : Nat) : Sized ls (mapRemove a s) :=
  h.onExc ⟨h.exc.1, (List.length_filter_le ..).trans h.exc.2⟩

protected theorem Sized.mapMoved (h : Sized ls s) (a n : Nat) : Sized ls (mapMoved a n s) := by
  unfold mapMoved; split
  · exact h.mapRemove a
  · exact h.mapEnter a n

/-! ### The book's queue -/

protected theorem Sized.bookEnter (h : Sized ls s) (hroom : s.book.queue.length < 16) (r : BookReq) : Sized ls (bookEnter r s) :=
  h.onBook ⟨by simpa using hroom, h.book.2⟩

theorem bookRoom_lt (h : bookRoom s = true) : s.book.queue.length < 16 := by
  simp only [bookRoom, decide_eq_true_eq] at h; omega

protected theorem Sized.bookEnterOwn (h : Sized ls s) (r : BookReq) : Sized ls (bookEnterOwn r s) := by
  unfold bookEnterOwn; split
  · exact h.bookEnter (bookRoom_lt ‹_›) r
  · exact h.onBook h.book

protected theorem Sized.countSend (h : Sized ls s) : Sized ls (countSend s) := h.onExc h.exc

protected theorem Sized.takeToken (h : Sized ls s) : Sized ls (takeToken s) := h.onExc h.exc

protected theorem Sized.handToBook (h : Sized ls s) (r : BookReq) : Sized ls (handToBook r s) := by
  refine Sized.bookEnterOwn ?_ r
  split
  · exact h.countSend
  · exact h

/-! ### Sending -/

protected theorem Sized.placeRequest (h : Sized ls s) {m : Msg} (hm : isJoin m = false) : Sized ls (placeRequest m s) := by
  have hp := h.placeMsg .nothing hm
  unfold placeRequest; split
  · rename_i ht
    rw [placeMsg, ht] at hp
    exact hp.countSend
  · exact hp

protected theorem Sized.sendEntry (h : Sized ls s) (e : Entry) : Sized ls (sendEntry e s) := by
  unfold sendEntry
  dsimp only
  split
  · exact h
  · split
    · split
      · exact (h.takeToken.putEntry _).handToBook _
      · exact h.takeToken.putEntry _
    · split
      · exact h.putEntry _
      · exact (h.takeToken.putEntry _).placeRequest rfl

protected theorem Sized.placeLocate (h : Sized ls s) (e : Entry) (b : Bool) (ns : List Nat) (t : Option Nat) :
    Sized ls (placeLocate e b ns t s) := (h.takeToken.putEntry _).placeRequest rfl

protected theorem Sized.countSearch (h : Sized ls s) : Sized ls (countSearch s) := h.onExc h.exc

protected theorem Sized.beginSearch (h : Sized ls s) (e : Entry) (ns : List Nat) : Sized ls (beginSearch e ns s) := h.countSearch.placeLocate ..

protected theorem Sized.markSearch (h : Sized ls s) (e : Entry) : Sized ls (markSearch e s) := h.countSearch.putEntry _

/-! ### Resolution -/

protected theorem Sized.resolveWith (h : Sized ls s) {start : Entry → State → State} (hstart : ∀ e t, Sized ls t → Sized ls (start e t))
    (q : Nat) : Sized ls (resolveWith start q s).1 := by
  unfold resolveWith; split
  · rename_i e _
    split
    · exact h
    · split
      · exact h.putEntry _
      · split
        · rename_i acct _ _
          split
          · rename_i n moved fromMap _
            have hmap : Sized ls (if fromMap then mapEnter acct n s else s) := by
              split
              · exact h.mapEnter ..
              · exact h
            dsimp only
            split
            · exact hmap.freePlace q
            · exact hmap.putEntry _
          · exact h.putEntry _
          · split
            · exact hstart e s h
            · exact h.putEntry _
        · exact h
  · exact h

protected theorem Sized.resolveEntry (h : Sized ls s) (q : Nat) : Sized ls (resolveEntry q s).1 :=
  h.resolveWith (fun e _ ht => ht.beginSearch e []) q

/-! ### Creation -/

theorem foldl_putEntryIn_length_le (es l : List Entry) : (es.foldl (fun acc e => putEntryIn e acc) l).length ≤ l.length + es.length := by
  induction es generalizing l with
  | nil => simp
  | cons e es ih =>
    have hone := insertKeyed_length_le (·.seq) e l
    have hrest := ih (putEntryIn e l)
    simp only [List.foldl_cons, List.length_cons]
    unfold putEntryIn at hrest ⊢
    omega

/-- The entries that are made take as many of the free places. -/
protected theorem Sized.standEntries (h : Sized ls s) (r : CreateReq) (ps : List Posting) : Sized ls (standEntries r ps s).1 := by
  unfold standEntries
  refine List.foldlRecOn (motive := fun p : State × Option Nat => Sized ls p.1) _ _ (.refreshReady (h.onExc ⟨?_, h.exc.2⟩))
    fun p hp e _ => hp.resolveEntry _
  have hsum := h.exc.1
  have hput := foldl_putEntryIn_length_le (List.zipWith makeEntry (nextPlaces r s)
    (fillBodies ⟨s.self, s.sys.epoch, s.exc.holdNo⟩ r.items ps)) s.exc.entries
  have hmade : (List.zipWith makeEntry (nextPlaces r s) (fillBodies ⟨s.self, s.sys.epoch, s.exc.holdNo⟩ r.items ps)).length
      ≤ min r.items.length s.exc.free.length := by
    simp [nextPlaces]
  simp only [List.length_drop]
  omega

protected theorem Sized.advanceFor (h : Sized ls s) (j : ExcJob) : Sized ls (advanceFor j s).1 := by
  unfold advanceFor; split <;> dsimp only
  · exact .placeGroup (h.onExc h.exc) ..
  · exact h.onSys _

protected theorem Sized.startJob (h : Sized ls s) (j : ExcJob) : Sized ls (startJob j s).1 := by
  unfold startJob; split
  · exact h
  · split
    · exact h
    · cases j with
      | create r =>
        dsimp only
        split
        · exact h
        · split
          · exact h.advanceFor _
          · split
            · exact h.standEntries r []
            · exact .placeGroup (h.onExc h.exc) ..
      | reident q =>
        dsimp only
        split
        · exact h.advanceFor _
        · split
          · split
            · exact .placeGroup (h.onExc h.exc) ..
            · exact h
          · exact h

protected theorem Sized.takeCreate (h : Sized ls s) (r : CreateReq) : Sized ls (takeCreate r s).1 := by
  unfold takeCreate
  dsimp only
  split
  · exact Sized.onExc h (f := fun _ => _) h.exc
  · split
    · exact h
    · split
      · exact h
      · split
        · exact h
        · split
          · exact h.standEntries r []
          · split
            · exact Sized.onExc h (f := fun _ => _) h.exc
            · have hj := h.startJob (.create r)
              split <;> exact hj

protected theorem Sized.dropAsk (h : Sized ls s) (r : Ref) : Sized ls (dropAsk r s) := h.onExc h.exc

/-! ### Ends of entries -/

protected theorem Sized.placeOutRemoval (h : Sized ls s) (q : Nat) : Sized ls (placeOutRemoval q s) := by
  unfold placeOutRemoval; split
  · split
    · split
      · exact h
      · exact (h.putEntry _).placeRemoval ..
    · exact h
  · exact h

protected theorem Sized.giveUpEntry (h : Sized ls s) (e : Entry) : Sized ls (giveUpEntry e s) := h.putEntry _

protected theorem Sized.withdrawTransfer (h : Sized ls s) (a : Nat) : Sized ls (withdrawTransfer a s) := by
  unfold withdrawTransfer; split
  · exact (h.giveUpEntry _).placeOutRemoval _
  · exact h

protected theorem Sized.outRemoved (h : Sized ls s) (id : Ident) : Sized ls (outRemoved id s) := by
  unfold outRemoved; split
  · exact h.freePlace _
  · exact h

protected theorem Sized.excLineDown (h : Sized ls s) : Sized ls (excLineDown s) :=
  .refreshReady (.onExc (h.onBook h.book) ⟨by simpa using h.exc.1, h.exc.2⟩)

end Sys2Proof.Machine
end

section
/-! The sizes at the Weighing Unit. -/

namespace Sys2Proof.Machine
open Sys2Proof

variable {ls : LineState} {s : State}

/-! ### The Weighing Unit -/

/-- The lot table takes a list of lots, and nothing else of the unit's tables changes. -/
theorem WguSizes.lots {w : Wgu} (h : WguSizes w) {l : List Lot} (hl : LotSizes w.weigh.isSome l) : WguSizes { w with lots := l } :=
  ⟨h.1, h.2.1, h.2.2.1, hl⟩

protected theorem Sized.offerReading (h : Sized ls s) (r : Reading) : Sized ls (offerReading r s) := by
  have hkeeps : ∃ o t c, offerReading r s = s.onWgu fun w => { w with offered := o, waiting := t, cnt := c } := by
    unfold offerReading State.onWgu
    dsimp only
    split
    · exact ⟨_, _, _, rfl⟩
    · split <;> exact ⟨_, _, _, rfl⟩
  obtain ⟨o, t, c, e⟩ := hkeeps
  rw [e]
  exact h.onWgu h.wgu h.scale

theorem pushNewest_length (n : Nat) (l : List Int) (x : Int) : (pushNewest n l x).length ≤ n := by
  simp only [pushNewest, List.length_drop, List.length_append, List.length_singleton]; omega

protected theorem Sized.takeSample (h : Sized ls s) (c : BitVec 24) : Sized ls (takeSample c s) := by
  have hw : Sized ls (s.onWgu fun w =>
      { w with lossT := some 500, ctr := if w.ctr = 65535 then 0 else w.ctr + 1, window := pushNewest 8 w.window c.toInt }) :=
    h.onWgu ⟨pushNewest_length .., h.wgu.2⟩ h.scale
  unfold takeSample
  dsimp only
  split
  · exact hw.onWgu ⟨hw.wgu.1, pushNewest_length .., hw.wgu.2.2⟩ hw.scale
  · exact hw

protected theorem Sized.clearSamples (h : Sized ls s) : Sized ls (clearSamples s) :=
  h.onWgu ⟨Nat.zero_le _, Nat.zero_le _, h.wgu.2.2⟩ h.scale

/-! ### The lot table -/

/-- A lot that stands in the table takes new fields. -/
protected theorem Sized.putLot (h : Sized ls s) {n : Nat} {l l' : Lot} (hl : findLot s n = some l) (hn : l'.number = l.number) :
    Sized ls (putLot l' s) :=
  h.onWgu (h.wgu.lots (h.wgu.2.2.2.replace (hn ▸ (findLot_number hl).1))) h.scale

protected theorem Sized.lotEvent (h : Sized ls s) (n : Nat) (e : LotEvent) (c : Option Nat) : Sized ls (lotEvent n e c s) :=
  .raise (h.onWgu h.wgu h.scale) _

protected theorem Sized.decideNoRing (h : Sized ls s) (n : Nat) : Sized ls (decideNoRing n s) := by
  unfold decideNoRing; split
  · rename_i hl
    split
    · dsimp only
      split
      · exact h
      · exact .lotEvent (h.putLot hl (by rfl)) ..
    · exact h
  · exact h

protected theorem Sized.offerLot (h : Sized ls s) (n : Nat) : Sized ls (offerLot n s) := by
  unfold offerLot; split
  · rename_i hl
    split
    · exact .placeMsg (.decideNoRing (h.putLot hl (by rfl)) n) _ (by rfl)
    · exact h
  · exact h

protected theorem Sized.wguLineUp (h : Sized ls s) : Sized ls (wguLineUp s) :=
  List.foldlRecOn (motive := Sized ls) _ _ h fun _ ht n _ => ht.offerLot n

protected theorem Sized.wguPeerRemoved (h : Sized ls s) : Sized ls (wguPeerRemoved s) := by
  unfold wguPeerRemoved; split
  · exact List.foldlRecOn (motive := Sized ls) _ _ h fun _ ht n _ => ht.decideNoRing n
  · exact h

protected theorem Sized.withdrawNotices (h : Sized ls s) (n : Nat) : Sized ls (withdrawNotices n s) := h.onLif h.lif

protected theorem Sized.setLotState (h : Sized ls s) (n : Nat) (st : LotState) (u : Nat) : Sized ls (setLotState n st u s) := by
  unfold setLotState; split
  · rename_i hl
    split
    · exact h.putLot hl (by rfl)
    · exact .withdrawNotices (h.putLot hl (by rfl)) n
  · exact h

protected theorem Sized.removeLot (h : Sized ls s) (n : Nat) : Sized ls (removeLot n s) :=
  .withdrawNotices (h.onWgu (h.wgu.lots (h.wgu.2.2.2.filter _)) h.scale) n

/-! ### WEIGH -/

/-- The WEIGH in hand goes on. -/
protected theorem Sized.weighGoesOn (h : Sized ls s) {g : Weigh} (hg : s.wgu.weigh = some g) (g' : Weigh) :
    Sized ls (s.onWgu fun w => { w with weigh := some g' }) := by
  have hsome : s.wgu.weigh.isSome = true := by rw [hg]; rfl
  have hlots := h.wgu.2.2.2
  rw [hsome] at hlots
  exact h.onWgu ⟨h.wgu.1, h.wgu.2.1, h.wgu.2.2.1, hlots⟩ fun _ => h.scale hsome

protected theorem Sized.endWeigh (h : Sized ls s) (r : WeighResult) : Sized ls (endWeigh r s) := by
  refine .raise (h.onWgu ?_ (by nofun)) _
  exact ⟨h.wgu.1, h.wgu.2.1, h.wgu.2.2.1, h.wgu.2.2.2.idle⟩

/-- A lot joins the table as the WEIGH ends, which kept a place for it. -/
protected theorem Sized.endWeigh_putLot (h : Sized ls s) (r : WeighResult) (l : Lot) : Sized ls (endWeigh r (putLot l s)) := by
  refine .raise (s := s.onWgu _) (h.onWgu (f := fun w =>
    { w with
      lots := putLotIn l w.lots, weigh := none, result := some r
      cnt := { w.cnt with weighsDone := if r.code = .done then bump w.cnt.weighsDone else w.cnt.weighsDone
                          weighsFailed := if r.code = .done then w.cnt.weighsFailed else bump w.cnt.weighsFailed } }) ?_ nofun) _
  exact ⟨h.wgu.1, h.wgu.2.1, h.wgu.2.2.1, h.wgu.2.2.2.put l⟩

protected theorem Sized.beginRecording (h : Sized ls s) {g : Weigh} (hg : s.wgu.weigh = some g) (g' : Weigh) (home : Nat)
    (gross tare net : Int) : Sized ls (beginRecording g' home gross tare net s) :=
  .placeGroup (h.weighGoesOn hg _) ..

protected theorem Sized.capture (h : Sized ls s) {g : Weigh} (hg : s.wgu.weigh = some g) (f : CalFields) (home : Nat) (r : Reading) :
    Sized ls (capture f g home r s) := by
  unfold capture
  dsimp only
  split
  · exact h.endWeigh _
  · split
    · exact h.endWeigh _
    · split
      · exact h.endWeigh _
      · exact h.beginRecording hg ..

protected theorem Sized.examineReading (h : Sized ls s) : Sized ls (examineReading s) := by
  unfold examineReading; split
  · split
    · dsimp only
      split
      · exact h.capture ‹_› ..
      · exact h
    · exact h
  · exact h

protected theorem Sized.settlingEnds (h : Sized ls s) : Sized ls (settlingEnds s) := by
  unfold settlingEnds; split
  · split
    · exact h.endWeigh _
    · exact h
  · exact h

protected theorem Sized.weighLocated (h : Sized ls s) (q : Nat) (o : ExcOut) : Sized ls (weighLocated q o s) := by
  unfold weighLocated; split
  · split
    · dsimp only
      split
      · exact .examineReading (h.weighGoesOn ‹_› _)
      all_goals exact h.endWeigh _
    · exact h
  · exact h

protected theorem Sized.weighAsked (h : Sized ls s) (q : Nat) : Sized ls (weighAsked q s) := by
  unfold weighAsked; split
  · split
    · exact h.weighGoesOn ‹_› _
    · exact h
  · exact h

protected theorem Sized.wguLineDown (h : Sized ls s) : Sized ls (wguLineDown s) := by
  unfold wguLineDown; split
  · split
    · exact (h.dropAsk _).endWeigh _
    · exact h
  · exact h

protected theorem Sized.lotCreated (h : Sized ls s) (r : StoreRes) : Sized ls (lotCreated r s) := by
  unfold lotCreated; split
  · split
    · dsimp only
      split
      · exact (h.endWeigh_putLot ..).offerLot _
      · exact h.endWeigh _
      · exact h.endWeigh _
      · exact ((h.onNode _).endWeigh_putLot ..).offerLot _
    · exact h
  · exact h

/-! ### The lot request queue -/

protected theorem Sized.lotArrive (h : Sized ls s) (r : LotReq) : Sized ls (lotArrive r s) := by
  obtain ⟨hwindow, hhistory, -, hlots⟩ := h.wgu
  by_cases hroom : s.wgu.lotQ.length < 8
  · have e : lotArrive r s = s.onWgu fun w => { w with lotQ := w.lotQ ++ [r] } := by simp [lotArrive, State.onWgu, hroom]
    rw [e]
    exact h.onWgu ⟨hwindow, hhistory, by simpa using hroom, hlots⟩ h.scale
  · have e : lotArrive r s = s.onWgu fun w => { w with cnt := { w.cnt with droppedReqs := bump w.cnt.droppedReqs } } := by
      simp [lotArrive, State.onWgu, hroom]
    rw [e]
    exact h.onWgu h.wgu h.scale

protected theorem Sized.holdLotHand (h : Sized ls s) (r : LotReq) : Sized ls (holdLotHand r s) := h.onWgu h.wgu h.scale

protected theorem Sized.endLotHand (h : Sized ls s) : Sized ls (endLotHand s) := h.onWgu h.wgu h.scale

theorem isJoin_answerMsg (b : Block) (dst seq : Nat) (k : ReqKind) (sub : Subject) (c : AnsCode) (d : AnsData) :
    isJoin (answerMsg b dst seq k sub c d) = false := rfl

protected theorem Sized.answerLot (h : Sized ls s) (r : LotReq) (c : AnsCode) (d : AnsData) : Sized ls (answerLot r c d s) := by
  have hplaced {m : Msg} (hm : isJoin m = false) : Sized ls (match placingOf m s with
      | .waits => placeMsg .lotHand m (holdLotHand r s)
      | _ => endLotHand (placeMsg .lotHand m s)) := by
    split
    · exact (h.holdLotHand r).placeMsg _ hm
    · exact (h.placeMsg _ hm).endLotHand
  cases r with
  | claim src seq lot ok => exact hplaced (isJoin_answerMsg ..)
  | report src seq lot ok sold => exact hplaced (isJoin_answerMsg ..)
  | releaseLot n => exact h.endLotHand
  | reoffer n => exact h.endLotHand
  | delete n => exact h.endLotHand

protected theorem Sized.endLotCmd (h : Sized ls s) (c : ScaleCmd) (code : PCode) : Sized ls (endLotCmd c code s) :=
  .raise (.endLotHand (h.onWgu h.wgu h.scale)) _

protected theorem Sized.commitLot (h : Sized ls s) (r : LotReq) (n : Nat) (st : LotState) (u : Nat) : Sized ls (commitLot r n st u s) :=
  (h.holdLotHand r).placeGroup ..

protected theorem Sized.removeLotFor (h : Sized ls s) (r : LotReq) (n : Nat) : Sized ls (removeLotFor r n s) :=
  (h.holdLotHand r).placeRemoval ..

/-- A counter of the unit, and so any field that is none of its tables, may rise beforehand. -/
protected theorem Sized.countWgu (h : Sized ls s) (f : WguCounters → WguCounters) : Sized ls (s.onWgu fun w => { w with cnt := f w.cnt }) :=
  h.onWgu h.wgu h.scale

protected theorem Sized.decideClaim (h : Sized ls s) (src seq : Nat) (lot : LotId) (ok : Bool) : Sized ls (decideClaim src seq lot ok s) := by
  unfold decideClaim
  dsimp only
  split
  · exact h.answerLot ..
  · split
    · exact h.answerLot ..
    · split
      · split
        · exact h.commitLot ..
        · split
          · exact h.answerLot ..
          · exact .answerLot (h.countWgu fun c => { c with claimsTaken := bump c.claimsTaken }) ..
        · exact h.answerLot ..
      · exact h.answerLot ..

protected theorem Sized.decideReport (h : Sized ls s) (src seq : Nat) (lot : LotId) (ok sold : Bool) :
    Sized ls (decideReport src seq lot ok sold s) := by
  have hstale := h.countWgu fun c => { c with staleReports := bump c.staleReports }
  unfold decideReport
  dsimp only
  split
  · exact h.answerLot ..
  · split
    · exact h.answerLot ..
    · split
      · split
        · split
          · exact h.removeLotFor ..
          · split
            · exact h.commitLot ..
            · exact h.commitLot ..
        · exact hstale.answerLot ..
      · exact hstale.answerLot ..

protected theorem Sized.decideRelease (h : Sized ls s) (n : Nat) : Sized ls (decideRelease n s) := by
  unfold decideRelease; split
  · split
    · exact h.commitLot ..
    · exact h.endLotCmd ..
  · exact h.endLotCmd ..

protected theorem Sized.decideReoffer (h : Sized ls s) (n : Nat) : Sized ls (decideReoffer n s) := by
  unfold decideReoffer; split
  · split
    · exact h.commitLot ..
    · exact h.endLotCmd ..
  · exact h.endLotCmd ..

protected theorem Sized.decideDelete (h : Sized ls s) (n : Nat) : Sized ls (decideDelete n s) := by
  unfold decideDelete; split
  · split
    · exact h.removeLotFor ..
    · exact h.endLotCmd ..
  · exact h.endLotCmd ..

protected theorem Sized.lotHandDone (h : Sized ls s) (r : LotReq) : Sized ls (lotHandDone r s) := by
  cases r with
  | claim src seq lot ok =>
    have hset := ((h.setLotState lot.number (.claimed src) (((findLot s lot.number).map (·.unsold)).getD 0)).lotEvent lot.number .claimed
      (some src)).countWgu fun c => { c with claimsGranted := bump c.claimsGranted }
    unfold lotHandDone
    dsimp only
    split
    · exact hset.answerLot ..
    · exact hset.endLotHand
  | report src seq lot ok sold =>
    unfold lotHandDone
    dsimp only
    split
    · exact ((h.removeLot _).lotEvent ..).answerLot ..
    · split
      · exact (((h.setLotState ..).lotEvent ..).offerLot _).answerLot ..
      · exact ((h.setLotState ..).lotEvent ..).answerLot ..
  | releaseLot n => exact (((h.setLotState ..).lotEvent ..).offerLot _).endLotCmd ..
  | reoffer n => exact (((h.setLotState ..).lotEvent ..).offerLot _).endLotCmd ..
  | delete n => exact ((h.removeLot _).lotEvent ..).endLotCmd ..

protected theorem Sized.lotHandFailed (h : Sized ls s) (r : LotReq) (c : PCode) : Sized ls (lotHandFailed r c s) := by
  cases r with
  | releaseLot n => exact h.endLotCmd ..
  | reoffer n => exact h.endLotCmd ..
  | delete n => exact h.endLotCmd ..
  | claim => exact h.endLotHand
  | report => exact h.endLotHand

protected theorem Sized.lotHandEnded (h : Sized ls s) (r : StoreRes) : Sized ls (lotHandEnded r s) := by
  unfold lotHandEnded; split
  · split
    · exact h.lotHandDone _
    · exact h.lotHandFailed ..
  · exact h

protected theorem Sized.calEnded (h : Sized ls s) (f : CalFields) (r : StoreRes) : Sized ls (calEnded f r s) := by
  have hres : Sized ls (s.onWgu fun w => { w with calBusy := false, cmdResult := some (.calWrite, r.code) }) := h.onWgu h.wgu h.scale
  unfold calEnded
  refine .raise ?_ _
  split
  · exact .clearSamples (hres.onWgu hres.wgu hres.scale)
  · exact hres

/-! ### Service -/

theorem restoredLots_sizes (s : State) : LotSizes false (restoredLots s) := by
  refine List.foldlRecOn (motive := LotSizes false) _ _ ⟨Nat.zero_le _, List.nodup_nil, nofun⟩ fun l hl b _ => ?_
  split
  · exact hl.put _
  · exact hl

/-- Before a role is in service no WEIGH is in hand. -/
protected theorem Sized.wguRestore (h : Sized ls s) (hw : s.wgu.weigh = none) : Sized ls (wguRestore s) :=
  h.onWgu (h.wgu.lots (by rw [hw]; exact restoredLots_sizes s)) h.scale

protected theorem Sized.wguAfterScan (h : Sized ls s) : Sized ls (wguAfterScan s) := by
  unfold wguAfterScan; split
  · exact h.onWgu h.wgu h.scale
  · exact h

end Sys2Proof.Machine
end

section
/-! The sizes at the Clock Unit. -/

namespace Sys2Proof.Machine
open Sys2Proof

variable {ls : LineState} {s : State}

/-! ### What the creation of an entry leaves at the clock -/

@[simp] theorem enqueueMsg_clu (m : Msg) (s : State) : (enqueueMsg m s).clu = s.clu := rfl

@[simp] theorem placeMsg_clu (e : Ends) (m : Msg) (s : State) : (placeMsg e m s).clu = s.clu := by unfold placeMsg; split <;> rfl

@[simp] theorem placeRequest_clu (m : Msg) (s : State) : (placeRequest m s).clu = s.clu := by
  unfold placeRequest; split
  · rfl
  · exact placeMsg_clu ..

@[simp] theorem putEntry_clu (e : Entry) (s : State) : (putEntry e s).clu = s.clu := rfl

@[simp] theorem freePlace_clu (q : Nat) (s : State) : (freePlace q s).clu = s.clu := by unfold freePlace; split <;> rfl

@[simp] theorem mapEnter_clu (a n : Nat) (s : State) : (mapEnter a n s).clu = s.clu := by unfold mapEnter; split <;> rfl

@[simp] theorem beginSearch_clu (e : Entry) (ns : List Nat) (s : State) : (beginSearch e ns s).clu = s.clu := placeRequest_clu ..

@[simp] theorem resolveEntry_clu (q : Nat) (s : State) : (resolveEntry q s).1.clu = s.clu := by
  unfold resolveEntry resolveWith; split
  · split
    · rfl
    · split
      · rfl
      · split
        · split
          · rename_i acct _ _ _ n moved fromMap _
            have hmap : (if fromMap then mapEnter acct n s else s).clu = s.clu := by split <;> simp
            dsimp only
            split
            · exact (freePlace_clu ..).trans hmap
            · exact hmap
          · rfl
          · split
            · exact beginSearch_clu ..
            · rfl
        · rfl
  · rfl

@[simp] theorem standEntries_clu (r : CreateReq) (ps : List Posting) (s : State) : (standEntries r ps s).1.clu = s.clu := by
  unfold standEntries
  exact List.foldlRecOn (motive := fun p : State × Option Nat => p.1.clu = s.clu) _ _ rfl
    fun p hp e _ => (resolveEntry_clu ..).trans hp

theorem listRequest_clu (r : Request) (s : State) : (listRequest r s).clu = s.clu := by unfold listRequest; split <;> rfl

@[simp] theorem placeStore_clu (r : Request) (s : State) : (placeStore r s).clu = s.clu := by
  obtain ⟨-, e⟩ | ⟨-, -, e⟩ | ⟨-, -, e⟩ := placeStore_cases r s <;> rw [e]
  · exact listRequest_clu r s
  · rfl

@[simp] theorem placeGroup_clu (o : Owner) (ws : List RecWrite) (s : State) : (placeGroup o ws s).clu = s.clu := placeStore_clu ..

@[simp] theorem advanceFor_clu (j : ExcJob) (s : State) : (advanceFor j s).1.clu = s.clu := by unfold advanceFor; split <;> simp

@[simp] theorem startJob_clu (j : ExcJob) (s : State) : (startJob j s).1.clu = s.clu := by
  unfold startJob; split
  · rfl
  · split
    · rfl
    · cases j <;> dsimp only <;> split <;> [skip; skip; skip; split]
      · rfl
      · split <;> [skip; split] <;> simp
      · simp
      · split <;> simp
      · rfl

@[simp] theorem takeCreate_clu (r : CreateReq) (s : State) : (takeCreate r s).1.clu = s.clu := by
  unfold takeCreate
  dsimp only
  split
  · rfl
  · split
    · rfl
    · split
      · rfl
      · split
        · rfl
        · split
          · exact standEntries_clu ..
          · split
            · rfl
            · split <;> exact startJob_clu ..

/-! ### The Clock Unit -/

protected theorem Sized.cluLotEvent (h : Sized ls s) (e : ClockEvent) (l : Option LotId) : Sized ls (cluLotEvent e l s) :=
  .raise (h.onClu h.clu) _

protected theorem Sized.setClock (h : Sized ls s) (st : ClockState) : Sized ls (setClock st s) := .cluLotEvent (h.onClu h.clu) ..

protected theorem Sized.saleEvent (h : Sized ls s) (n : Nat) (e : SaleEvent) : Sized ls (saleEvent n e s) := .raise (h.onClu h.clu) _

/-! ### Claims and the lot queue -/

protected theorem Sized.dropClaim (h : Sized ls s) (lot : LotId) : Sized ls (dropClaim lot s) :=
  h.onClu ⟨h.clu.1, (Nat.add_le_add_left (List.length_filter_le ..) _).trans h.clu.2.1, h.clu.2.2⟩

/-- R140: the claim takes the place that its check found. -/
protected theorem Sized.askClaim (h : Sized ls s) (lot : LotId) (hroom : s.clu.queue.length + s.clu.claims.length < 12) :
    Sized ls (askClaim lot s) := by
  unfold askClaim; split
  · exact h
  · have ht := h.takeCreate ⟨.claim lot, [⟨.claim lot, .claim lot, none, some lot.scale, false⟩]⟩
    dsimp only
    split
    · exact ht.onClu ⟨ht.clu.1, by simp only [takeCreate_clu, List.length_append, List.length_singleton]; omega, ht.clu.2.2⟩
    · exact ht

protected theorem Sized.cluNotice (h : Sized ls s) (d : LotDesc) : Sized ls (cluNotice d s) := by
  unfold cluNotice; split
  · exact h.onClu h.clu
  · split
    · rename_i hclaim
      simp only [mayClaim, Bool.and_eq_true, decide_eq_true_eq] at hclaim
      exact h.askClaim _ hclaim.2
    · exact h

/-- The claims in flight take new fields, each in its place. -/
protected theorem Sized.mapClaims (h : Sized ls s) (f : Claim → Claim) : Sized ls (s.onClu fun c => { c with claims := c.claims.map f }) :=
  h.onClu ⟨h.clu.1, by simpa using h.clu.2.1, h.clu.2.2⟩

protected theorem Sized.placeClaim (h : Sized ls s) (lot : LotId) (d : LotDesc) : Sized ls (placeClaim lot d s) := h.placeGroup ..

protected theorem Sized.claimOutcome (h : Sized ls s) (lot : LotId) (o : ExcOut) : Sized ls (claimOutcome lot o s) := by
  have hdrop := h.dropClaim lot
  unfold claimOutcome; split
  · exact h
  · split
    · exact (h.mapClaims _).placeClaim ..
    · exact .cluLotEvent (hdrop.onClu hdrop.clu) ..
    · exact hdrop.onClu hdrop.clu

/-- R141: a granted claim gives its place to its lot. -/
protected theorem Sized.claimCommitted (h : Sized ls s) (lot : LotId) (r : StoreRes) : Sized ls (claimCommitted lot r s) := by
  unfold claimCommitted; split
  · rename_i l d t hclaim
    have hless : (s.clu.claims.filter fun x => x.lot != lot).length < s.clu.claims.length :=
      List.length_filter_lt_length_iff_exists.2
        ⟨_, List.mem_of_find?_eq_some hclaim, by simpa using List.find?_some hclaim⟩
    have hsum := h.clu.2.1
    have hdrop := h.dropClaim lot
    split
    · refine .cluLotEvent (hdrop.onClu ⟨hdrop.clu.1, ?_, hdrop.clu.2.2⟩) ..
      simp only [dropClaim, onClu_clu, List.length_append, List.length_singleton]
      omega
    · exact h.mapClaims _
  · exact h

protected theorem Sized.claimRetry (h : Sized ls s) (lot : LotId) : Sized ls (claimRetry lot s) := by
  unfold claimRetry; split
  · split
    · exact (h.mapClaims _).placeClaim ..
    · exact h
  · exact h

protected theorem Sized.placeQueueDrop (h : Sized ls s) (o : Owner) (lot : LotId) : Sized ls (placeQueueDrop o lot s) := h.placeGroup ..

theorem CluSizes.dropQueued {c : Clu} (h : CluSizes c) (lot : LotId) : CluSizes (dropQueued lot c) :=
  ⟨h.1, (Nat.add_le_add_right (List.length_filter_le ..) _).trans h.2.1, h.2.2⟩

protected theorem Sized.queueCleaned (h : Sized ls s) (lot : LotId) (r : StoreRes) : Sized ls (queueCleaned lot r s) := by
  obtain ⟨-, e⟩ | ⟨-, e⟩ := queueCleaned_cases lot r s <;> rw [e]
  · exact h.onClu (h.clu.dropQueued lot)
  · exact h.onClu h.clu

protected theorem Sized.queueRetry (h : Sized ls s) (lot : LotId) : Sized ls (queueRetry lot s) := by
  have hclaim := h.claimRetry lot
  unfold queueRetry cleanRetry; split
  · exact .placeQueueDrop (hclaim.onClu hclaim.clu) ..
  · exact hclaim

/-! ### The end of a lot -/

protected theorem Sized.placeLotEnd (h : Sized ls s) : Sized ls (placeLotEnd s) := by
  unfold placeLotEnd; split
  · exact h.placeQueueDrop ..
  · exact h

protected theorem Sized.lotEnded (h : Sized ls s) (lot : LotId) (r : StoreRes) : Sized ls (lotEnded lot r s) := by
  unfold lotEnded; split
  · refine .setClock (h.onClu ?_) _
    have hdrop := h.clu.dropQueued lot
    exact ⟨by simpa [List.length_map] using h.clu.1, hdrop.2⟩
  · exact h.onClu h.clu

protected theorem Sized.lotEndRetry (h : Sized ls s) : Sized ls (lotEndRetry s) := by
  unfold lotEndRetry; split
  · exact .placeLotEnd (h.onClu h.clu)
  · exact h

/-- A request of a unit, and what the unit does once it is created. -/
protected theorem Sized.askUnsold (h : Sized ls s) (lot : LotId) : Sized ls (askUnsold lot s) := by
  have ht := h.takeCreate ⟨.unsold lot, [reportItem lot false (.unsold lot)]⟩
  unfold askUnsold
  dsimp only
  split
  · exact ht.placeLotEnd
  · exact ht

protected theorem Sized.enterNoSale (h : Sized ls s) : Sized ls (enterNoSale s) := by
  have hclock : Sized ls (setClock .noSale (s.onClu fun c => { c with tickT := none })) := .setClock (h.onClu h.clu) _
  unfold enterNoSale
  dsimp only
  split
  · exact hclock.askUnsold _
  · exact hclock

protected theorem Sized.clockTicks (h : Sized ls s) : Sized ls (clockTicks s) := by
  unfold clockTicks; split
  · split
    · exact h
    · split
      · exact h.onClu h.clu
      · exact .enterNoSale (h.onClu h.clu)
  · exact h

protected theorem Sized.unsoldOutcome (h : Sized ls s) (lot : LotId) (o : ExcOut) : Sized ls (unsoldOutcome lot o s) := by
  unfold unsoldOutcome; split
  · exact h
  · exact h.cluLotEvent ..

/-! ### Desks -/

protected theorem Sized.setDesk (h : Sized ls s) (d : Nat) (x : Desk) : Sized ls (setDesk d x s) :=
  h.onClu ⟨by simpa using h.clu.1, h.clu.2⟩

protected theorem Sized.askRelease (h : Sized ls s) (r : Ref) (k : Ident) (a : Nat) (d : Option Nat) : Sized ls (askRelease r k a d s) :=
  h.takeCreate _

protected theorem Sized.deskAsked (h : Sized ls s) (d : Nat) (qs : List Nat) : Sized ls (deskAsked d qs s) := by
  unfold deskAsked
  dsimp only
  split
  · split
    · exact h.setDesk ..
    · exact h
  · exact h

protected theorem Sized.deskRefused (h : Sized ls s) (d : Nat) (c : AskRefusal) : Sized ls (deskRefused d c s) := by
  unfold deskRefused
  dsimp only
  split
  · exact (h.setDesk ..).raise _
  · exact h

protected theorem Sized.askDeskHold (h : Sized ls s) (d b a : Nat) : Sized ls (askDeskHold d b a s) := by
  have ht := h.takeCreate (deskHoldReq d b a)
  unfold askDeskHold
  dsimp only
  split
  · exact ht.deskAsked ..
  · exact ht.deskRefused ..
  · exact ht

protected theorem Sized.deskOutcome (h : Sized ls s) (d : Nat) (k : Ident) (b : Nat) (dest : Option Nat) (o : ExcOut) :
    Sized ls (deskOutcome d k b dest o s) := by
  have hset (x : Desk) : Sized ls (raise .deskEvent (setDesk d x s)) := (h.setDesk d x).raise _
  unfold deskOutcome
  dsimp only
  split
  · split
    · exact hset _
    · exact h.askRelease ..
  · split
    · exact hset _
    · exact h.askRelease ..
  · split
    · exact hset _
    · exact h
  · split
    · exact hset _
    · exact h
  · split
    · exact hset _
    · exact h
  · split
    · exact (hset _).askRelease ..
    · exact h
  · exact h

protected theorem Sized.deskSignOut (h : Sized ls s) (d : Nat) : Sized ls (deskSignOut d s) := by
  have hset := h.setDesk d (deskOutOf (deskAt s d))
  unfold deskSignOut
  dsimp only
  split
  · exact h
  · split
    · exact hset.dropAsk _
    · exact hset
  · split
    · split
      · exact hset.askRelease ..
      · exact hset
    · exact hset
  · split
    · split
      · exact hset.askRelease ..
      · exact hset
    · exact hset
  · exact hset

protected theorem Sized.cluReleaseOutcome (h : Sized ls s) (o : ExcOut) : Sized ls (cluReleaseOutcome o s) := by
  unfold cluReleaseOutcome; split
  · exact h
  · exact h.onClu h.clu

protected theorem Sized.lapseDesk (h : Sized ls s) (k : Ident) : Sized ls (lapseDesk k s) := by
  unfold lapseDesk; split
  · rename_i d _
    have hset := h.setDesk d { deskAt s d with state := .lapsed, allowance := 0, last := .answer .lapsed }
    dsimp only
    split
    · exact .raise (hset.onClu hset.clu) _
    · exact h
  · exact h

protected theorem Sized.followHome (h : Sized ls s) (k : Ident) (n : Nat) : Sized ls (followHome k n s) := by
  unfold followHome; split
  · dsimp only
    split
    · exact h.setDesk ..
    · exact h
  · exact h

/-! ### Settling a sale -/

protected theorem Sized.onSale (h : Sized ls s) (n : Nat) (f : Sale → Sale) : Sized ls (onSale n f s) :=
  h.onClu ⟨h.clu.1, h.clu.2.1, by simpa using h.clu.2.2⟩

protected theorem Sized.placeSaleUpdate (h : Sized ls s) (n : Nat) (c : SaleChange) : Sized ls (placeSaleUpdate n c s) :=
  (h.onSale ..).placeGroup ..

protected theorem Sized.reportCarried (h : Sized ls s) (c : SaleChange) : Sized ls (reportCarried c s) := by
  unfold reportCarried; split
  · exact h.placeOutRemoval _
  · exact h

protected theorem Sized.updateSale (h : Sized ls s) (n : Nat) (c : SaleChange) : Sized ls (updateSale n c s) := by
  unfold updateSale; split
  · split
    · exact h.reportCarried c
    · exact h.placeSaleUpdate ..
  · exact h.reportCarried c

protected theorem Sized.salePostsCreated (h : Sized ls s) (n : Nat) : Sized ls (salePostsCreated n s) := (h.placeSaleUpdate ..).placeLotEnd

protected theorem Sized.salePartCreated (h : Sized ls s) (n : Nat) (p : SalePart) : Sized ls (salePartCreated n p s) := by
  unfold salePartCreated; split
  · split
    · exact h.placeSaleUpdate ..
    · exact h
  · exact h

protected theorem Sized.askSoldReport (h : Sized ls s) (r : SaleRec) : Sized ls (askSoldReport r s) := by
  have ht := h.takeCreate ⟨.saleEndReport r.number, [soldItem r]⟩
  unfold askSoldReport
  dsimp only
  split
  · exact ht.placeLotEnd
  · exact ht

protected theorem Sized.waitSaleReq (h : Sized ls s) (n : Nat) (p : Option SalePart) : Sized ls (waitSaleReq n p s) :=
  .saleEvent (h.onClu h.clu) ..

protected theorem Sized.salePostsRefused (h : Sized ls s) (n : Nat) (c : AskRefusal) : Sized ls (salePostsRefused n c s) := by
  unfold salePostsRefused; split
  · split
    · exact (((h.placeSaleUpdate ..).placeSaleUpdate ..).saleEvent ..).askSoldReport _
    · exact h
  · exact h.waitSaleReq ..

protected theorem Sized.salePartRefused (h : Sized ls s) (n : Nat) (p : SalePart) (c : AskRefusal) : Sized ls (salePartRefused n p c s) := by
  unfold salePartRefused; split
  · exact (h.placeSaleUpdate ..).saleEvent ..
  · exact h.waitSaleReq ..

protected theorem Sized.askSalePosts (h : Sized ls s) (r : SaleRec) : Sized ls (askSalePosts r s) := by
  have ht := h.takeCreate (salePostsReq r)
  unfold askSalePosts
  dsimp only
  split
  · exact ht.salePostsCreated _
  · exact ht.salePostsRefused ..
  · exact ht

protected theorem Sized.askSalePart (h : Sized ls s) (r : SaleRec) (p : SalePart) : Sized ls (askSalePart r p s) := by
  have ht := h.takeCreate ⟨.salePart r.number p, [partItem r p]⟩
  unfold askSalePart
  dsimp only
  split
  · exact ht.salePartCreated ..
  · exact ht.salePartRefused ..
  · exact ht

protected theorem Sized.placeSaleLog (h : Sized ls s) (r : SaleRec) : Sized ls (placeSaleLog r s) := h.placeGroup ..

protected theorem Sized.saleLogged (h : Sized ls s) (r : StoreRes) : Sized ls (saleLogged r s) := by
  unfold saleLogged; split
  · rename_i x _
    have hlogged {t : State} (ht : Sized ls t) : Sized ls (askSalePosts x.sale (saleEvent x.sale.number .logged
        (t.onClu fun c => { c with sales := putSaleIn { entry := x.sale } c.sales }))) :=
      .askSalePosts (.saleEvent (ht.onClu ⟨ht.clu.1, ht.clu.2.1, putKeyed_length_le _ _ ht.clu.2.2⟩) ..) _
    dsimp only
    split
    · exact hlogged h
    · exact .saleEvent (h.onClu h.clu) ..
    · exact .saleEvent (h.onClu h.clu) ..
    · exact hlogged (h.onNode _)
  · exact h

protected theorem Sized.saleLogRetry (h : Sized ls s) : Sized ls (saleLogRetry s) := by
  unfold saleLogRetry; split
  · split
    · exact .placeSaleLog (h.onClu h.clu) _
    · exact h
  · exact h

protected theorem Sized.saleRequestRetry (h : Sized ls s) (n : Nat) : Sized ls (saleRequestRetry n s) := by
  unfold saleRequestRetry; split
  · dsimp only
    split
    · exact .askSalePosts (h.onClu h.clu) _
    · exact .askSalePart (h.onClu h.clu) ..
  · exact h

/-! ### The arbiter -/

protected theorem Sized.acceptStop (h : Sized ls s) (lot : LotDesc) (p d : Nat) : Sized ls (acceptStop lot p d s) := by
  have hset := h.setDesk d { deskAt s d with
    allowance := (deskAt s d).allowance - (saleRecord s lot p d).charge, purchases := bump (deskAt s d).purchases, last := .won }
  exact .placeSaleLog (.setClock (.raise (hset.onClu hset.clu) _) _) _

protected theorem Sized.countLate (h : Sized ls s) (n : Nat) : Sized ls (countLate n s) := h.onClu h.clu

protected theorem Sized.judgeDesks (h : Sized ls s) (lot : LotDesc) (p : Nat) (ds : List Nat) : Sized ls (judgeDesks lot p ds s) := by
  induction ds generalizing s with
  | nil => exact h
  | cons d ds ih =>
    have hset := h.setDesk d { deskAt s d with state := .suspended, last := .suspended }
    unfold judgeDesks
    dsimp only
    split
    · split
      · exact (h.acceptStop ..).countLate _
      · exact ih (.raise (hset.onClu hset.clu) _)
    · exact ih (h.onClu h.clu)

protected theorem Sized.scanDesks (h : Sized ls s) (b : BitVec 32) : Sized ls (scanDesks b s) := by
  have hscan : Sized ls (s.onClu fun c => { c with
      released := scanReleased b c.released
      cnt := { c.cnt with presses := bumpBy (pressSet b s.clu.released).length c.cnt.presses } }) := h.onClu h.clu
  unfold scanDesks
  dsimp only
  split
  · exact hscan.judgeDesks ..
  · exact hscan.countLate _
  · exact hscan.onClu hscan.clu

/-! ### Parts of a sale -/

protected theorem Sized.removeIfCollected (h : Sized ls s) (n : Nat) : Sized ls (removeIfCollected n s) := by
  unfold removeIfCollected; split
  · dsimp only
    split
    · exact (h.onSale ..).placeRemoval ..
    · exact h
  · exact h

protected theorem Sized.saleRemoved (h : Sized ls s) (n : Nat) : Sized ls (saleRemoved n s) :=
  .saleEvent (.onClu (h.dropAsk _) ⟨h.clu.1, h.clu.2.1, (List.length_filter_le ..).trans h.clu.2.2⟩) ..

protected theorem Sized.deskFollows (h : Sized ls s) (p : Posting) (c : AnsCode) (n : Nat) : Sized ls (deskFollows p c n s) := by
  unfold deskFollows; split
  · dsimp only
    split
    · exact (h.followHome ..).lapseDesk _
    · exact h.followHome ..
  · exact h

/-- R153: a final answer is told to the desk. -/
theorem Sized.deskTold (h : Sized ls s) (post : Posting) (o : ExcOut) :
    Sized ls (match o with | .answer c _ node => deskFollows post c node s | _ => s) := by
  split
  · exact h.deskFollows ..
  · exact h

/-- R162: a report that FAILED starts its reissue timer. -/
theorem Sized.reissueStarted (h : Sized ls s) (n : Nat) (p : SalePart) (o : ExcOut) : Sized ls (match p, o with
    | .report, .failed _ => onSale n (fun e => { e with reissue := some 15000 }) s
    | _, _ => s) := by
  split
  · exact h.onSale ..
  · exact h

protected theorem Sized.salePartOutcome (h : Sized ls s) (n : Nat) (p : SalePart) (post : Posting) (q : Nat) (o : ExcOut) :
    Sized ls (salePartOutcome n p post q o s) := by
  have hdesk := h.deskTold post o
  unfold salePartOutcome
  dsimp only
  split
  · exact hdesk.placeOutRemoval q
  · split
    · exact (hdesk.reissueStarted n p o).placeOutRemoval q
    · exact (hdesk.reissueStarted n p o).updateSale ..

protected theorem Sized.saleUpdated (h : Sized ls s) (n : Nat) (c : SaleChange) (r : StoreRes) : Sized ls (saleUpdated n c r s) := by
  unfold saleUpdated; split
  · split
    · refine Sized.removeIfCollected ?_ n
      split
      · exact (h.saleEvent ..).placeOutRemoval _
      · exact h.saleEvent ..
    · exact h.removeIfCollected n
  · exact (h.onSale ..).saleEvent ..

protected theorem Sized.saleUpdateRetry (h : Sized ls s) (n : Nat) : Sized ls (saleUpdateRetry n s) := by
  unfold saleUpdateRetry; split
  · exact List.foldlRecOn (motive := Sized ls) _ _ (h.onSale ..) fun _ ht _ _ => ht.updateSale ..
  · exact h

protected theorem Sized.reissueCreated (h : Sized ls s) (n : Nat) : Sized ls (reissueCreated n s) := .updateSale (h.onClu h.clu) ..

protected theorem Sized.reportReissue (h : Sized ls s) (n : Nat) : Sized ls (reportReissue n s) := by
  unfold reportReissue; split
  · rename_i e _
    have ht := (h.onSale n fun e => { e with reissue := none }).takeCreate ⟨.saleReissue n, [soldItem e.entry]⟩
    split
    · dsimp only
      split
      · exact ht.reissueCreated n
      · exact ht
    · exact h
  · exact h

protected theorem Sized.collectSale (h : Sized ls s) (n : Nat) : Sized ls (collectSale n s) := by
  unfold collectSale; split
  · split
    · exact h
    · exact h.placeSaleUpdate ..
  · exact h

/-! ### The clock's service -/

protected theorem Sized.settlePart (h : Sized ls s) (r : SaleRec) (p : SalePart) : Sized ls (settlePart r p s) := by
  unfold settlePart; split
  · exact h
  · split
    · exact h
    · split
      · exact h.askSalePart ..
      · exact .saleEvent (.placeSaleUpdate (h.onClu h.clu) ..) ..

protected theorem Sized.settleSale (h : Sized ls s) (r : SaleRec) : Sized ls (settleSale r s) :=
  (((h.settlePart ..).settlePart ..).settlePart ..).removeIfCollected _

theorem restoredSales_length (s : State) : (restoredSales s).length ≤ 32 := by
  refine foldl_putKeyed_length_le (fun e : Sale => e.entry.number) _ (fun l b => ?_) _ (Nat.zero_le _)
  split
  · exact .inr ⟨_, rfl⟩
  · exact .inl rfl

protected theorem Sized.cluRestore (h : Sized ls s) : Sized ls (cluRestore s) := by
  unfold cluRestore
  refine List.foldlRecOn (motive := Sized ls) _ _ (List.foldlRecOn (motive := Sized ls) _ _ (h.onClu ⟨h.clu.1, ?_, restoredSales_length s⟩)
    fun _ ht _ _ => ht.placeQueueDrop ..) fun _ ht _ _ => ht.settleSale _
  simp [restoredQueue]

end Sys2Proof.Machine
end

section
/-! The sizes at the Ice Meter and the Crate Gate. -/

namespace Sys2Proof.Machine
open Sys2Proof

variable {ls : LineState} {s : State}

protected theorem Sized.ite {p : Prop} [Decidable p] {t u : State} (ht : Sized ls t) (hu : Sized ls u) : Sized ls (if p then t else u) := by
  split
  · exact ht
  · exact hu

/-! ### The Ice Meter -/

protected theorem Sized.endOrder (h : Sized ls s) (c : OrderCode) : Sized ls (endOrder c s) := by
  unfold endOrder; split
  · exact .raise (h.onIcm _) _
  · exact h

protected theorem Sized.orderAsked (h : Sized ls s) (qs : List Nat) : Sized ls (orderAsked qs s) := by
  unfold orderAsked; split
  · split
    · exact h.onIcm _
    · exact h
  · exact h

protected theorem Sized.orderRefused (h : Sized ls s) (c : AskRefusal) : Sized ls (orderRefused c s) := by
  unfold orderRefused; split
  · split
    · exact h.endOrder _
    · exact h
  · exact h

protected theorem Sized.askOrderHold (h : Sized ls s) (o : OrderRec) (amount : Nat) : Sized ls (askOrderHold o amount s) := by
  have ht := h.takeCreate ⟨.orderHold, [⟨.hold default amount o.acceptLess 600, .orderHold, some o.account, none, false⟩]⟩
  unfold askOrderHold
  dsimp only
  split
  · exact ht.orderAsked _
  · exact ht.orderRefused _
  · exact ht

protected theorem Sized.beginHolding (h : Sized ls s) : Sized ls (beginHolding s) := by
  unfold beginHolding; split
  · exact .askOrderHold (h.onIcm _) ..
  · exact h

protected theorem Sized.orderLocateAsked (h : Sized ls s) (q : Nat) : Sized ls (orderLocateAsked q s) := by
  unfold orderLocateAsked; split
  · exact h.onIcm _
  · exact h

protected theorem Sized.orderLocated (h : Sized ls s) (q : Nat) (o : ExcOut) : Sized ls (orderLocated q o s) := by
  unfold orderLocated; split
  · split
    · exact h.beginHolding
    · exact h.endOrder _
    · exact h.endOrder _
  · exact h

/-- What the key of an order has released is released with or without it. -/
protected theorem Sized.icmRelease (h : Sized ls s) (k : Option Ident) (a : Nat) (d : Option Nat) :
    Sized ls (match k with | some k => askRelease .icmRelease k a d s | none => s) := by
  split
  · exact h.askRelease ..
  · exact h

protected theorem Sized.takeGrant (h : Sized ls s) (o : OrderRec) (c : AnsCode) (amt node : Nat) : Sized ls (takeGrant o c amt node s) := by
  unfold takeGrant
  dsimp only
  split
  · exact .endOrder (.icmRelease (h.onIcm _) ..) _
  · exact .placeGroup (h.onIcm _) ..

protected theorem Sized.orderLeftover (h : Sized ls s) (out : ExcOut) {release : Option Nat → State → State}
    (hr : ∀ node, Sized ls (release node s)) : Sized ls (orderHoldOutcome.leftover out release s) := by
  unfold orderHoldOutcome.leftover; split
  · exact hr _
  · exact hr _
  · exact h

protected theorem Sized.orderHoldOutcome (h : Sized ls s) (key : Ident) (acct : Nat) (dest : Option Nat) (out : ExcOut) :
    Sized ls (orderHoldOutcome key acct dest out s) := by
  have hr (node : Option Nat) : Sized ls (askRelease .icmRelease key acct node s) := h.askRelease ..
  unfold orderHoldOutcome
  dsimp only
  split
  · split
    · split
      · exact h.takeGrant ..
      · exact h.takeGrant ..
      · exact h.endOrder _
      · exact h.endOrder _
      · exact h.endOrder _
      · exact h.endOrder _
      · exact (hr dest).endOrder _
      · exact h.endOrder _
    · exact h.orderLeftover out hr
  · exact h.orderLeftover out hr

protected theorem Sized.icmReleaseOutcome (h : Sized ls s) (o : ExcOut) : Sized ls (icmReleaseOutcome o s) := by
  unfold icmReleaseOutcome; split
  · exact h
  · exact h.onIcm _

protected theorem Sized.placeIceRemoval (h : Sized ls s) : Sized ls (placeIceRemoval s) := h.placeRemoval ..

protected theorem Sized.iceCreated (h : Sized ls s) (o : OrderRec) (res : StoreRes) : Sized ls (iceCreated o res s) := by
  have hr := h.icmRelease o.key o.account o.home
  unfold iceCreated
  dsimp only
  split
  · split
    · exact h.onIcm _
    · exact h.placeIceRemoval.icmRelease ..
  · split
    · exact hr.endOrder _
    · exact hr
  · split
    · exact hr.endOrder _
    · exact hr

protected theorem Sized.switchOff (h : Sized ls s) (c : StopCause) : Sized ls (switchOff c s) := h.onIcm _

protected theorem Sized.placeCheckpoint (h : Sized ls s) (n : Nat) : Sized ls (placeCheckpoint n s) := by
  unfold placeCheckpoint
  dsimp only
  split
  · exact .onStore (h.onIcm _) h.store
  · exact .placeStore (h.onIcm _) _

protected theorem Sized.checkpointEnded (h : Sized ls s) (k : Option Ident) (n : Nat) (r : StoreRes) :
    Sized ls (checkpointEnded k n r s) := by
  unfold checkpointEnded; split
  · exact h.onIcm _
  · exact h.onIcm _

/-- R172: the five seconds of the auger without a pulse begin anew while it is ON. -/
protected theorem Sized.stallRestarted (h : Sized ls s) (c : Bool) :
    Sized ls (if c then s.onIcm fun m => { m with stallT := some 5000 } else s) := by
  split
  · exact h.onIcm _
  · exact h

protected theorem Sized.countPulse (h : Sized ls s) (o : OrderRec) : Sized ls (countPulse o s) := by
  unfold countPulse
  dsimp only
  split
  · exact .stallRestarted (h.onIcm _) _
  · have hc : Sized ls (onOrder (fun x => { x with pulses := o.pulses + 1 }) s) := h.onIcm _
    exact .ite (.placeCheckpoint (.ite (.switchOff (hc.stallRestarted _) _) (hc.stallRestarted _)) _)
      (.ite (.switchOff (hc.stallRestarted _) _) (hc.stallRestarted _))

protected theorem Sized.augerEdge (h : Sized ls s) (n : Nat) : Sized ls (augerEdge n s) := by
  have he : Sized ls (s.onIcm fun m => { m with edgeMs := 0 }) := h.onIcm _
  unfold augerEdge
  dsimp only
  split
  · exact he.onIcm _
  · split
    · exact he.countPulse _
    · exact he.onIcm _

protected theorem Sized.cancelOrder (h : Sized ls s) : Sized ls (cancelOrder s) := ((h.dropAsk _).dropAsk _).endOrder _

protected theorem Sized.stopOrder (h : Sized ls s) (c : StopCause) (f : IcmCounters → IcmCounters) : Sized ls (stopOrder c f s) := by
  unfold stopOrder; split
  · exact h.cancelOrder
  · exact h.cancelOrder
  · split
    · exact .switchOff (h.onIcm _) _
    · exact h
  · exact h

protected theorem Sized.settleCreated (h : Sized ls s) (k : Ident) : Sized ls (settleCreated k s) := by
  unfold settleCreated; split
  · split
    · exact h.placeIceRemoval.onIcm _
    · split
      · exact h.placeIceRemoval.onIcm _
      · exact h
  · exact h

protected theorem Sized.settleRefused (h : Sized ls s) (k : Ident) (c : AskRefusal) : Sized ls (settleRefused k c s) := by
  unfold settleRefused; split
  · split
    · exact h.placeIceRemoval.endOrder _
    · exact h.onIcm _
  · exact h

protected theorem Sized.askSettle (h : Sized ls s) : Sized ls (askSettle s) := by
  unfold askSettle; split
  · split
    · dsimp only
      split
      · exact (h.takeCreate _).settleCreated _
      · exact (h.takeCreate _).settleRefused ..
      · exact h.takeCreate _
    · exact h
  · exact h

protected theorem Sized.closeCounting (h : Sized ls s) : Sized ls (closeCounting s) := by
  unfold closeCounting; split
  · dsimp only
    refine Sized.askSettle ?_
    split
    · exact h.onIcm _
    · exact .placeCheckpoint (h.onIcm _) _
  · exact h

protected theorem Sized.settleOutcome (h : Sized ls s) (k : Ident) (p : Posting) (out : ExcOut) : Sized ls (settleOutcome k p out s) := by
  unfold settleOutcome; split
  · split
    · exact h.endOrder _
    · exact h.endOrder _
    · exact h.endOrder _
    · exact h.endOrder _
  · exact .raise (h.onIcm _) _

protected theorem Sized.icmRestore (h : Sized ls s) : Sized ls (icmRestore s) := by
  unfold icmRestore
  dsimp only
  split
  · have ht := (h.onIcm fun m => { m with edgeMs := 0 }).onIcm
    split
    · split
      · exact (ht _).settleCreated _
      · exact (ht _).askSettle
    · exact ht _
  · exact h.onIcm _

/-! ### The Crate Gate -/

protected theorem Sized.placePool (h : Sized ls s) : Sized ls (placePool s) := by
  unfold placePool; split
  · exact h
  · exact .placeStore (h.onCgt h.cgt) _

protected theorem Sized.poolChange (h : Sized ls s) (d : List Int) : Sized ls (poolChange d s) := .placePool (h.onCgt h.cgt)

/-- A change of the batch that adds no tag to the list keeps its size. -/
protected theorem Sized.onBatch (h : Sized ls s) (f : Batch → Batch) (hf : ∀ b, s.cgt.batch = some b → (f b).tags.length ≤ 64) :
    Sized ls (onBatch f s) := by
  refine h.onCgt ⟨h.cgt.1, fun b hb => ?_⟩
  obtain ⟨b', hb', rfl⟩ := Option.map_eq_some_iff.1 hb
  exact hf b' hb'

protected theorem Sized.endBatch (h : Sized ls s) (c : BatchCode) (r : Option (List (Nat × Nat))) : Sized ls (endBatch c r s) := by
  unfold endBatch; split
  · exact .raise (h.onCgt ⟨h.cgt.1, fun _ hb => by cases hb⟩) _
  · exact h

protected theorem Sized.batchLocated (h : Sized ls s) (e n : Nat) (o : ExcOut) : Sized ls (batchLocated e n o s) := by
  unfold batchLocated; split
  · split
    · have hb := h.onBatch (fun b => { b with home := some ‹_› }) h.cgt.2
      exact .raise (hb.onCgt hb.cgt) _
    · exact h.endBatch ..
    · exact h.endBatch ..
  · exact h

protected theorem Sized.batchRead (h : Sized ls s) {b : Batch} (hb : s.cgt.batch = some b) (ty serial : Nat) :
    Sized ls (batchRead ty serial b s) := by
  unfold batchRead; split
  · have ht := h.onBatch (fun b => { b with duplicates := bump b.duplicates }) h.cgt.2
    exact ht.onCgt ht.cgt
  · split
    · have ht := h.onBatch (fun b => { b with rejected := bump b.rejected }) h.cgt.2
      exact .raise (ht.onCgt ht.cgt) _
    · split
      · have ht := h.onBatch (fun b => { b with refusedFull := bump b.refusedFull }) h.cgt.2
        exact .raise (ht.onCgt ht.cgt) _
      · refine h.onBatch _ fun b' hb' => ?_
        obtain rfl : b = b' := Option.some.inj (hb.symm.trans hb')
        simp only [List.length_append, List.length_singleton]
        omega

protected theorem Sized.tagFrame (h : Sized ls s) (bs : List Byte) : Sized ls (tagFrame bs s) := by
  unfold tagFrame; split
  · exact h.onCgt h.cgt
  · split
    · exact h.batchRead ‹_› ..
    · exact h.onCgt h.cgt

protected theorem Sized.batchPosted (h : Sized ls s) (e n : Nat) (qs : List Nat) : Sized ls (batchPosted e n qs s) := by
  unfold batchPosted; split
  · dsimp only
    have ht := h.onBatch (fun b => { b with id := match qs with | q :: _ => (findEntry s q).bind (·.ident) | [] => none }) h.cgt.2
    exact ht.onCgt ht.cgt
  · exact h

protected theorem Sized.batchRefused (h : Sized ls s) (e n : Nat) (c : AskRefusal) : Sized ls (batchRefused e n c s) := by
  unfold batchRefused; split
  · split
    · exact h.endBatch ..
    · exact h.onCgt h.cgt
  · exact h

protected theorem Sized.askBatchPost (h : Sized ls s) : Sized ls (askBatchPost s) := by
  unfold askBatchPost; split
  · dsimp only
    split
    · exact (h.takeCreate _).batchPosted ..
    · exact (h.takeCreate _).batchRefused ..
    · exact h.takeCreate _
  · exact h

protected theorem Sized.returnIfListed (h : Sized ls s) : Sized ls (returnIfListed s) := by
  unfold returnIfListed; split
  · exact .askBatchPost (h.onCgt h.cgt)
  · exact h

protected theorem Sized.closeBatch (h : Sized ls s) {b : Batch} (hb : s.cgt.batch = some b) : Sized ls (closeBatch b s) := by
  unfold closeBatch; split
  · refine .askBatchPost (h.onCgt ⟨h.cgt.1, fun b' hb' => ?_⟩)
    obtain rfl := Option.some.inj hb'
    exact h.cgt.2 b hb
  · exact .returnIfListed (.poolChange (h.onCgt h.cgt) _)

protected theorem Sized.poolEnded (h : Sized ls s) (d : List Int) (r : StoreRes) : Sized ls (poolEnded d r s) := by
  unfold poolEnded; split
  · exact .returnIfListed (.placePool (h.onCgt h.cgt))
  · exact h.onCgt h.cgt

protected theorem Sized.poolRetry (h : Sized ls s) : Sized ls (poolRetry s) := by
  unfold poolRetry; split
  · exact .returnIfListed (.placePool (h.onCgt h.cgt))
  · exact h

protected theorem Sized.lateBatch (h : Sized ls s) (e n : Nat) (p : Posting) (o : ExcOut) : Sized ls (lateBatch e n p o s) := by
  unfold lateBatch
  dsimp only
  exact .ite (.poolChange (.raise (h.onCgt h.cgt) _) _) (.raise (h.onCgt h.cgt) _)

protected theorem Sized.batchOutcome (h : Sized ls s) (e n : Nat) (p : Posting) (o : ExcOut) : Sized ls (batchOutcome e n p o s) := by
  unfold batchOutcome; split
  · dsimp only
    refine Sized.endBatch ?_ ..
    split
    · exact h.poolChange _
    · exact h
  · exact h.lateBatch ..

end Sys2Proof.Machine
end

section
/-! The sizes at the book's yields and at the EXC's outcomes. -/

namespace Sys2Proof.Machine
open Sys2Proof

variable {ls : LineState} {s : State}

/-! ### The book's working copies and yields -/

protected theorem Sized.takeAccount (h : Sized ls s) (n : Nat) (c : AcctChange) : Sized ls (takeAccount n c s) := by
  unfold takeAccount
  exact h.onBook ⟨h.book.1, h.book.2.1, putKeyed_length_le _ _ h.book.2.2⟩

protected theorem Sized.countStoreRefusal (h : Sized ls s) : Sized ls (countStoreRefusal s) := h.onBook h.book

protected theorem Sized.endBookHand (h : Sized ls s) : Sized ls (endBookHand s) := h.onBook h.book

protected theorem Sized.dropHolds (h : Sized ls s) (n : Nat) : Sized ls (dropHolds n s) := .ite h (.raise (h.onBook h.book) _)

protected theorem Sized.placeOpened (h : Sized ls s) (a : Nat) : Sized ls (placeOpened a s) := h.placeMsg _ rfl

protected theorem Sized.setYield (h : Sized ls s) (y : Yield) : Sized ls (setYield y s) := h.onBook h.book

protected theorem Sized.dropYield (h : Sized ls s) (a : Nat) : Sized ls (dropYield a s) := h.onBook h.book

protected theorem Sized.beginYield (h : Sized ls s) (a n : Nat) : Sized ls (beginYield a n s) := h.placeGroup ..

protected theorem Sized.placeBookState (h : Sized ls s) (a : Nat) (st : AcctState) : Sized ls (placeBookState a st s) := h.placeGroup ..

theorem BookSizes.filterHolds {b : Book} (h : BookSizes b) (p : Hold → Bool) : BookSizes { b with holds := b.holds.filter p } :=
  ⟨h.1, (List.length_filter_le ..).trans h.2.1, h.2.2⟩

protected theorem Sized.transferCreated (h : Sized ls s) (a : Nat) (qs : List Nat) : Sized ls (transferCreated a qs s) := by
  unfold transferCreated; split
  · dsimp only
    refine Sized.setYield (Sized.onBook ?_ (BookSizes.filterHolds ?_ _)) _
    all_goals split
    · split
      · exact h.putEntry _
      · exact h
    · exact h
    · split
      · exact h.book
      · exact h.book
    · exact h.book
  · exact h

protected theorem Sized.transferRefused (h : Sized ls s) (a : Nat) (c : AskRefusal) : Sized ls (transferRefused a c s) := by
  unfold transferRefused; split
  · split
    · exact (h.setYield _).placeBookState ..
    · exact h.setYield _
  · exact h

protected theorem Sized.askTransfer (h : Sized ls s) (y : Yield) : Sized ls (askTransfer y s) := by
  have ht := (h.setYield { y with stage := .asking }).takeCreate (transferReq y.acct y.target)
  unfold askTransfer
  dsimp only
  split
  · exact ht.transferCreated ..
  · exact ht.transferRefused ..
  · exact ht

protected theorem Sized.yieldCommitted (h : Sized ls s) (a n : Nat) (r : StoreRes) : Sized ls (yieldCommitted a n r s) := by
  unfold yieldCommitted; split
  · exact (h.endBookHand.takeAccount ..).askTransfer _
  · exact h.endBookHand.countStoreRefusal

protected theorem Sized.finishYield (h : Sized ls s) (y : Yield) (st : AcctState) (b : Bool) : Sized ls (finishYield y st b s) :=
  (h.setYield _).placeBookState ..

protected theorem Sized.transferOutcome (h : Sized ls s) (a : Nat) (p : Posting) (o : ExcOut) : Sized ls (transferOutcome a p o s) := by
  unfold transferOutcome; split
  · split
    · split
      · exact (h.dropHolds _).finishYield ..
      · exact (h.dropHolds _).finishYield ..
      · exact h.finishYield ..
      · exact ((h.withdrawTransfer _).dropHolds _).finishYield ..
      · exact h
    · exact h
  · exact h

protected theorem Sized.notifyOpened (h : Sized ls s) (y : Yield) : Sized ls (notifyOpened y s) :=
  .ite (h.onBook h.book) (h.placeOpened _)

protected theorem Sized.bookStateEnded (h : Sized ls s) (a : Nat) (r : StoreRes) : Sized ls (bookStateEnded a r s) := by
  unfold bookStateEnded; split
  · split
    · exact .ite (((h.takeAccount ..).dropYield _).notifyOpened _) ((h.takeAccount ..).dropYield _)
    · exact (h.setYield _).countStoreRefusal
    · exact (h.takeAccount ..).dropYield _
    · exact (h.setYield _).countStoreRefusal
    · exact h
  · exact h

protected theorem Sized.yieldRetry (h : Sized ls s) (a : Nat) : Sized ls (yieldRetry a s) := by
  unfold yieldRetry; split
  · split
    · exact h.askTransfer _
    · exact (h.setYield _).placeBookState ..
    · exact h
  · exact h

protected theorem Sized.bookStateRetry (h : Sized ls s) (a : Nat) : Sized ls (bookStateRetry a s) := by
  unfold bookStateRetry; split
  · split
    · exact h.finishYield ..
    · exact h
  · exact h

protected theorem Sized.bookLineUp (h : Sized ls s) : Sized ls (bookLineUp s) := by
  have ht := List.foldlRecOn (motive := Sized ls) s.book.openedWait (fun acc a => placeOpened a acc) h fun _ ht a _ => ht.placeOpened a
  exact ht.onBook ht.book

protected theorem Sized.endHand (h : Sized ls s) (e : Ends) : Sized ls (endHand e s) := by
  cases e with
  | nothing => exact h
  | bookHand => exact h.endBookHand
  | lotHand => exact h.endLotHand

/-! ### The EXC's outcomes at the units -/

protected theorem Sized.unitLocated (h : Sized ls s) (r : Ref) (q : Nat) (o : ExcOut) : Sized ls (unitLocated r q o s) := by
  unfold unitLocated; split
  · exact h.weighLocated ..
  · exact h.orderLocated ..
  · exact h.batchLocated ..
  · exact h

protected theorem Sized.unitOutcome (h : Sized ls s) (e : Entry) (o : ExcOut) : Sized ls (unitOutcome e o s) := by
  unfold unitOutcome; split
  · exact h.placeOutRemoval _
  · dsimp only
    split
    · exact h.deskOutcome ..
    · exact h.orderHoldOutcome ..
    · exact h.cluReleaseOutcome _
    · exact h.icmReleaseOutcome _
    · exact h.claimOutcome ..
    · exact h.unsoldOutcome ..
    · exact h.salePartOutcome ..
    · exact (h.settleOutcome ..).placeOutRemoval _
    · exact (h.batchOutcome ..).placeOutRemoval _
    · exact (h.transferOutcome ..).placeOutRemoval _
    · exact h.unitLocated ..

protected theorem Sized.unitCreated (h : Sized ls s) (r : Ref) (qs : List Nat) : Sized ls (unitCreated r qs s) := by
  unfold unitCreated; split
  · split
    · exact h.weighAsked _
    · exact h
  · split
    · exact h.orderLocateAsked _
    · exact h
  · exact h.deskAsked ..
  · exact h.orderAsked _
  · exact h.placeLotEnd
  · exact h.salePostsCreated _
  · exact h.placeLotEnd
  · exact h.reissueCreated _
  · exact h.salePartCreated ..
  · exact h.settleCreated _
  · exact h.batchPosted ..
  · exact h.transferCreated ..
  · exact h

protected theorem Sized.unitMade (h : Sized ls s) (r : Ref) (qs : List Nat) (n : Option Nat) : Sized ls (unitMade r qs n s) := by
  unfold unitMade
  dsimp only
  split
  · exact (h.unitCreated ..).unitLocated ..
  · exact h.unitCreated ..

protected theorem Sized.unitRefused (h : Sized ls s) (r : Ref) (c : AskRefusal) : Sized ls (unitRefused r c s) := by
  unfold unitRefused; split
  · exact h.deskRefused ..
  · exact h.orderRefused _
  · exact h.salePostsRefused ..
  · exact h.salePartRefused ..
  · exact h.settleRefused ..
  · exact h.batchRefused ..
  · exact h.transferRefused ..
  · exact h

protected theorem Sized.askUnit (h : Sized ls s) (r : CreateReq) : Sized ls (askUnit r s) := by
  unfold askUnit
  dsimp only
  split
  · exact (h.takeCreate r).unitMade ..
  · exact (h.takeCreate r).unitRefused ..
  · exact h.takeCreate r

protected theorem Sized.retryAsk (h : Sized ls s) : Sized ls (retryAsk s) := by
  unfold retryAsk; split
  · exact .askUnit (h.onExc h.exc) _
  · exact h

/-! ### FAILED and final entries, and the jobs that need a commit -/

protected theorem Sized.captureFailure (h : Sized ls s) (e : Entry) (p : Posting) (l : LastAns) : Sized ls (captureFailure e p l s) :=
  h.onExc h.exc

protected theorem Sized.failEntry (h : Sized ls s) (e : Entry) (l : LastAns) : Sized ls (failEntry e l s) := by
  have hc : Sized ls (s.onExc fun x => { x with cnt := { x.cnt with failed := bump x.cnt.failed } }) := h.onExc h.exc
  unfold failEntry
  dsimp only
  split
  · exact .unitOutcome (.raise ((hc.putEntry _).captureFailure ..) _) ..
  · exact (hc.freePlace _).unitOutcome ..

protected theorem Sized.finalEntry (h : Sized ls s) (e : Entry) (c : AnsCode) (d : AnsData) (n : Nat) : Sized ls (finalEntry e c d n s) :=
  .ite ((h.putEntry _).unitOutcome ..) ((h.freePlace _).unitOutcome ..)

protected theorem Sized.reidentFailed (h : Sized ls s) (q : Nat) : Sized ls (reidentFailed q s) := by
  unfold reidentFailed; split
  · exact h.failEntry ..
  · exact h

protected theorem Sized.settleJob (h : Sized ls s) (j : ExcJob) (r : JobRes) : Sized ls (settleJob j r s) := by
  unfold settleJob; split
  · exact h
  · exact .ite h (h.unitMade ..)
  · exact .ite h (h.unitRefused ..)
  · exact h.reidentFailed _
  · exact h

protected theorem Sized.runJobs (h : Sized ls s) (n : Nat) : Sized ls (runJobs n s) := by
  induction n generalizing s with
  | zero => exact h
  | succ n ih =>
    unfold runJobs; split
    · exact ih (.settleJob (.startJob (h.onExc h.exc) _) ..)
    · exact h

protected theorem Sized.askReident (h : Sized ls s) (q : Nat) : Sized ls (askReident q s) := .runJobs (h.onExc h.exc) _

protected theorem Sized.adoptNumbers (h : Sized ls s) : Sized ls (adoptNumbers s) := by
  have ht : Sized ls (if s.node.epoch = s.sys.epoch then s
      else (s.onSys fun y => { y with epoch := s.node.epoch }).onExc fun x => { x with holdNo := 1 }) := .ite h ((h.onSys _).onExc h.exc)
  exact .ite (ht.onSys _) ht

protected theorem Sized.numbersAfter (h : Sized ls s) (k : Nat) (r : StoreRes) : Sized ls (numbersAfter k r s) := by
  refine Sized.adoptNumbers ?_
  split
  · exact h
  · exact h.onNode _

protected theorem Sized.createEnded (h : Sized ls s) (r : CreateReq) (ps : List Posting) (res : StoreRes) :
    Sized ls (createEnded r ps res s) := by
  unfold createEnded; split
  · exact ((h.numbersAfter ..).standEntries r ps).unitMade ..
  · exact .unitRefused (List.foldlRecOn (motive := Sized ls) _ _ h fun _ ht _ _ => ht.placeRemoval ..) ..

protected theorem Sized.reidentEnded (h : Sized ls s) (q : Nat) (id : Ident) (res : StoreRes) : Sized ls (reidentEnded q id res s) := by
  unfold reidentEnded; split
  · split
    · dsimp only
      have hn := h.numbersAfter 1 res
      have ht (e : Entry) : Sized ls (putEntry e
          ((numbersAfter 1 res s).onExc fun x => { x with cnt := { x.cnt with reidents := bump x.cnt.reidents } })) :=
        .putEntry (hn.onExc hn.exc) e
      split
      · exact (ht _).placeRemoval ..
      · exact ht _
    · exact h.reidentFailed _
  · exact h

protected theorem Sized.excWorkEnded (h : Sized ls s) (res : StoreRes) : Sized ls (excWorkEnded res s) := by
  have ht : Sized ls (s.onExc fun x => { x with work := none }) := h.onExc h.exc
  unfold excWorkEnded
  dsimp only
  split
  · split
    · exact ((ht.adoptNumbers.startJob _).settleJob ..).runJobs _
    · exact (ht.settleJob ..).runJobs _
  · exact (ht.createEnded ..).runJobs _
  · exact (ht.reidentEnded ..).runJobs _
  · exact ht

/-! ### The ends of searches, and the line coming up -/

protected theorem Sized.takeSearch (h : Sized ls s) (o : ExcOut) (q : Nat) : Sized ls (takeSearch o s q) := by
  unfold takeSearch; split
  · split
    · exact h.failEntry ..
    · exact h.putEntry _
    · exact h.putEntry _
    · exact (h.freePlace _).unitOutcome ..
  · exact h

protected theorem Sized.stopSearching (h : Sized ls s) (e : Entry) : Sized ls (stopSearching e s) :=
  h.onExc ⟨by simpa using h.exc.1, h.exc.2⟩

protected theorem Sized.endSearch (h : Sized ls s) (e : Entry) (o : ExcOut) : Sized ls (endSearch e o s) :=
  List.foldlRecOn (motive := Sized ls) _ _ (h.stopSearching e) fun _ ht _ _ => ht.takeSearch ..

protected theorem Sized.placeOpening (h : Sized ls s) (e : Entry) : Sized ls (placeOpening e s) := (h.putEntry _).bookEnterOwn _

protected theorem Sized.windowEnd (h : Sized ls s) (e : Entry) (b : Bool) (ns : List Nat) (t : Option Nat) :
    Sized ls (windowEnd e b ns t s) := by
  unfold windowEnd; split
  · exact (h.mapEnter ..).endSearch ..
  · split
    · exact h.placeLocate ..
    · split
      · exact .ite (h.endSearch ..) (h.putEntry _)
      · exact .ite (.placeOpening (h.onExc h.exc) _) (.endSearch (h.onExc h.exc) ..)

protected theorem Sized.locateWindowEnd (h : Sized ls s) (q : Nat) : Sized ls (locateWindowEnd q s) := by
  unfold locateWindowEnd; split
  · split
    · exact h.windowEnd ..
    · exact h
  · exact h

protected theorem Sized.searchDeferEnd (h : Sized ls s) (q : Nat) : Sized ls (searchDeferEnd q s) := by
  unfold searchDeferEnd; split
  · split
    · exact h.beginSearch ..
    · exact h
  · exact h

protected theorem Sized.openingRetry (h : Sized ls s) (q : Nat) : Sized ls (openingRetry q s) := by
  unfold openingRetry; split
  · split
    · exact h.placeOpening _
    · exact h
  · exact h

protected theorem Sized.openingEnded (h : Sized ls s) (q : Nat) (r : OpenRes) : Sized ls (openingEnded q r s) := by
  unfold openingEnded; split
  · split
    · split
      · exact h.endSearch ..
      · exact h.endSearch ..
      · exact h.putEntry _
      · exact h.endSearch ..
    · exact h
  · exact h

protected theorem Sized.collectHome (h : Sized ls s) (n a q : Nat) : Sized ls (collectHome n a q s) := by
  unfold collectHome; split
  · split
    · split
      · exact h.putEntry _
      · exact h.putEntry _
      · exact h.putEntry _
      · exact h
    · exact h
  · exact h

protected theorem Sized.deferSearch (h : Sized ls s) {e : Entry} {w : Nat} {t : State} (ht : deferSearch e w s = some t) : Sized ls t := by
  unfold deferSearch at ht
  dsimp only at ht
  split at ht
  · obtain rfl := Option.some.inj ht; exact h.putEntry _
  · obtain rfl := Option.some.inj ht; exact h.putEntry _
  · obtain rfl := Option.some.inj ht; exact h
  · cases ht

protected theorem Sized.resolveAll (h : Sized ls s) : Sized ls (resolveAll s) := by
  refine List.foldlRecOn (motive := Sized ls) _ _ h fun t ht q _ => ?_
  split
  · have hr := ht.resolveWith (start := markSearch) (fun e _ hu => hu.markSearch e) q
    dsimp only
    split
    · exact hr.unitOutcome ..
    · exact hr
  · exact ht

protected theorem Sized.sendInTurn (h : Sized ls s) (q : Nat) : Sized ls (sendInTurn s q) := by
  unfold sendInTurn; split
  · split
    · exact h.placeLocate ..
    · exact .ite (h.sendEntry _) h
  · exact h

protected theorem Sized.excLineUp (h : Sized ls s) : Sized ls (excLineUp s) :=
  List.foldlRecOn (motive := Sized ls) _ _ h.refreshReady.resolveAll fun _ ht q _ => ht.sendInTurn q

end Sys2Proof.Machine
end

section
/-! The sizes at the EXC's answers and at the book's decisions. -/

namespace Sys2Proof.Machine
open Sys2Proof

variable {ls : LineState} {s : State}

/-! ### Sends, timeouts and answers at the EXC -/

protected theorem Sized.excSendNext (h : Sized ls s) : Sized ls (excSendNext s) := by
  unfold excSendNext; split
  · split
    · split
      · exact h.sendEntry _
      · exact h
    · exact h
  · exact h

protected theorem Sized.timedOut (h : Sized ls s) (e : Entry) : Sized ls (timedOut e s) :=
  .ite (.sendEntry (h.onExc h.exc) _) (.failEntry (h.onExc h.exc) ..)

protected theorem Sized.answerTimeout (h : Sized ls s) (q : Nat) : Sized ls (answerTimeout q s) := by
  unfold answerTimeout; split
  · exact .ite (h.timedOut _) h
  · exact h

protected theorem Sized.deferWaitEnd (h : Sized ls s) (q : Nat) : Sized ls (deferWaitEnd q s) := by
  unfold deferWaitEnd; split
  · exact .ite (h.sendEntry _) h
  · exact h

protected theorem Sized.reportSent (h : Sized ls s) (q n : Nat) : Sized ls (reportSent q n s) := by
  unfold reportSent; split
  · split
    · exact h
    · split
      · exact h.putEntry _
      · split
        · exact h.putEntry _
        · exact h
  · exact h

protected theorem Sized.reportDropped (h : Sized ls s) (q n : Nat) : Sized ls (reportDropped q n s) := by
  unfold reportDropped; split
  · split
    · exact h
    · split
      · exact .ite (h.sendEntry _) (h.timedOut _)
      · split
        · exact h.placeLocate ..
        · exact h
  · exact h

protected theorem Sized.countUnmatched (h : Sized ls s) : Sized ls (countUnmatched s) := h.onExc h.exc

protected theorem Sized.takeDefer (h : Sized ls s) (e : Entry) (n : Nat) : Sized ls (takeDefer e n s) :=
  .ite (.failEntry (h.onExc h.exc) ..) (.putEntry (h.onExc h.exc) _)

protected theorem Sized.takeMoved (h : Sized ls s) (e : Entry) (n : Nat) : Sized ls (takeMoved e n s) := by
  unfold takeMoved
  dsimp only
  exact .ite (h.failEntry ..) (.ite (.askReident (.putEntry (.mapMoved (h.onExc h.exc) ..) _) _) (.putEntry (.mapMoved (h.onExc h.exc) ..) _))

protected theorem Sized.takeStaleMap (h : Sized ls s) (e : Entry) : Sized ls (takeStaleMap e s) := ((h.mapRemove _).putEntry _).resolveEntry _

protected theorem Sized.takeMatched (h : Sized ls s) (e : Entry) (c : AnsCode) (d : AnsData) (n : Nat) : Sized ls (takeMatched e c d n s) := by
  unfold takeMatched
  dsimp only
  split
  · exact .ite h (h.takeDefer ..)
  · exact .ite h (h.takeMoved ..)
  · exact .ite h (h.failEntry ..)
  · exact .ite (.ite (h.finalEntry ..) (.ite h (h.failEntry ..))) (.ite (h.takeStaleMap _) (h.finalEntry ..))
  · exact h.finalEntry ..

protected theorem Sized.takeOwnAnswer (h : Sized ls s) (q : Nat) (a : BookAsk) (c : AnsCode) (d : AnsData) :
    Sized ls (takeOwnAnswer q a c d s) := by
  unfold takeOwnAnswer; split
  · exact .ite (h.takeMatched ..) h.countUnmatched
  · exact h.countUnmatched

protected theorem Sized.takeLineAnswer (h : Sized ls s) (src q : Nat) (k : ReqKind) (sub : Subject) (c : AnsCode) (d : AnsData) :
    Sized ls (takeLineAnswer src q k sub c d s) := by
  unfold takeLineAnswer; split
  · rename_i e _
    split
    · split
      · rename_i w _
        cases hd : deferSearch e w s with
        | none => exact h.countUnmatched
        | some t => exact h.deferSearch hd
      · exact h.countUnmatched
    · exact .ite (h.takeMatched ..) h.countUnmatched
  · exact h.countUnmatched

protected theorem Sized.countMalformed (h : Sized ls s) : Sized ls (countMalformed s) := h.onLif h.lif

protected theorem Sized.takeAnswer (h : Sized ls s) (d : Hdr) (a : RawAnswer) : Sized ls (takeAnswer d a s) := by
  unfold takeAnswer; split
  · unfold takeAnswerTo; split
    · split
      · exact h.countUnmatched
      · exact .ite (h.takeLineAnswer ..) h.countMalformed
    · exact h.countMalformed
  · exact h.countUnmatched

protected theorem Sized.retryEntry (h : Sized ls s) (e : Entry) : Sized ls (retryEntry e s) := by
  unfold retryEntry
  dsimp only
  split
  · exact ((h.mapMoved ..).putEntry _).askReident _
  · exact h.putEntry _

protected theorem Sized.discardEntry (h : Sized ls s) (e : Entry) : Sized ls (discardEntry e s) := (h.giveUpEntry e).unitOutcome ..

/-! ### The book's decisions -/

/-- The entry that the book takes leaves its queue. -/
protected theorem Sized.takeBook (h : Sized ls s) {f : BookReq → Option (State → State)}
    (hf : ∀ r g, f r = some g → ∀ t, Sized ls t → Sized ls (g t)) : Sized ls (takeBook f s) := by
  obtain ⟨r, rest, g, -, hq, hg, he⟩ | he := takeBook_cases f s <;> rw [he]
  · have hlen := h.book.1
    rw [hq, List.length_cons] at hlen
    exact hf r g hg _ (h.onBook ⟨(Nat.le_succ _).trans hlen, h.book.2⟩)
  · exact h

protected theorem Sized.bookReply (h : Sized ls s) (r : BookReq) (k : ReqKind) (sub : Subject) (c : AnsCode) (d : AnsData) :
    Sized ls (bookReply r k sub c d s) := by
  unfold bookReply; split
  · dsimp only
    split
    · exact h.placeMsg _ (isJoin_answerMsg ..)
    · exact (h.placeMsg _ (isJoin_answerMsg ..)).endBookHand
  · exact h.endBookHand.takeOwnAnswer ..
  · exact h.endBookHand

protected theorem Sized.endBookCmd (h : Sized ls s) (c : BookCmd) (a : Nat) (p : PCode) : Sized ls (endBookCmd c a p s) :=
  .raise (.endBookHand (h.onBook h.book)) _

protected theorem Sized.replyPost (h : Sized ls s) (r : BookReq) (p : Posting) (c : AnsCode) (d : AnsData) :
    Sized ls (replyPost r p c d s) := h.bookReply ..

protected theorem Sized.replyHold (h : Sized ls s) (r : BookReq) (a : Nat) (c : AnsCode) (d : AnsData) :
    Sized ls (replyHold r a c d s) := h.bookReply ..

protected theorem Sized.decidePost (h : Sized ls s) (r : BookReq) (x : Parsed Posting) : Sized ls (decidePost r x s) := by
  unfold decidePost; split
  · exact h.bookReply ..
  · split
    · exact .replyPost (h.onBook h.book) ..
    · split
      · exact h.replyPost ..
      · exact .ite (h.replyPost ..) (h.placeGroup ..)
      · exact h.endBookHand

theorem adoptHolds_length (a : Nat) (cs : List CarriedHold) {hs : List Hold} (h : hs.length ≤ 24) : (adoptHolds a cs hs).1.length ≤ 24 := by
  induction cs generalizing hs with
  | nil => exact h
  | cons c cs ih =>
    unfold adoptHolds; split
    · exact ih h
    · split
      · exact ih (by simpa using ‹hs.length < 24›)
      · exact ih h

theorem consumeHolds_length (p : Posting) {hs : List Hold} (h : hs.length ≤ 24) : (consumeHolds p hs).length ≤ 24 := by
  unfold consumeHolds; split
  · exact (List.length_filterMap_le ..).trans h
  · exact (List.length_filter_le ..).trans h
  · exact adoptHolds_length _ _ h
  · exact h

protected theorem Sized.applyAndAnswer (h : Sized ls s) (r : BookReq) (p : Posting) : Sized ls (applyAndAnswer r p s) := by
  have ht := h.takeAccount p.account (.post p)
  have hb (m : List Mark) (c : BookCounters) : Sized ls ((takeAccount p.account (.post p) s).onBook fun b => { b with
      marks := m, holds := consumeHolds p b.holds, cnt := c }) :=
    ht.onBook ⟨ht.book.1, consumeHolds_length p ht.book.2.1, ht.book.2.2⟩
  unfold applyAndAnswer
  dsimp only
  refine Sized.replyPost ?_ ..
  split
  · exact (hb _ _).dropHolds _
  · exact hb _ _

protected theorem Sized.postCommitted (h : Sized ls s) (res : StoreRes) : Sized ls (postCommitted res s) := by
  unfold postCommitted; split
  · split
    · exact .ite (h.applyAndAnswer ..) (h.countStoreRefusal.replyPost ..)
    · exact h
  · exact h

protected theorem Sized.grantHold (h : Sized ls s) (hroom : s.book.holds.length < 24) (r : BookReq) (q : HoldReq) (a : Account) :
    Sized ls (grantHold r q a s) := by
  unfold grantHold; split
  · exact .replyHold (h.onBook ⟨h.book.1, by simpa using hroom, h.book.2.2⟩) ..
  · exact h.replyHold ..

protected theorem Sized.decideNewHold (h : Sized ls s) (r : BookReq) (q : HoldReq) : Sized ls (decideNewHold r q s) := by
  unfold decideNewHold; split
  · exact h.replyHold ..
  · split
    · exact h.replyHold ..
    · exact .ite (h.replyHold ..) (h.grantHold (by omega) ..)
  · exact h.endBookHand

protected theorem Sized.decideHold (h : Sized ls s) (r : BookReq) (x : Parsed HoldReq) : Sized ls (decideHold r x s) := by
  unfold decideHold; split
  · exact h.bookReply ..
  · split
    · exact .ite (h.replyHold ..) (h.decideNewHold ..)
    · exact h.decideNewHold ..

protected theorem Sized.decideReleaseReq (h : Sized ls s) (r : BookReq) (x : Parsed ReleaseReq) : Sized ls (decideReleaseReq r x s) := by
  unfold decideReleaseReq; split
  · exact h.bookReply ..
  · rename_i q
    have hstate : Sized ls (match stateAnswer s q.account with
        | some (c, d) => bookReply r .release (.account q.account) c d s
        | none => bookReply r .release (.account q.account) .done .none s) := by
      split
      · exact h.bookReply ..
      · exact h.bookReply ..
    dsimp only
    split
    · exact .ite (.bookReply (h.onBook (h.book.filterHolds _)) ..) hstate
    · exact hstate

protected theorem Sized.holdSecond (h : Sized ls s) (k : Ident) : Sized ls (holdSecond k s) := by
  unfold holdSecond; split
  · exact .ite h (.ite (h.onBook (h.book.filterHolds _)) (h.onBook ⟨h.book.1, by simpa using h.book.2.1, h.book.2.2⟩))
  · exact h

protected theorem Sized.decideLocate (h : Sized ls s) (r : BookReq) (x : Parsed Nat) : Sized ls (decideLocate r x s) := by
  unfold decideLocate; split
  · exact h.bookReply ..
  · split
    · rename_i a _ _ _ _ _
      dsimp only
      split
      · exact h.placeMsg _ rfl
      · exact (h.placeMsg _ rfl).endBookHand
    · exact h.endBookHand

protected theorem Sized.compareHome (h : Sized ls s) (n : Nat) (x : Parsed Nat) : Sized ls (compareHome n x s) := by
  unfold compareHome; split
  · exact h.countMalformed.endBookHand
  · exact .ite (.ite (h.placeOpened _).endBookHand (.ite (h.beginYield ..) h.endBookHand)) h.endBookHand

protected theorem Sized.placeCreate (h : Sized ls s) (a : Nat) (f : Int) : Sized ls (placeCreate a f s) := h.placeGroup ..

protected theorem Sized.takeCmdOpen (h : Sized ls s) (a l : Nat) : Sized ls (takeCmdOpen a l s) := by
  unfold takeCmdOpen; split
  · exact h.endBookCmd ..
  · exact h.endBookCmd ..
  · exact h.endBookCmd ..
  · exact h.endBookCmd ..
  · exact h.placeCreate ..

protected theorem Sized.takeLocalOpen (h : Sized ls s) (q a : Nat) : Sized ls (takeLocalOpen q a s) := by
  unfold takeLocalOpen; split
  · exact h.endBookHand.openingEnded ..
  · exact h.endBookHand.openingEnded ..
  · exact h.endBookHand.openingEnded ..
  · exact h.endBookHand.openingEnded ..
  · exact h.placeCreate ..

protected theorem Sized.openCommitted (h : Sized ls s) (f : Int) (res : StoreRes) : Sized ls (openCommitted f res s) := by
  unfold openCommitted; split
  · dsimp only
    split
    · exact ((h.takeAccount ..).placeOpened _).endBookCmd ..
    · exact h.countStoreRefusal.endBookCmd ..
    · exact ((h.takeAccount ..).placeOpened _).endBookHand.openingEnded ..
    · exact h.countStoreRefusal.endBookHand.openingEnded ..
    · exact h
  · exact h

protected theorem Sized.takeAdjust (h : Sized ls s) (a : Nat) (n : Int) : Sized ls (takeAdjust a n s) := by
  unfold takeAdjust; split
  · exact h.endBookCmd ..
  · exact h.placeGroup ..

protected theorem Sized.takeRemove (h : Sized ls s) (a : Nat) : Sized ls (takeRemove a s) := by
  unfold takeRemove; split
  · exact h.endBookCmd ..
  · split
    · exact h.endBookCmd ..
    · exact h.placeRemoval ..
    · exact .ite (h.placeRemoval ..) (h.endBookCmd ..)

protected theorem Sized.takeClear (h : Sized ls s) (a : Nat) : Sized ls (takeClear a s) := by
  unfold takeClear; split
  · exact h.endBookCmd ..
  · exact .ite (h.placeGroup ..) (h.endBookCmd ..)
  · exact h.endBookCmd ..

protected theorem Sized.adjustCommitted (h : Sized ls s) (res : StoreRes) : Sized ls (adjustCommitted res s) := by
  unfold adjustCommitted; split
  · split
    · exact (h.takeAccount ..).endBookCmd ..
    · exact h.countStoreRefusal.endBookCmd ..
  · exact h

protected theorem Sized.removeCommitted (h : Sized ls s) : Sized ls (removeCommitted s) := by
  unfold removeCommitted; split
  · exact .endBookCmd (h.onBook ⟨h.book.1, h.book.2.1, (List.length_filter_le ..).trans h.book.2.2⟩) ..
  · exact h

protected theorem Sized.clearCommitted (h : Sized ls s) (res : StoreRes) : Sized ls (clearCommitted res s) := by
  unfold clearCommitted; split
  · split
    · exact (h.takeAccount ..).endBookCmd ..
    · exact h.countStoreRefusal.endBookCmd ..
  · exact h

protected theorem Sized.bookPlaceWaiting (h : Sized ls s) : Sized ls (bookPlaceWaiting s) := by
  unfold bookPlaceWaiting; split
  · split
    · rename_i r rest _ hroom
      have ht : Sized ls (if isHandOver r then countSend s else s) := .ite h.countSend h
      have hq : (if isHandOver r then countSend s else s).book.queue = s.book.queue := by split <;> rfl
      exact .bookEnter (ht.onBook ht.book) (hq ▸ hroom) _
    · exact h
  · exact h

end Sys2Proof.Machine
end

section
/-! The sizes at the Line Interface. -/

namespace Sys2Proof.Machine
open Sys2Proof

variable {ls : LineState} {s : State}

/-! ### Line states -/

protected theorem Sized.onLineCounters (h : Sized ls s) (f : LifCounters → LifCounters) : Sized ls (onLineCounters f s) := h.onLif h.lif

protected theorem Sized.setLine {st : LineState} (h : Sized ls s) (hq : st ≠ .announce → st ≠ .active → s.lif.queue = []) :
    Sized st (setLine st s) := by
  obtain ⟨-, hqueue, hreserve, hpeers, -⟩ := h.lif
  exact .raise (h.onLif (f := fun l => { l with state := st }) ⟨rfl, hqueue, hreserve, hpeers, hq⟩) _

/-- Emptying the queues leaves nothing to keep of a line state, whichever one has just been entered. -/
theorem Sized.emptyQueues {st : LineState} (h : Sized ls s) {f : Lif → Lif} (hs : (f s.lif).state = st) (hp : (f s.lif).peers.length ≤ 62) :
    Sized st (emptyQueues (s.onLif f)) :=
  List.foldlRecOn (motive := Sized st) _ _
    (h.onLif (f := fun l => { f l with queue := [], reserve := [], wait := [], tx := none, listenT := none, clashT := none, presentT := none })
      ⟨hs, Nat.zero_le _, Nat.zero_le _, hp, fun _ _ => rfl⟩)
    fun _ ht e _ => ht.endHand e

protected theorem Sized.tellLineDown (h : Sized ls s) : Sized ls (tellLineDown s) := .ite h.excLineDown.wguLineDown h.excLineDown

protected theorem Sized.enterDown (h : Sized ls s) (st : LineState) (o : JoinOutcome) : Sized st (enterDown st o s) :=
  .raise (.tellLineDown (h.emptyQueues (f := fun l => { l with state := st, lastJoin := o }) rfl h.lif.2.2.2.1)) _

protected theorem Sized.enterConflict (h : Sized ls s) : Sized .conflict (enterConflict s) := (h.enterDown ..).raise _

protected theorem Sized.enterLineFault (h : Sized ls s) : Sized .lineFault (enterLineFault s) := h.enterDown ..

protected theorem Sized.quiet (h : Sized ls s) (ha : ls ≠ .announce := by decide) (hb : ls ≠ .active := by decide) : s.lif.queue = [] :=
  h.lif.2.2.2.2 ha hb

protected theorem Sized.enterListen (h : Sized .offline s) : Sized .listen (enterListen s) :=
  .setLine (h.onLif h.lif) fun _ _ => h.quiet

protected theorem Sized.numberEnded (h : Sized ls s) (r : StoreRes) : WithinSizes (numberEnded r s) := by
  unfold numberEnded
  dsimp only
  split
  · exact h.within
  · rename_i hoff
    obtain rfl : ls = .offline := h.lif.1.symm.trans (not_not.1 hoff)
    split
    · exact h.enterListen.within
    · exact (Sized.raise (h.onLif h.lif) _).within
    · exact (Sized.raise (h.onLif h.lif) _).within

protected theorem Sized.joinAccepted (h : Sized .offline s) : WithinSizes (joinAccepted s) := by
  have ht : Sized .offline (s.onLif fun l => { l with rate := s.port.cfg.lineRate, cnt := { l.cnt with consecErrors := 0 } }) :=
    h.onLif h.lif
  unfold joinAccepted
  dsimp only
  split
  · exact ht.within
  · split
    · exact (Sized.placeGroup (ht.onLif ht.lif) ..).within
    · exact ht.enterListen.within

/-- R79: the JOIN is the first message of the send queue. -/
theorem Sized.placeJoin (h : Sized .announce s) (hq : s.lif.queue = []) (e : Ends) (m : Msg) : Sized .announce (placeMsg e m s) := by
  obtain ⟨-, he⟩ | ⟨-, he⟩ | ⟨-, he⟩ := placeMsg_cases e m s <;> rw [he]
  · exact h.enqueueMsg (.inl rfl) (by simp [hq]) m
  · exact h.onLif h.lif
  · exact h

theorem setLine_queue (st : LineState) (s : State) : (setLine st s).lif.queue = s.lif.queue := by
  unfold setLine raise; split <;> rfl

protected theorem Sized.listenIdle (h : Sized ls s) : WithinSizes (listenIdle s) := by
  unfold listenIdle; split
  · rename_i hl
    obtain rfl : ls = .listen := h.lif.1.symm.trans hl
    have ht : Sized .listen (s.onLif fun l => { l with listenT := none }) := h.onLif h.lif
    exact (Sized.placeJoin (ht.setLine (st := .announce) fun _ _ => ht.quiet) ((setLine_queue ..).trans ht.quiet) ..).within
  · exact h.within

protected theorem Sized.listenTimesOut (h : Sized ls s) : WithinSizes (listenTimesOut s) := by
  unfold listenTimesOut; split
  · exact h.enterLineFault.within
  · exact h.within

protected theorem Sized.becomeActive (h : Sized ls s) : Sized .active (becomeActive s) := by
  have ht : Sized .active (bookLineUp (excLineUp (setLine .active (s.onLif fun l =>
      { l with lastJoin := .active, clashT := none, presentT := some 0 })))) :=
    .bookLineUp (.excLineUp (.setLine (h.onLif h.lif) fun _ ha => (ha rfl).elim))
  exact .ite ht.wguLineUp ht

protected theorem Sized.clashWindowEnds (h : Sized ls s) : WithinSizes (clashWindowEnds s) := by
  unfold clashWindowEnds; split
  · exact h.becomeActive.within
  · exact h.within

protected theorem Sized.leaveNow (h : Sized ls s) : Sized .offline (leaveNow s) := by
  have ht := h.emptyQueues (st := .offline) (f := fun l => { l with state := .offline, lastJoin := .left, leaving := false, peers := [] }) rfl
    (Nat.zero_le _)
  exact .raise (.tellLineDown (ht.onExc ⟨ht.exc.1, Nat.zero_le _⟩)) _

protected theorem Sized.takeLeave (h : Sized ls s) : WithinSizes (takeLeave s) := by
  unfold takeLeave; split
  · exact h.within
  · split
    · exact h.leaveNow.within
    · exact (h.onLif (ls' := ls) h.lif).within

protected theorem Sized.leaveDrained (h : Sized ls s) : WithinSizes (leaveDrained s) := by
  unfold leaveDrained; split
  · exact h.leaveNow.within
  · exact h.within

/-! ### Peers -/

protected theorem Sized.hearPeer (h : Sized ls s) (n : Nat) (t : Option (Role × Nat)) : Sized ls (hearPeer n t s) := by
  obtain ⟨hs, hqueue, hreserve, hpeers, hquiet⟩ := h.lif
  unfold hearPeer
  exact h.onLif ⟨hs, hqueue, hreserve, putKeyed_length_le _ _ hpeers, hquiet⟩

protected theorem Sized.peerExpires (h : Sized ls s) (n : Nat) : Sized ls (peerExpires n s) := by
  obtain ⟨hs, hqueue, hreserve, hpeers, hquiet⟩ := h.lif
  unfold peerExpires; split
  · split
    · exact h
    · have ht : Sized ls (s.onLif fun l => { l with
          peers := l.peers.filter fun x => x.node != n, cnt := { l.cnt with peersRemoved := bump l.cnt.peersRemoved } }) :=
        h.onLif ⟨hs, hqueue, hreserve, (List.length_filter_le ..).trans hpeers, hquiet⟩
      exact .wguPeerRemoved (ht.onExc ⟨ht.exc.1, (List.length_filter_le ..).trans ht.exc.2⟩)
  · exact h

/-! ### Taking a message -/

protected theorem WithinSizes.ownHeard (h : WithinSizes s) : WithinSizes (ownHeard s) := by
  unfold ownHeard; split
  · exact h.sized.enterConflict.within
  · exact h.sized.enterConflict.within
  · exact h.sized.enterConflict.within
  · exact h

/-- A message keeps the sizes where its delivery does, and where a message of the own number does. -/
protected theorem WithinSizes.hear (h : WithinSizes s) (toAll : Bool) (d : Hdr) (told : Option (Role × Nat)) {own deliver : State → State}
    (hown : ∀ t, WithinSizes t → WithinSizes (own t)) (hdeliver : ∀ ls t, Sized ls t → Sized ls (deliver t)) :
    WithinSizes (hear toAll d told own deliver s) := by
  unfold hear; split
  · exact h
  · split
    · exact (h.sized.onLineCounters _).within
    · have ht : WithinSizes (if d.src = s.self then own s else hearPeer d.src told s) := by
        split
        · exact hown s h
        · exact (h.sized.hearPeer ..).within
      dsimp only
      generalize (if d.src = s.self then own s else hearPeer d.src told s) = t at ht ⊢
      split
      · exact (ht.sized.onLineCounters _).within
      · split
        · exact (hdeliver _ _ ht.sized).within
        · exact (ht.sized.onLineCounters _).within

protected theorem Sized.countReceived (h : Sized ls s) : Sized ls (countReceived s) := h.onLineCounters _

protected theorem Sized.hearGarbled (h : Sized ls s) (w : RawLine) : Sized ls (hearGarbled w s) := by
  unfold hearGarbled; split
  · exact h
  · split
    · exact h.onLineCounters _
    · exact h.onLineCounters _
    · exact h

protected theorem Sized.countBadNotice (h : Sized ls s) (d : Hdr) (t : Option (Role × Nat)) : Sized ls (countBadNotice d t s) :=
  .ite h.countMalformed h

protected theorem WithinSizes.ownJoin (h : WithinSizes s) (n : Nat) : WithinSizes (ownJoin n s) := by
  unfold ownJoin; split
  · exact (h.sized.reserveMsg ..).within
  · exact h.ownHeard

protected theorem WithinSizes.hearJoin (h : WithinSizes s) (d : Hdr) (role ring serial : Nat) : WithinSizes (hearJoin d role ring serial s) :=
  (h.sized.countBadNotice ..).within.hear _ _ _ (fun _ ht => ht.ownJoin _) fun _ _ ht => ht.countReceived

protected theorem WithinSizes.hearPresent (h : WithinSizes s) (d : Hdr) (role ring : Nat) : WithinSizes (hearPresent d role ring s) :=
  (h.sized.countBadNotice ..).within.hear _ _ _ (fun _ ht => ht.ownHeard) fun _ _ ht => ht.countReceived

protected theorem WithinSizes.hearClash (h : WithinSizes s) (d : Hdr) (n : Nat) : WithinSizes (hearClash d n s) := by
  refine WithinSizes.hear ?_ _ _ _ (fun _ ht => ht.ownHeard) fun _ _ ht => ht.countReceived
  unfold clashNames
  split
  · split
    · exact h.sized.enterConflict.within
    · exact h
  · exact h

protected theorem Sized.noticeToBook (h : Sized ls s) (r : BookReq) : Sized ls (noticeToBook r s) := by
  unfold noticeToBook; split
  · exact h.bookEnter (bookRoom_lt ‹_›) r
  · exact h.onBook h.book

protected theorem Sized.collectIfRead (h : Sized ls s) (d : Hdr) (p : Parsed Nat) : Sized ls (collectIfRead d p s) := by
  unfold collectIfRead; split
  · exact h.collectHome ..
  · exact h

protected theorem Sized.reserveDefer (h : Sized ls s) (d : Hdr) (k : ReqKind) (sub : Subject) : Sized ls (reserveDefer d k sub s) :=
  h.reserveMsg ..

protected theorem Sized.requestToBook (h : Sized ls s) (d : Hdr) (k : ReqKind) (sub : Subject) (a : BookAsk) :
    Sized ls (requestToBook d k sub a s) := by
  unfold requestToBook; split
  · exact h.countReceived.bookEnter (bookRoom_lt ‹_›) _
  · exact h.reserveDefer ..

protected theorem Sized.requestToScale (h : Sized ls s) (d : Hdr) (k : ReqKind) (lot : LotId) (r : LotReq) :
    Sized ls (requestToScale d k lot r s) := .ite (h.countReceived.lotArrive r) (h.reserveMsg ..)

protected theorem Sized.noticeToClock (h : Sized ls s) (d : RawLot) : Sized ls (noticeToClock d s) := by
  unfold noticeToClock; split
  · split
    · exact h.countReceived.cluNotice _
    · exact h.countReceived.countMalformed
  · exact h.onLineCounters _

/-! ### Sending -/

protected theorem Sized.quietTime (h : Sized ls s) : Sized ls (quietTime s) := by
  unfold quietTime; split
  · split
    · exact h.onLif h.lif
    · exact h
  · exact h

protected theorem Sized.dropMsg (h : Sized ls s) (m : Msg) : Sized ls (dropMsg m s) := by
  obtain ⟨hs, hqueue, hreserve, hpeers, hquiet⟩ := h.lif
  exact h.onLif ⟨hs, (List.length_filter_le ..).trans hqueue, (List.length_filter_le ..).trans hreserve, hpeers,
    fun ha hb => by simp [hquiet ha hb]⟩

protected theorem Sized.loseContention (h : Sized ls s) : Sized ls (loseContention s) := by
  unfold loseContention; split
  · exact .onLineCounters (h.onLif h.lif) _
  · exact h

protected theorem Sized.reportSentTo (h : Sized ls s) (m : Msg) : Sized ls (reportSentTo m s) := by
  unfold reportSentTo; split
  · exact h.reportSent ..
  · unfold joinSent; split
    · exact .ite (h.onLif h.lif) h
    · exact h
  · exact h

protected theorem Sized.reportDroppedTo (h : Sized ls s) (m : Msg) : WithinSizes (reportDroppedTo m s) := by
  unfold reportDroppedTo; split
  · exact (h.reportDropped ..).within
  · split
    · exact h.enterLineFault.within
    · exact h.within
  · exact h.within

protected theorem Sized.sendCompletes (h : Sized ls s) : Sized ls (sendCompletes s) := by
  unfold sendCompletes; split
  · rename_i m _
    have hd := h.dropMsg m
    have ht : Sized ls ((dropMsg m s).onLif fun l => { l with
        presentT := l.presentT.map fun _ => 0, cnt := { l.cnt with consecErrors := 0, sent := bump l.cnt.sent } }) := hd.onLif hd.lif
    exact .ite ht (ht.reportSentTo m)
  · exact h

protected theorem Sized.countLineError (h : Sized ls s) (m : Msg) : Sized ls (countLineError m s) := by
  obtain ⟨hs, hqueue, hreserve, hpeers, hquiet⟩ := h.lif
  unfold countLineError
  exact h.onLif ⟨hs, by simpa using hqueue, by simpa using hreserve, hpeers, fun ha hb => by simp [hquiet ha hb]⟩

protected theorem Sized.countDropped (h : Sized ls s) : Sized ls (countDropped s) := h.onLineCounters _

protected theorem Sized.lineErrs (h : Sized ls s) : WithinSizes (lineErrs s) := by
  unfold lineErrs; split
  · rename_i m _
    have ht := h.countLineError m
    dsimp only
    split
    · exact (ht.dropMsg m).countDropped.enterLineFault.within
    · split
      · split
        · exact (ht.dropMsg m).countDropped.within
        · exact (ht.dropMsg m).countDropped.reportDroppedTo m
      · exact ht.within
  · exact h.within

protected theorem Sized.notePlaced (h : Sized ls s) (m : Msg) : Sized ls (notePlaced m s) := by
  unfold notePlaced; split
  · exact h.countSend
  · split
    · exact .decideNoRing (.ite (h.putLot ‹_› (by rfl)) h) _
    · exact h
  · exact h

theorem lineActive_iff : s.lineActive = true ↔ s.lif.state = .active := by simp [State.lineActive]

protected theorem Sized.placeWaiting (h : Sized ls s) : Sized ls (placeWaiting s) := by
  unfold placeWaiting; split
  · split
    · rename_i w rest _ hgo
      simp only [Bool.and_eq_true, decide_eq_true_eq, lineActive_iff] at hgo
      have ht : Sized ls (s.onLif fun l => { l with wait := rest }) := h.onLif h.lif
      exact ((ht.enqueueMsg (.inr (h.lif.1.symm.trans hgo.1)) hgo.2 _).notePlaced _).endHand _
    · exact h
  · exact h

protected theorem Sized.presentDue (h : Sized ls s) : Sized ls (presentDue s) := by
  unfold presentDue; split
  · exact .ite (h.placeMsg _ rfl) h
  · exact h

end Sys2Proof.Machine
end

section
/-! The sizes at start-up, at the ends of store requests and at the station port's commands. -/

namespace Sys2Proof.Machine
open Sys2Proof

variable {ls : LineState} {s : State}

/-! ### Start-up -/

theorem StoreSizes.scan {st : Store} (h : StoreSizes st) (ds : List (Nat × Decay)) (ps : List Nat) (b : Bool) :
    StoreSizes (scanStore ds ps b st) :=
  ⟨by simpa [scanStore, chooseCopies] using h.1, h.2.1, by simp [scanStore]⟩

theorem restoredAccounts_length (st : Store) : (restoredAccounts st).length ≤ 128 := by
  refine foldl_putKeyed_length_le (fun a : Account => a.number) _ (fun l b => ?_) _ (Nat.zero_le _)
  split
  · exact .inr ⟨_, rfl⟩
  · exact .inl rfl

protected theorem Sized.excRestore (h : Sized ls s) : Sized ls (excRestore s) := by
  unfold excRestore
  refine List.foldlRecOn (motive := Sized ls) _ _ (h.onExc ⟨?_, h.exc.2⟩) fun _ ht _ _ => ht.placeRemoval ..
  simp only [List.length_mapIdx, List.length_range']
  have hkept := List.length_take_le 32 ((outRecords s.store).filter fun o => !outDropped s.book.accounts (outRecords s.store) o)
  omega

protected theorem Sized.restoreYield (h : Sized ls s) (a : Account) : Sized ls (restoreYield s a) := by
  unfold restoreYield; split
  · split
    · exact h.setYield _
    · exact h.finishYield ..
  · exact h

protected theorem Sized.handOver (h : Sized ls s) : Sized ls (handOver s) := by
  have ht (y : Sys) (flags : BitVec 12) (fresh : Bool) (serial epoch : Nat) : Sized ls { s with
      sys := y, port := { s.port with flags := flags, fresh := fresh }, lif := { s.lif with serial := serial }
      cgt := { s.cgt with startEpoch := epoch } } := ⟨h.store, h.lif, h.book, h.exc, h.wgu, h.scale, h.clu, h.cgt⟩
  unfold handOver
  dsimp only
  refine .ite (.raise ?_ _) ?_
  all_goals exact List.foldlRecOn (motive := Sized ls) _ _ (.wguAfterScan (.excRestore (ht ..))) fun _ hu a _ => hu.restoreYield a

protected theorem Sized.startEpochEnded (h : Sized ls s) (e : Nat) (r : StoreRes) : Sized ls (startEpochEnded e r s) := by
  unfold startEpochEnded; split
  · exact (h.onSys _).handOver
  · exact ((h.onSys _).raise _).handOver

protected theorem Sized.advanceEpoch (h : Sized ls s) : Sized ls (advanceEpoch s) :=
  .ite ((h.onSys _).placeGroup ..) ((h.onSys _).onSys _).handOver

protected theorem Sized.scanEnds (h : Sized ls s) (ds : List (Nat × Decay)) (ps : List Nat) (b : Bool) : Sized ls (scanEnds ds ps b s) := by
  unfold scanEnds; split
  · exact h
  · have hp : Sized ls (if pageFails ps s.store then raise .storeEvent s else s) := .ite (h.raise _) h
    have ht : Sized ls ((if pageFails ps s.store then raise .storeEvent s else s).onStore (scanStore ds ps b)) :=
      hp.onStore (hp.store.scan ..)
    exact .advanceEpoch (.onNode (ht.onBook ⟨ht.book.1, ht.book.2.1, restoredAccounts_length _⟩) _)

protected theorem Sized.resetGoesLow (h : Sized ls s) : WithinSizes (resetGoesLow s) := by
  unfold resetGoesLow
  dsimp only
  split
  · exact (h.onSys _).within
  · exact ((h.onSys _).beginStartUp _).within

protected theorem Sized.supplyLost (h : Sized ls s) : WithinSizes (supplyLost s) := by
  unfold supplyLost; split
  · exact h.within
  · exact (h.cutOperation.clearWorking ..).within

/-- A role comes into service where none was, so that no WEIGH is in hand. -/
protected theorem Sized.bringIntoService (h : Sized ls s) : Sized ls (bringIntoService s) := by
  unfold bringIntoService; split
  · rename_i r hrole _
    have hw : s.wgu.weigh = none := by
      cases hw : s.wgu.weigh with
      | none => rfl
      | some g => exact absurd (hrole.symm.trans (h.scale (by simp [hw]))) nofun
    have ht : Sized ls (s.onPort fun p => { p with role := some r }) :=
      ⟨h.store, h.lif, h.book, h.exc, h.wgu, fun hg => absurd hg (by simp [hw]), h.clu, h.cgt⟩
    cases r with
    | scale => exact ht.wguRestore hw
    | clock => exact ht.cluRestore
    | ice => exact ht.icmRestore
    | gate => exact ht
  · exact h

/-! ### The STORE's steps -/

protected theorem Sized.storeOutcome (h : Sized ls s) (o : Owner) (r : StoreRes) : WithinSizes (storeOutcome o r s) := by
  cases o with
  | startEpoch e => exact (h.startEpochEnded e r).within
  | refresh => exact h.within
  | number => exact h.numberEnded r
  | excWork => exact (h.excWorkEnded r).within
  | outRemoval id => exact (h.outRemoved id).within
  | bookPost => exact (h.postCommitted r).within
  | bookOpen f => exact (h.openCommitted f r).within
  | bookAdjust => exact (h.adjustCommitted r).within
  | bookRemove => exact h.removeCommitted.within
  | bookClear => exact (h.clearCommitted r).within
  | bookYield a n => exact (h.yieldCommitted a n r).within
  | bookState a => exact (h.bookStateEnded a r).within
  | cal f => exact (h.calEnded f r).within
  | lotCreate => exact (h.lotCreated r).within
  | lotHand => exact (h.lotHandEnded r).within
  | claim lot => exact (h.claimCommitted lot r).within
  | lotEnd lot => exact (h.lotEnded lot r).within
  | queueClean lot => exact (h.queueCleaned lot r).within
  | saleLog => exact (h.saleLogged r).within
  | sale n c => exact (h.saleUpdated n c r).within
  | saleRemove n => exact (h.saleRemoved n).within
  | iceCreate o => exact (h.iceCreated o r).within
  | iceCheckpoint k n => exact (h.checkpointEnded k n r).within
  | iceRemove => exact h.within
  | pool d => exact (h.poolEnded d r).within

protected theorem WithinSizes.deliver {e : StoreEnd} (h : WithinSizes e.1) : WithinSizes (deliver e) := by
  unfold deliver; split
  · exact h.sized.storeOutcome ..
  · exact h

protected theorem Sized.placePending (h : Sized ls s) : Sized ls (placePending s) := by
  unfold placePending; split
  · split
    · rename_i r rest _ hroom
      have ht : Sized ls (s.onStore fun st => { st with pend := rest }) := h.onStore h.store
      exact .returnIfListed (ht.listRequest hroom.1 r)
    · exact h
  · exact h

/-! ### Owners of the station port's commands -/

protected theorem Sized.bookCmd (h : Sized ls s) (g : Bool) (a : Option BookAsk) : Sized ls (bookCmd g a s).1 := by
  unfold bookCmd; split
  · exact h
  · split
    · exact h
    · split
      · exact h
      · rename_i hbusy
        simp only [bookCmdBusy, Bool.or_eq_true, Bool.not_eq_true', not_or, Bool.not_eq_false] at hbusy
        exact h.bookEnter (bookRoom_lt hbusy.2) _

protected theorem Sized.outboundCmd (h : Sized ls s) {f : Entry → State → State} (hf : ∀ e, Sized ls (f e s)) (q : Nat) :
    Sized ls (outboundCmd f q s).1 := by
  unfold outboundCmd; split
  · exact h
  · split
    · exact hf _
    · exact h

protected theorem Sized.showOwner (h : Sized ls s) : Sized ls (showOwner s).1 := by
  unfold showOwner; split
  · exact h
  · split
    · exact h.setClock _
    · exact h

protected theorem Sized.startOwner (h : Sized ls s) (f : Option Figures) : Sized ls (startOwner f s).1 := by
  unfold startOwner; split
  · exact h
  · split
    · exact h
    · split
      · exact h
      · exact .setClock (h.onClu h.clu) _

protected theorem Sized.haltOwner (h : Sized ls s) : Sized ls (haltOwner s).1 := by
  unfold haltOwner; split
  · exact h
  · exact .setClock (h.onClu h.clu) _

protected theorem Sized.resumeOwner (h : Sized ls s) : Sized ls (resumeOwner s).1 := by
  unfold resumeOwner; split
  · exact h
  · exact .setClock (h.onClu h.clu) _

protected theorem Sized.withdrawOwner (h : Sized ls s) : Sized ls (withdrawOwner s).1 := by
  unfold withdrawOwner; split
  · exact .enterNoSale (h.onClu h.clu)
  · exact h

protected theorem Sized.deskInOwner (h : Sized ls s) (d : Nat) (b a : Field) : Sized ls (deskInOwner d b a s).1 := by
  unfold deskInOwner; split
  · exact h
  · split
    · exact h
    · split
      · exact h
      · exact (h.setDesk ..).askDeskHold ..

protected theorem Sized.deskOutOwner (h : Sized ls s) (d : Nat) : Sized ls (deskOutOwner d s).1 := by
  unfold deskOutOwner; split
  · exact h
  · exact h.deskSignOut d

protected theorem Sized.collectOwner (h : Sized ls s) (n : Nat) : Sized ls (collectOwner n s).1 := by
  unfold collectOwner; split
  · exact h.collectSale n
  · exact h

protected theorem Sized.batchOpenOwner (h : Sized ls s) (k : Option BatchKind) (a : Field) : Sized ls (batchOpenOwner k a s).1 := by
  unfold batchOpenOwner; split
  · exact h
  · exact h
  · split
    · exact h
    · refine Sized.askUnit (h.onCgt ⟨h.cgt.1, fun b hb => ?_⟩) _
      obtain rfl := Option.some.inj hb
      exact Nat.zero_le _

protected theorem Sized.batchCloseOwner (h : Sized ls s) : Sized ls (batchCloseOwner s).1 := by
  unfold batchCloseOwner; split
  · split
    · exact h
    · exact h.closeBatch ‹_›
  · exact h

protected theorem Sized.batchCancelOwner (h : Sized ls s) : Sized ls (batchCancelOwner s).1 := by
  unfold batchCancelOwner; split
  · unfold cancelBatch finish
    dsimp only
    split
    · exact (h.dropAsk _).endBatch ..
    · exact h
  · exact h

protected theorem Sized.blockOwner (h : Sized ls s) (n : Nat) : Sized ls (blockOwner n s).1 := by
  unfold blockOwner; split
  · exact h
  · split
    · exact h
    · split
      · exact h
      · exact h.onCgt (f := fun c => { c with blocked := c.blocked ++ [n] })
          ⟨by simp only [List.length_append, List.length_singleton]; omega, h.cgt.2⟩

protected theorem Sized.unblockOwner (h : Sized ls s) (n : Nat) : Sized ls (unblockOwner n s).1 := by
  unfold unblockOwner; split
  · exact h
  · split
    · exact h.onCgt (f := fun _ => _) ⟨(List.length_filter_le ..).trans h.cgt.1, h.cgt.2⟩
    · exact h

protected theorem Sized.orderOwner (h : Sized ls s) (b k : Field) (l : Bool) : Sized ls (orderOwner b k l s).1 := by
  unfold orderOwner; split
  · split
    · exact h
    · exact (h.onIcm _).askUnit _
  · exact h

protected theorem Sized.estopFalls (h : Sized ls s) : Sized ls (estopFalls s) := .ite h (.ite (.stopOrder (h.onSys _) ..) (h.onSys _))

protected theorem Sized.clearFlagBits (h : Sized ls s) (b : BitVec 12) : Sized ls (clearFlagBits b s) := by
  have ht : Sized ls (s.onPort fun p => { p with flags := p.flags &&& ~~~b }) := h.onPort rfl
  exact .ite ht (ht.onExc ht.exc)

protected theorem Sized.ackOwner (h : Sized ls s) (b : Word16) : Sized ls (ackOwner b s).1 := by
  unfold ackOwner; split
  · exact h.clearFlagBits _
  · exact h

protected theorem Sized.maskOwner (h : Sized ls s) (b : Word16) : Sized ls (maskOwner b s).1 := by
  unfold maskOwner; split
  · exact h.onPort (f := fun _ => _) rfl
  · exact h

protected theorem Sized.applyConfig (h : Sized ls s) (c : Cfg) : Sized ls (applyConfig c s) := .bringIntoService (h.onPort rfl)

protected theorem Sized.applyStaged (h : Sized ls s) : Sized ls (applyStaged s) := .bringIntoService (h.onPort rfl)

protected theorem Sized.configureOwner (h : Sized ls s) (is : List ConfigItem) : Sized ls (configureOwner is s).1 := by
  unfold configureOwner; split
  · exact h
  · split
    · exact h
    · split
      · exact h
      · split
        · exact h
        · split
          · exact h.applyConfig _
          · exact h.onPort (f := fun _ => _) rfl

protected theorem Sized.joinOwner (h : Sized ls s) : WithinSizes (joinOwner s).1 := by
  unfold joinOwner; split
  · exact h.within
  · rename_i hoff
    obtain rfl : ls = .offline := h.lif.1.symm.trans (not_not.1 hoff)
    dsimp only
    split
    · exact h.applyStaged.within
    · exact h.applyStaged.joinAccepted

protected theorem Sized.readReadingOwner (h : Sized ls s) (sel : ReadingSel) : Sized ls (readReadingOwner sel s).1 := by
  unfold readReadingOwner; split
  · exact h
  · split
    · exact h
    · split
      · exact .ite (h.onWgu h.wgu h.scale) h
      · exact h

/-- A WEIGH is taken at a scale that has a place for its lot. -/
protected theorem Sized.weighOwner (h : Sized ls s) (hrole : s.port.role = some .scale) (f : Option WeighFields) :
    Sized ls (weighOwner f s).1 := by
  unfold weighOwner; split
  · exact h
  · split
    · exact h
    · rename_i hno
      have hroom : s.wgu.lots.length < 16 := by
        unfold weighRefusal at hno
        split_ifs at hno
        omega
      obtain ⟨hwindow, hhistory, hlotQ, hlots⟩ := h.wgu
      exact .askUnit (h.onWgu ⟨hwindow, hhistory, hlotQ, hlots.1, hlots.2.1, fun _ => hroom⟩ fun _ => hrole) _

protected theorem Sized.zeroOwner (h : Sized ls s) : Sized ls (zeroOwner s).1 := by
  unfold zeroOwner; split
  · exact h
  · split
    · exact h
    · dsimp only
      split
      · split
        · exact h
        · exact .clearSamples (h.onWgu h.wgu h.scale)
      · exact h

protected theorem Sized.tareOwner (h : Sized ls s) (g : Field) : Sized ls (tareOwner g s).1 := by
  unfold tareOwner; split
  · exact h.onWgu (f := fun _ => _) h.wgu h.scale
  · exact h

protected theorem Sized.calZeroOwner (h : Sized ls s) : Sized ls (calZeroOwner s).1 := by
  unfold calZeroOwner; split
  · exact h
  · exact h.onWgu (f := fun _ => _) h.wgu h.scale

protected theorem Sized.calSpanOwner (h : Sized ls s) (g : Field) : Sized ls (calSpanOwner g s).1 := by
  unfold calSpanOwner; split
  · exact h
  · split
    · exact h
    · split
      · exact h
      · split
        · exact h
        · exact h.onWgu (f := fun _ => _) h.wgu h.scale

protected theorem Sized.calWriteOwner (h : Sized ls s) (d c : Field) : Sized ls (calWriteOwner d c s).1 := by
  unfold calWriteOwner; split
  · exact h
  · split
    · exact h
    · split
      · exact h
      · split
        · split
          · exact h
          · split
            · exact h
            · exact .placeStore (h.onWgu h.wgu h.scale) _
        · exact h

protected theorem Sized.lotCmdOwner (h : Sized ls s) (n : Nat) (r : LotReq) : Sized ls (lotCmdOwner n r s).1 := by
  unfold lotCmdOwner; split
  · exact h
  · split
    · exact h
    · rename_i hbusy
      simp only [lotCmdBusy, Bool.or_eq_true, decide_eq_true_eq, not_or, not_le] at hbusy
      obtain ⟨hwindow, hhistory, -, hlots⟩ := h.wgu
      exact h.onWgu (f := fun w => { w with lotQ := w.lotQ ++ [r] }) ⟨hwindow, hhistory, by simpa using hbusy.2, hlots⟩ h.scale

protected theorem Sized.eraseOwner (h : Sized ls s) : Sized ls (eraseOwner s).1 := by
  unfold eraseOwner; split
  · exact h
  · split
    · exact h
    · exact h.markErasure

/-! ### Samples and lots -/

protected theorem Sized.takeFrame (h : Sized ls s) (c : BitVec 24) (p w : Bool) : Sized ls (takeFrame c p w s) :=
  .ite h (.ite ((h.takeSample c).offerReading _).examineReading (h.onWgu h.wgu h.scale))

protected theorem Sized.samplesLost (h : Sized ls s) : Sized ls (samplesLost s) := by
  unfold samplesLost; split
  · exact .offerReading (h.clearSamples.onWgu h.clearSamples.wgu h.clearSamples.scale) _
  · exact h

protected theorem Sized.offerTimerEnds (h : Sized ls s) (n : Nat) : Sized ls (offerTimerEnds n s) := by
  unfold offerTimerEnds; split
  · split
    · exact .ite (h.offerLot n) h
    · exact h
  · exact h

/-- The lot request that the WGU takes leaves its queue. -/
protected theorem Sized.takeLotReq (h : Sized ls s) {f : LotReq → Option (State → State)}
    (hf : ∀ r g, f r = some g → ∀ t, Sized ls t → Sized ls (g t)) : Sized ls (takeLotReq f s) := by
  unfold takeLotReq; split
  · rename_i r rest _ hq
    split
    · rename_i g hg
      obtain ⟨hwindow, hhistory, hlotQ, hlots⟩ := h.wgu
      rw [hq, List.length_cons] at hlotQ
      exact hf r g hg _ (h.onWgu ⟨hwindow, hhistory, (Nat.le_succ _).trans hlotQ, hlots⟩ h.scale)
    · exact h
  · exact h

/-! ### Restart and erasure -/

protected theorem Sized.takeRestart (h : Sized ls s) (ok : Bool) : WithinSizes (takeRestart ok s) := by
  unfold takeRestart; split
  · exact h.within
  · dsimp only
    split
    · exact (h.carryAnswer.onPort rfl).within
    · split
      · exact (h.carryAnswer.compose ..).within
      · exact (h.carryAnswer.beginStartUp _).within

protected theorem WithinSizes.takeEraseStore (h : WithinSizes s) (ok : Bool) : WithinSizes (takeEraseStore ok s) := by
  have ht : WithinSizes (frame ok none eraseOwner s) := h.frame ok fun _ hu _ => hu.sized.eraseOwner.within
  unfold takeEraseStore
  dsimp only
  split
  · exact ht.sized.goErase
  · exact ht

end Sys2Proof.Machine
end

section
/-! The sizes over a step and at reset (O4, O5). -/

namespace Sys2Proof.Machine
open Sys2Proof

variable {ls : LineState} {s : State}

/-! ### The entries that the BOOK and the WGU take, by kind -/

theorem takePost_sized (r : BookReq) (g : State → State) (hg : takePost r = some g) (t : State) (ht : Sized ls t) : Sized ls (g t) := by
  unfold takePost at hg; split at hg
  · obtain rfl := Option.some.inj hg; exact ht.decidePost ..
  · cases hg

theorem takeHold_sized (r : BookReq) (g : State → State) (hg : takeHold r = some g) (t : State) (ht : Sized ls t) : Sized ls (g t) := by
  unfold takeHold at hg; split at hg
  · obtain rfl := Option.some.inj hg; exact ht.decideHold ..
  · cases hg

theorem takeRelease_sized (r : BookReq) (g : State → State) (hg : takeRelease r = some g) (t : State) (ht : Sized ls t) : Sized ls (g t) := by
  unfold takeRelease at hg; split at hg
  · obtain rfl := Option.some.inj hg; exact ht.decideReleaseReq ..
  · cases hg

theorem takeLocate_sized (r : BookReq) (g : State → State) (hg : takeLocate r = some g) (t : State) (ht : Sized ls t) : Sized ls (g t) := by
  unfold takeLocate at hg; split at hg
  · obtain rfl := Option.some.inj hg; exact ht.decideLocate ..
  · cases hg

theorem takeOpened_sized (r : BookReq) (g : State → State) (hg : takeOpened r = some g) (t : State) (ht : Sized ls t) : Sized ls (g t) := by
  unfold takeOpened at hg; split at hg
  · obtain rfl := Option.some.inj hg; exact ht.compareHome ..
  · cases hg

theorem takeHome_sized (r : BookReq) (g : State → State) (hg : takeHome r = some g) (t : State) (ht : Sized ls t) : Sized ls (g t) := by
  unfold takeHome at hg; split at hg
  · obtain rfl := Option.some.inj hg; exact ht.compareHome ..
  · cases hg

theorem takeOpening_sized (r : BookReq) (g : State → State) (hg : takeOpening r = some g) (t : State) (ht : Sized ls t) : Sized ls (g t) := by
  unfold takeOpening at hg; split at hg
  · obtain rfl := Option.some.inj hg; exact ht.takeLocalOpen ..
  · cases hg

theorem takeOpenCmd_sized (r : BookReq) (g : State → State) (hg : takeOpenCmd r = some g) (t : State) (ht : Sized ls t) : Sized ls (g t) := by
  unfold takeOpenCmd at hg; split at hg
  · obtain rfl := Option.some.inj hg; exact ht.takeCmdOpen ..
  · cases hg

theorem takeAdjustCmd_sized (r : BookReq) (g : State → State) (hg : takeAdjustCmd r = some g) (t : State) (ht : Sized ls t) : Sized ls (g t) := by
  unfold takeAdjustCmd at hg; split at hg
  · obtain rfl := Option.some.inj hg; exact ht.takeAdjust ..
  · cases hg

theorem takeRemoveCmd_sized (r : BookReq) (g : State → State) (hg : takeRemoveCmd r = some g) (t : State) (ht : Sized ls t) : Sized ls (g t) := by
  unfold takeRemoveCmd at hg; split at hg
  · obtain rfl := Option.some.inj hg; exact ht.takeRemove _
  · cases hg

theorem takeClearCmd_sized (r : BookReq) (g : State → State) (hg : takeClearCmd r = some g) (t : State) (ht : Sized ls t) : Sized ls (g t) := by
  unfold takeClearCmd at hg; split at hg
  · obtain rfl := Option.some.inj hg; exact ht.takeClear _
  · cases hg

theorem takeClaimReq_sized (r : LotReq) (g : State → State) (hg : takeClaimReq r = some g) (t : State) (ht : Sized ls t) : Sized ls (g t) := by
  unfold takeClaimReq at hg; split at hg
  · obtain rfl := Option.some.inj hg; exact ht.decideClaim ..
  · cases hg

theorem takeReportReq_sized (r : LotReq) (g : State → State) (hg : takeReportReq r = some g) (t : State) (ht : Sized ls t) : Sized ls (g t) := by
  unfold takeReportReq at hg; split at hg
  · obtain rfl := Option.some.inj hg; exact ht.decideReport ..
  · cases hg

theorem takeReleaseReq_sized (r : LotReq) (g : State → State) (hg : takeReleaseReq r = some g) (t : State) (ht : Sized ls t) : Sized ls (g t) := by
  unfold takeReleaseReq at hg; split at hg
  · obtain rfl := Option.some.inj hg; exact ht.decideRelease _
  · cases hg

theorem takeReofferReq_sized (r : LotReq) (g : State → State) (hg : takeReofferReq r = some g) (t : State) (ht : Sized ls t) : Sized ls (g t) := by
  unfold takeReofferReq at hg; split at hg
  · obtain rfl := Option.some.inj hg; exact ht.decideReoffer _
  · cases hg

theorem takeDeleteReq_sized (r : LotReq) (g : State → State) (hg : takeDeleteReq r = some g) (t : State) (ht : Sized ls t) : Sized ls (g t) := by
  unfold takeDeleteReq at hg; split at hg
  · obtain rfl := Option.some.inj hg; exact ht.decideDelete _
  · cases hg

/-! ### The tick -/

theorem LotSizes.tick {b : Bool} {l : List Lot} (h : LotSizes b l) (active : Bool) : LotSizes b (l.map (tickLot active)) := by
  have hn : (l.map (tickLot active)).map (·.number) = l.map (·.number) := by
    rw [List.map_map]
    exact List.map_congr_left fun x _ => by simp only [Function.comp, tickLot]; split <;> rfl
  exact ⟨by simpa using h.1, hn ▸ h.2.1, by simpa using h.2.2⟩

protected theorem Sized.tick (h : Sized ls s) : Sized ls (tick s) := by
  obtain ⟨hs, hqueue, hreserve, hpeers, hquiet⟩ := h.lif
  obtain ⟨hwindow, hhistory, hlotQ, hlots⟩ := h.wgu
  unfold tick; split
  · exact
      { store := h.store
        lif := ⟨hs, hqueue, hreserve, by simpa [tickLif] using hpeers, hquiet⟩
        book := ⟨h.book.1, by simpa [tickBook] using h.book.2.1, h.book.2.2⟩
        exc := ⟨by simpa [tickExc] using h.exc.1, h.exc.2⟩
        wgu := ⟨hwindow, hhistory, hlotQ, by simpa [tickWgu] using hlots.tick s.lineActive⟩
        scale := by simpa [tickWgu] using h.scale
        clu := ⟨h.clu.1, by simpa [tickClu] using h.clu.2.1, by simpa [tickClu] using h.clu.2.2⟩
        cgt := h.cgt }
  · exact h

/-! ### The commands -/

protected theorem Sized.setLock (h : Sized ls s) (b : Bool) : Sized ls (setLock b s).1 := h.onPort (f := fun _ => _) rfl

protected theorem WithinSizes.takeUnknown (h : WithinSizes s) (c : Byte) : WithinSizes (takeUnknown c s) := by
  unfold takeUnknown; split
  · exact h
  · exact h.frame _ fun _ ht _ => ht

protected theorem Sized.takeFault (h : Sized ls s) (f : RawFrame) : Sized ls (takeFault f s) := by
  unfold takeFault; split
  · exact h.faultedFrame _
  · exact h

/-- Every command has a next state, within the sizes from a state within them. -/
theorem exec_within (i : Instr) {s : State} (h : WithinSizes s) : ∃ t, exec i s = .next t ∧ WithinSizes t := by
  have hs := h.sized
  match i with
  | .powerOn => exact ⟨_, rfl, (hs.beginStartUp _).within⟩
  | .resetnLow => exact ⟨_, rfl, hs.resetGoesLow⟩
  | .resetnRelease => exact ⟨_, rfl, (hs.onSys _).within⟩
  | .startupScanEnd .. => exact ⟨_, rfl, (hs.scanEnds ..).within⟩
  | .restart .. => exact ⟨_, rfl, hs.takeRestart _⟩
  | .eraseStore .. => exact ⟨_, rfl, h.takeEraseStore _⟩
  | .nopStatus .. => exact ⟨_, rfl, h.frame _ fun _ ht _ => ht⟩
  | .ack .. => exact ⟨_, rfl, h.frame _ fun _ ht _ => (ht.sized.ackOwner _).within⟩
  | .mask .. => exact ⟨_, rfl, h.frame _ fun _ ht _ => (ht.sized.maskOwner _).within⟩
  | .lock .. => exact ⟨_, rfl, h.frame _ fun _ ht _ => (ht.sized.setLock _).within⟩
  | .unlock .. => exact ⟨_, rfl, h.frame _ fun _ ht _ => (ht.sized.setLock _).within⟩
  | .configure .. => exact ⟨_, rfl, h.frame _ fun _ ht _ => (ht.sized.configureOwner _).within⟩
  | .join .. => exact ⟨_, rfl, h.frame _ fun _ ht _ => ht.sized.joinOwner⟩
  | .leave .. => exact ⟨_, rfl, h.frame _ fun _ ht _ => ht.sized.takeLeave⟩
  | .leaveTransmissionDrained => exact ⟨_, rfl, hs.leaveDrained⟩
  | .readAccount .. => exact ⟨_, rfl, h.frame _ fun _ ht _ => ht⟩
  | .readHold .. => exact ⟨_, rfl, h.frame _ fun _ ht _ => ht⟩
  | .readLot .. => exact ⟨_, rfl, h.frame _ fun _ ht _ => ht⟩
  | .readQueue .. => exact ⟨_, rfl, h.frame _ fun _ ht _ => ht⟩
  | .readSale .. => exact ⟨_, rfl, h.frame _ fun _ ht _ => ht⟩
  | .collectSale .. => exact ⟨_, rfl, h.frame _ fun _ ht _ => (ht.sized.collectOwner _).within⟩
  | .readOutbound .. => exact ⟨_, rfl, h.frame _ fun _ ht _ => ht⟩
  | .readDamaged .. => exact ⟨_, rfl, h.frame _ fun _ ht _ => ht⟩
  | .readPeers .. => exact ⟨_, rfl, h.frame _ fun _ ht _ => ht⟩
  | .readReading .. => exact ⟨_, rfl, h.frame _ fun _ ht _ => (ht.sized.readReadingOwner _).within⟩
  | .readCounters .. => exact ⟨_, rfl, h.frame _ fun _ ht _ => ht⟩
  | .readList .. => exact ⟨_, rfl, h.frame _ fun _ ht _ => ht⟩
  | .openAccount .. => exact ⟨_, rfl, h.frame _ fun _ ht _ => (ht.sized.bookCmd ..).within⟩
  | .adjust .. => exact ⟨_, rfl, h.frame _ fun _ ht _ => (ht.sized.bookCmd ..).within⟩
  | .remove .. => exact ⟨_, rfl, h.frame _ fun _ ht _ => (ht.sized.bookCmd ..).within⟩
  | .clearFlags .. => exact ⟨_, rfl, h.frame _ fun _ ht _ => (ht.sized.bookCmd ..).within⟩
  | .retry .. => exact ⟨_, rfl, h.frame _ fun _ ht _ => (ht.sized.outboundCmd (fun _ => ht.sized.retryEntry _) _).within⟩
  | .discard .. => exact ⟨_, rfl, h.frame _ fun _ ht _ => (ht.sized.outboundCmd (fun _ => ht.sized.discardEntry _) _).within⟩
  | .weigh .. => exact ⟨_, rfl, h.frame _ fun _ ht hrole => (ht.sized.weighOwner (hrole rfl).symm _).within⟩
  | .zero .. => exact ⟨_, rfl, h.frame _ fun _ ht _ => ht.sized.zeroOwner.within⟩
  | .tare .. => exact ⟨_, rfl, h.frame _ fun _ ht _ => (ht.sized.tareOwner _).within⟩
  | .calZero .. => exact ⟨_, rfl, h.frame _ fun _ ht _ => ht.sized.calZeroOwner.within⟩
  | .calSpan .. => exact ⟨_, rfl, h.frame _ fun _ ht _ => (ht.sized.calSpanOwner _).within⟩
  | .calWrite .. => exact ⟨_, rfl, h.frame _ fun _ ht _ => (ht.sized.calWriteOwner ..).within⟩
  | .releaseLot .. => exact ⟨_, rfl, h.frame _ fun _ ht _ => (ht.sized.lotCmdOwner ..).within⟩
  | .reoffer .. => exact ⟨_, rfl, h.frame _ fun _ ht _ => (ht.sized.lotCmdOwner ..).within⟩
  | .delete .. => exact ⟨_, rfl, h.frame _ fun _ ht _ => (ht.sized.lotCmdOwner ..).within⟩
  | .showLot .. => exact ⟨_, rfl, h.frame _ fun _ ht _ => ht.sized.showOwner.within⟩
  | .start .. => exact ⟨_, rfl, h.frame _ fun _ ht _ => (ht.sized.startOwner _).within⟩
  | .halt .. => exact ⟨_, rfl, h.frame _ fun _ ht _ => ht.sized.haltOwner.within⟩
  | .resume .. => exact ⟨_, rfl, h.frame _ fun _ ht _ => ht.sized.resumeOwner.within⟩
  | .withdraw .. => exact ⟨_, rfl, h.frame _ fun _ ht _ => ht.sized.withdrawOwner.within⟩
  | .deskIn .. => exact ⟨_, rfl, h.frame _ fun _ ht _ => (ht.sized.deskInOwner ..).within⟩
  | .deskOut .. => exact ⟨_, rfl, h.frame _ fun _ ht _ => (ht.sized.deskOutOwner _).within⟩
  | .order .. => exact ⟨_, rfl, h.frame _ fun _ ht _ => (ht.sized.orderOwner ..).within⟩
  | .stop .. => exact ⟨_, rfl, h.frame _ fun _ ht _ => (ht.sized.stopOrder ..).within⟩
  | .batchOpen .. => exact ⟨_, rfl, h.frame _ fun _ ht _ => (ht.sized.batchOpenOwner ..).within⟩
  | .batchClose .. => exact ⟨_, rfl, h.frame _ fun _ ht _ => ht.sized.batchCloseOwner.within⟩
  | .batchCancel .. => exact ⟨_, rfl, h.frame _ fun _ ht _ => ht.sized.batchCancelOwner.within⟩
  | .block .. => exact ⟨_, rfl, h.frame _ fun _ ht _ => (ht.sized.blockOwner _).within⟩
  | .unblock .. => exact ⟨_, rfl, h.frame _ fun _ ht _ => (ht.sized.unblockOwner _).within⟩
  | .portUnknownCommand .. => exact ⟨_, rfl, h.takeUnknown _⟩
  | .portFrameFault .. => exact ⟨_, rfl, (hs.takeFault _).within⟩
  | .portFrameTimeout => exact ⟨_, rfl, (hs.faultedFrame _).within⟩
  | .lineGarbledMessage .. => exact ⟨_, rfl, (hs.hearGarbled _).within⟩
  | .joinMessage .. => exact ⟨_, rfl, h.hearJoin ..⟩
  | .clash .. => exact ⟨_, rfl, h.hearClash ..⟩
  | .present .. => exact ⟨_, rfl, h.hearPresent ..⟩
  | .opened .. => exact ⟨_, rfl, h.hear _ _ _ (fun _ ht => ht.ownHeard) fun _ _ ht => ht.countReceived.noticeToBook _⟩
  | .home .. => exact ⟨_, rfl, h.hear _ _ _ (fun _ ht => ht.ownHeard) fun _ _ ht => (ht.countReceived.collectIfRead ..).noticeToBook _⟩
  | .answer .. => exact ⟨_, rfl, h.hear _ _ _ (fun _ ht => ht.ownHeard) fun _ _ ht => ht.countReceived.takeAnswer ..⟩
  | .hold .. => exact ⟨_, rfl, h.hear _ _ _ (fun _ ht => ht.ownHeard) fun _ _ ht => ht.requestToBook ..⟩
  | .release .. => exact ⟨_, rfl, h.hear _ _ _ (fun _ ht => ht.ownHeard) fun _ _ ht => ht.requestToBook ..⟩
  | .post .. => exact ⟨_, rfl, h.hear _ _ _ (fun _ ht => ht.ownHeard) fun _ _ ht => ht.requestToBook ..⟩
  | .locate .. => exact ⟨_, rfl, h.hear _ _ _ (fun _ ht => ht.ownHeard) fun _ _ ht => ht.requestToBook ..⟩
  | .claim .. => exact ⟨_, rfl, h.hear _ _ _ (fun _ ht => ht.ownHeard) fun _ _ ht => ht.requestToScale ..⟩
  | .lotReport .. => exact ⟨_, rfl, h.hear _ _ _ (fun _ ht => ht.ownHeard) fun _ _ ht => ht.requestToScale ..⟩
  | .lot .. => exact ⟨_, rfl, h.hear _ _ _ (fun _ ht => ht.ownHeard) fun _ _ ht => ht.noticeToClock _⟩
  | .lineQuietTime => exact ⟨_, rfl, hs.quietTime.within⟩
  | .contentionLoss => exact ⟨_, rfl, hs.loseContention.within⟩
  | .lineError => exact ⟨_, rfl, hs.lineErrs⟩
  | .sendComplete => exact ⟨_, rfl, hs.sendCompletes.within⟩
  | .sendQueuePlaceWaiting => exact ⟨_, rfl, hs.placeWaiting.within⟩
  | .listenIdleWindow => exact ⟨_, rfl, hs.listenIdle⟩
  | .listenTimeout => exact ⟨_, rfl, hs.listenTimesOut⟩
  | .clashWindowEnd => exact ⟨_, rfl, hs.clashWindowEnds⟩
  | .presentTimer => exact ⟨_, rfl, hs.presentDue.within⟩
  | .peerAgeExpiry .. => exact ⟨_, rfl, (hs.peerExpires _).within⟩
  | .excFreePlaceRetry => exact ⟨_, rfl, hs.retryAsk.within⟩
  | .excSend => exact ⟨_, rfl, hs.excSendNext.within⟩
  | .excAnswerTimeout .. => exact ⟨_, rfl, (hs.answerTimeout _).within⟩
  | .excDeferWaitEnd .. => exact ⟨_, rfl, (hs.deferWaitEnd _).within⟩
  | .locateWindowEnd .. => exact ⟨_, rfl, (hs.locateWindowEnd _).within⟩
  | .locateSearchDeferEnd .. => exact ⟨_, rfl, (hs.searchDeferEnd _).within⟩
  | .localOpeningRetry .. => exact ⟨_, rfl, (hs.openingRetry _).within⟩
  | .bookQueuePlaceWaiting => exact ⟨_, rfl, hs.bookPlaceWaiting.within⟩
  | .bookTakePost => exact ⟨_, rfl, (hs.takeBook takePost_sized).within⟩
  | .bookTakeHold => exact ⟨_, rfl, (hs.takeBook takeHold_sized).within⟩
  | .bookTakeRelease => exact ⟨_, rfl, (hs.takeBook takeRelease_sized).within⟩
  | .bookTakeLocate => exact ⟨_, rfl, (hs.takeBook takeLocate_sized).within⟩
  | .bookTakeOpened => exact ⟨_, rfl, (hs.takeBook takeOpened_sized).within⟩
  | .bookTakeHome => exact ⟨_, rfl, (hs.takeBook takeHome_sized).within⟩
  | .bookTakeLocalOpening => exact ⟨_, rfl, (hs.takeBook takeOpening_sized).within⟩
  | .bookTakeOpen => exact ⟨_, rfl, (hs.takeBook takeOpenCmd_sized).within⟩
  | .bookTakeAdjust => exact ⟨_, rfl, (hs.takeBook takeAdjustCmd_sized).within⟩
  | .bookTakeRemove => exact ⟨_, rfl, (hs.takeBook takeRemoveCmd_sized).within⟩
  | .bookTakeClearFlags => exact ⟨_, rfl, (hs.takeBook takeClearCmd_sized).within⟩
  | .holdLifetimeSecond .. => exact ⟨_, rfl, (hs.holdSecond _).within⟩
  | .bookYieldRetry .. => exact ⟨_, rfl, (hs.yieldRetry _).within⟩
  | .bookStateCommitRetry .. => exact ⟨_, rfl, (hs.bookStateRetry _).within⟩
  | .storeListPlacePending => exact ⟨_, rfl, hs.placePending.within⟩
  | .storeTakeRequest => exact ⟨_, rfl, hs.takeRequest.within.deliver⟩
  | .storeWriteEnd .. => exact ⟨_, rfl, (hs.writeEnd _).deliver⟩
  | .storeEraseEnd .. => exact ⟨_, rfl, (hs.eraseEnd _).deliver⟩
  | .storeCalPageEnd .. => exact ⟨_, rfl, (hs.calPageEnd _).deliver⟩
  | .storeBackgroundStart => exact ⟨_, rfl, hs.backgroundStart.within⟩
  | .sampleFrame .. => exact ⟨_, rfl, (hs.takeFrame ..).within⟩
  | .sampleLossTimeout => exact ⟨_, rfl, hs.samplesLost.within⟩
  | .settlingLimit => exact ⟨_, rfl, (hs.settlingEnds.ite hs).within⟩
  | .offerTimer .. => exact ⟨_, rfl, (hs.offerTimerEnds _).within⟩
  | .lotQueueTakeClaim => exact ⟨_, rfl, (hs.takeLotReq takeClaimReq_sized).within⟩
  | .lotQueueTakeLotreport => exact ⟨_, rfl, (hs.takeLotReq takeReportReq_sized).within⟩
  | .lotQueueTakeReleaseLot => exact ⟨_, rfl, (hs.takeLotReq takeReleaseReq_sized).within⟩
  | .lotQueueTakeReoffer => exact ⟨_, rfl, (hs.takeLotReq takeReofferReq_sized).within⟩
  | .lotQueueTakeDelete => exact ⟨_, rfl, (hs.takeLotReq takeDeleteReq_sized).within⟩
  | .queueCommitRetry .. => exact ⟨_, rfl, (hs.queueRetry _).within⟩
  | .clockTick => exact ⟨_, rfl, hs.clockTicks.within⟩
  | .lotEndRetry => exact ⟨_, rfl, hs.lotEndRetry.within⟩
  | .deskScan .. => exact ⟨_, rfl, ((hs.scanDesks _).ite hs).within⟩
  | .saleLogRetry => exact ⟨_, rfl, hs.saleLogRetry.within⟩
  | .saleRequestRetry .. => exact ⟨_, rfl, (hs.saleRequestRetry _).within⟩
  | .saleUpdateRetry .. => exact ⟨_, rfl, (hs.saleUpdateRetry _).within⟩
  | .lotreportReissue .. => exact ⟨_, rfl, (hs.reportReissue _).within⟩
  | .augerPulse .. => exact ⟨_, rfl, ((hs.augerEdge _).ite hs).within⟩
  | .emergencyStop => exact ⟨_, rfl, hs.estopFalls.within⟩
  | .stallTimer => exact ⟨_, rfl, (Sized.ite ((hs.onIcm _).switchOff _) hs).within⟩
  | .coastingEnd => exact ⟨_, rfl, (hs.closeCounting.ite hs).within⟩
  | .icmSettleRetry => exact ⟨_, rfl, (Sized.ite (hs.onIcm _).askSettle hs).within⟩
  | .tagRead .. => exact ⟨_, rfl, ((hs.tagFrame _).ite hs).within⟩
  | .poolUpdateRetry => exact ⟨_, rfl, hs.poolRetry.within⟩
  | .cgtPostingRetry => exact ⟨_, rfl, (Sized.ite (.askBatchPost (hs.onCgt hs.cgt)) hs).within⟩
  | .powerLoss => exact ⟨_, rfl, hs.supplyLost⟩
  | .estopnReturnHigh => exact ⟨_, rfl, (hs.onSys _).within⟩

theorem withinSizes_pending {s : State} (h : WithinSizes s) (cs : List Instr) : WithinSizes { s with pending := cs } :=
  Sized.within (ls := s.lif.state)
    ⟨h.sized.store, h.sized.lif, h.sized.book, h.sized.exc, h.sized.wgu, h.sized.scale, h.sized.clu, h.sized.cgt⟩

/-- Settles O4: with an empty queue of commands by the tick, otherwise by the command at its front. The block predicates of `Sized` are the
invariant, and the place that the lot table keeps for the WEIGH in hand makes it inductive. -/
theorem sizesKept : Obligations.SizesKept := by
  intro s t h hstep
  unfold step at hstep
  split at hstep
  · obtain rfl := Host.Outcome.next.inj hstep
    exact h.sized.tick.within
  · rename_i c rest _
    obtain ⟨u, hu, hwithin⟩ := exec_within c (withinSizes_pending h rest)
    obtain rfl := Host.Outcome.next.inj (hu.symm.trans hstep)
    exact hwithin

/-- Settles O5: every table and queue is empty at reset, but for the 256 slots and the 32 desks. -/
theorem sizesAtReset : Obligations.SizesAtReset :=
  (sized_cleared (s := State.reset) ⟨List.length_replicate, Nat.zero_le _, Nat.zero_le _⟩ rfl rfl rfl rfl rfl rfl).within

end Sys2Proof.Machine
end

section
/-! Notices and requests of the line reach the book's queue (O31, O32). -/

namespace Sys2Proof.Machine
open Sys2Proof

/-! ### Arrivals (R71, R86) -/

/-- R71: a message heard in ACTIVE, addressed to this node or to all, is handed to its owner once its sender is in the peer list. -/
theorem hear_heard {toAll : Bool} {h : Hdr} {s : State} (hh : Heard toAll h s) (told : Option (Role × Nat)) (own deliver : State → State) :
    hear toAll h told own deliver s = deliver (hearPeer h.src told s) := by
  obtain ⟨hactive, hheader, hsrc, hdst⟩ := hh
  refine hear_active hactive hheader hsrc ?_
  cases toAll with
  | true => exact .inl (by simpa [headerOk] using And.right (by simpa [headerOk] using hheader))
  | false => exact .inr (hdst rfl)

/-! ### Notices at the book (R22, R45) -/

theorem noticeToBook_room {s : State} (h : bookRoom s = true) (r : BookReq) : noticeToBook r s = bookEnter r s := if_pos h

theorem noticeToBook_full {s : State} (h : bookRoom s = false) (r : BookReq) :
    noticeToBook r s = s.onBook fun b => { b with cnt := { b.cnt with droppedNotices := bump b.cnt.droppedNotices } } := by
  simp [noticeToBook, h]

/-- R104: a HOME whose sequence names no entry is collected by none. -/
theorem collectIfRead_noEntry {h : Hdr} {s : State} (he : findEntry s h.seq = none) (p : Parsed Nat) : collectIfRead h p s = s := by
  cases p with
  | ok a => simp [collectIfRead, collectHome, he]
  | bad f => rfl

/-- R104: a HOME for a searching entry is collected into its window. -/
theorem collectIfRead_window {h : Hdr} {s : State} {a : Nat} {e : Entry} {second : Bool} {homes : List Nat} {tens : Option Nat} {left : Nat}
    (he : findEntry s h.seq = some e) (ha : e.account = some a) (hu : e.state = .unresolved)
    (hw : e.search = some (.window second homes tens left)) :
    collectIfRead h (.ok a) s = putEntry { e with search := some (.window second (homes ++ [h.src]) tens left) } s := by
  simp [collectIfRead, collectHome, he, ha, hu, hw]

/-- Settles O31: once the message is delivered, by the room in the book's queue; a HOME is collected before. -/
theorem noticesReachTheBook : Obligations.NoticesReachTheBook := by
  intro s h f hh l t
  have hopened (u : State) (hu : noticeToBook ⟨.line h.src h.seq, .opened h.src (readAcctField f)⟩ t = u) :
      exec (.opened h f) s = .next u :=
    congrArg Host.Outcome.next ((hear_heard hh ..).trans hu)
  have hhome (u : State) (hu : noticeToBook ⟨.line h.src h.seq, .home h.src (readAcctField f)⟩ (collectIfRead h (readAcctField f) t) = u) :
      exec (.home h f) s = .next u :=
    congrArg Host.Outcome.next ((hear_heard hh ..).trans hu)
  refine ⟨fun hroom => hopened _ (noticeToBook_room (s := t) hroom _), fun hfull => hopened _ (noticeToBook_full (s := t) hfull _), fun hroom he => ?_,
    fun a e second homes tens left hroom hread he ha hu hw => ?_, fun hfull he => ?_,
    fun a e second homes tens left hfull hread he ha hu hw => ?_⟩
  · refine hhome _ ?_
    rw [collectIfRead_noEntry (s := t) he]
    exact noticeToBook_room (s := t) hroom _
  · refine hhome _ ?_
    rw [hread, collectIfRead_window (s := t) he ha hu hw]
    exact noticeToBook_room (s := putEntry _ t) hroom _
  · refine hhome _ ?_
    rw [collectIfRead_noEntry (s := t) he]
    exact noticeToBook_full (s := t) hfull _
  · refine hhome _ ?_
    rw [hread, collectIfRead_window (s := t) he ha hu hw]
    exact noticeToBook_full (s := putEntry _ t) hfull _

/-! ### Requests at the book (R22, R77) -/

theorem requestToBook_room {h : Hdr} {s : State} (hroom : bookRoom s = true) (k : ReqKind) (sub : Subject) (a : BookAsk) :
    requestToBook h k sub a s = bookEnter ⟨.line h.src h.seq, a⟩ (countReceived s) := if_pos hroom

/-- R77: the DEFER of a full queue takes a place of the reserve, or counts as an overflow there. -/
theorem requestToBook_full {h : Hdr} {s : State} (hfull : bookRoom s = false) (k : ReqKind) (acct : Nat) (a : BookAsk) :
    requestToBook h k (.account acct) a s = { s with lif :=
      if s.lif.reserve.length < 4 then { s.lif with
        reserve := s.lif.reserve ++ [{ newMsg .answer h.src h.seq (.answer k (.account acct) .defer (.wait 5)) .lif 0 with
          stamp := s.lif.stamp }]
        stamp := s.lif.stamp + 1
        cnt := { s.lif.cnt with
          deferrals := bump s.lif.cnt.deferrals, reserveOverflows := min 65535 s.lif.cnt.reserveOverflows } }
      else { s.lif with cnt := { s.lif.cnt with reserveOverflows := bump s.lif.cnt.reserveOverflows } } } := by
  have hno : isClash (answerMsg .lif h.src h.seq k (.account acct) .defer (.wait 5)) = false := rfl
  unfold requestToBook
  rw [hfull]
  simp only [Bool.false_eq_true, if_false, reserveDefer, reserveMsg, hno]
  split <;> rfl

/-- R86: a request heard for the book's queue goes there, or meets it full. -/
theorem hear_requestToBook {toAll : Bool} {h : Hdr} {s : State} (hh : Heard toAll h s) (k : ReqKind) (sub : Subject) (a : BookAsk) :
    hear toAll h none ownHeard (requestToBook h k sub a) s = requestToBook h k sub a (hearPeer h.src none s) :=
  hear_heard hh ..

/-- Settles O32: once the message is delivered, by the room in the book's queue. -/
theorem requestsReachTheBook : Obligations.RequestsReachTheBook := by
  intro s h l queued
  have hroomy {toAll : Bool} (hh : Heard toAll h s) (hroom : bookRoom s = true) (k : ReqKind) (sub : Subject) (a : BookAsk) :
      hear toAll h none ownHeard (requestToBook h k sub a) s = queued a :=
    (hear_requestToBook hh k sub a).trans (requestToBook_room (s := hearPeer h.src none s) hroom k sub a)
  refine ⟨fun hh hroom => ⟨fun r => congrArg Host.Outcome.next (hroomy hh hroom ..), fun r => congrArg Host.Outcome.next (hroomy hh hroom ..),
    fun r => congrArg Host.Outcome.next (hroomy hh hroom ..)⟩, fun hh hroom f => congrArg Host.Outcome.next (hroomy hh hroom ..), ?_⟩
  intro hf deferred
  have hfull {toAll : Bool} (hh : Heard toAll h s) {k : ReqKind} {sub : Subject} {a : BookAsk} {acct : Nat} (hsub : sub = .account acct) :
      hear toAll h none ownHeard (requestToBook h k sub a) s = deferred k acct := by
    subst hsub
    exact (hear_requestToBook hh k _ a).trans (requestToBook_full (s := hearPeer h.src none s) hf k acct a)
  refine ⟨fun hh => ⟨fun r a hr => ?_, fun r a hr => ?_, fun r p hr => ?_⟩, fun hh f a hr => ?_⟩
  · exact congrArg Host.Outcome.next (hfull hh (congrArg (parsedSubject _) hr))
  · exact congrArg Host.Outcome.next (hfull hh (congrArg (parsedSubject _) hr))
  · exact congrArg Host.Outcome.next (hfull hh (congrArg (parsedSubject _) hr))
  · exact congrArg Host.Outcome.next (hfull hh (congrArg (parsedSubject _) hr))

end Sys2Proof.Machine
end

section
/-! The book commands of the station port reach the book's queue (O35). -/

namespace Sys2Proof.Machine
open Sys2Proof

/-! ### Book commands of the station port (R36) -/

section
variable {s : State}

theorem carryAnswer_lock (s : State) : (carryAnswer s).port.lock = s.port.lock := by rw [carryAnswer_eq]

theorem bookCmdBusy_carryAnswer (s : State) : bookCmdBusy (carryAnswer s) = bookCmdBusy s := by rw [carryAnswer_eq]; rfl

theorem bookEnter_carryAnswer (r : BookReq) (s : State) : bookEnter r (carryAnswer s) = carryAnswer (bookEnter r s) := by
  rw [carryAnswer_eq, carryAnswer_eq]; rfl

theorem bookCmd_some (guarded : Bool) (a : BookAsk) (s : State) : bookCmd guarded (some a) s =
    if guarded && s.port.lock then refuse .locked s
    else if bookCmdBusy s then refuse .busy s
    else finish .accepted (bookEnter ⟨.port, a⟩ s) := rfl

/-- A book command is accepted when nothing stands in its way: it stands in the book's queue. -/
theorem frame_bookCmd_accepted (h : Taken s) {guarded : Bool} (hlock : guarded = true → s.port.lock = false) (hbusy : bookCmdBusy s = false)
    (a : BookAsk) : frame true none (bookCmd guarded (some a)) s = answered .accepted .none (bookEnter ⟨.port, a⟩ s) := by
  refine frame_effect h none (.inl rfl) _ _ _ ?_
  rw [bookCmd_some, carryAnswer_lock, bookCmdBusy_carryAnswer, hbusy, bookEnter_carryAnswer, if_neg (by simpa using hlock)]
  rfl

theorem frame_bookCmd_busy (h : Taken s) {guarded : Bool} (hlock : guarded = true → s.port.lock = false) (hbusy : bookCmdBusy s = true)
    (a : BookAsk) : frame true none (bookCmd guarded (some a)) s = answered .busy .none s := by
  refine frame_effect h none (.inl rfl) _ _ _ ?_
  rw [bookCmd_some, carryAnswer_lock, bookCmdBusy_carryAnswer, hbusy, if_neg (by simpa using hlock)]
  rfl

/-- Bad fields come before the lock and BUSY. -/
theorem frame_bookCmd_badValue (h : Taken s) (guarded : Bool) : frame true none (bookCmd guarded none) s = answered .badValue .none s :=
  frame_effect h none (.inl rfl) _ _ _ rfl

end

/-! ### The fields of OPEN and ADJUST (R37, R38) -/

section
variable {f : Field} {a : Nat}

theorem readOpen_boat (hf : readAccountNo f = some a) (ha : isBoat a = true) : readOpen f none = some (.cmdOpen a 0) := by
  simp [readOpen, hf, ha]

theorem readOpen_buyer {l : Field} {v : Nat} (hf : readAccountNo f = some a) (ha : isBuyer a = true) (hl : readAmount l = some v) :
    readOpen f (some l) = some (.cmdOpen a v) := by
  simp [readOpen, hf, ha, hl]

theorem readOpen_badLimit {l : Field} (hf : readAccountNo f = some a) (hl : readAmount l = none) : readOpen f (some l) = none := by
  simp [readOpen, hf, hl]

theorem isBoat_eq_false_of_isBuyer (ha : isBuyer a = true) : isBoat a = false := by
  simp only [isBuyer, isBoat, decide_eq_true_eq, decide_eq_false_iff_not] at ha ⊢
  omega

theorem readOpen_buyer_noLimit (hf : readAccountNo f = some a) (ha : isBuyer a = true) : readOpen f none = none := by
  simp [readOpen, hf, isBoat_eq_false_of_isBuyer ha]

theorem readOpen_boat_limit (hf : readAccountNo f = some a) (ha : isBoat a = true) (l : Field) : readOpen f (some l) = none := by
  have hno : isBuyer a = false := by
    rw [Bool.eq_false_iff]; exact fun hb => by simp [isBoat_eq_false_of_isBuyer hb] at ha
  simp [readOpen, hf, hno]

theorem readOpen_none (hf : readAccountNo f = none) (l : Option Field) : readOpen f l = none := by simp [readOpen, hf]

theorem readAdjust_some {m : Field} {v : Int} (hf : readAccountNo f = some a) (hm : readBalance m = some v) :
    readAdjust f m = some (.cmdAdjust a v) := by simp [readAdjust, hf, hm]

theorem readAdjust_badAmount {m : Field} (hm : readBalance m = none) : readAdjust f m = none := by simp [readAdjust, hm]

theorem readAdjust_badAccount (hf : readAccountNo f = none) (m : Field) : readAdjust f m = none := by simp [readAdjust, hf]

end

/-- Settles O35: by the fields as they read, then by the lock and by whether another book command or a full queue stands in the way. -/
theorem bookCommandsQueue : Obligations.BookCommandsQueue := by
  intro s h accepted
  have hok {i : Instr} {g : Bool} {ask : Option BookAsk} {a : BookAsk} (hi : exec i s = .next (frame true none (bookCmd g ask) s))
      (hask : ask = some a) (hb : bookCmdBusy s = false) (hl : g = true → s.port.lock = false) :
      exec i s = .next (answered .accepted .none (accepted a)) :=
    hi.trans (congrArg Host.Outcome.next (hask ▸ frame_bookCmd_accepted h hl hb a))
  have hbusy {i : Instr} {g : Bool} {ask : Option BookAsk} {a : BookAsk} (hi : exec i s = .next (frame true none (bookCmd g ask) s))
      (hask : ask = some a) (hb : bookCmdBusy s = true) (hl : g = true → s.port.lock = false) :
      exec i s = .next (answered .busy .none s) :=
    hi.trans (congrArg Host.Outcome.next (hask ▸ frame_bookCmd_busy h hl hb a))
  have hbad {i : Instr} {g : Bool} {ask : Option BookAsk} (hi : exec i s = .next (frame true none (bookCmd g ask) s))
      (hask : ask = none) : exec i s = .next (answered .badValue .none s) :=
    hi.trans (congrArg Host.Outcome.next (hask ▸ frame_bookCmd_badValue h g))
  refine ⟨fun f a hf => ⟨fun hb => ?_, fun hb => ?_, fun l _ hl => hbad rfl (readOpen_badLimit hf hl),
    fun ha => hbad rfl (readOpen_buyer_noLimit hf ha), fun l ha => hbad rfl (readOpen_boat_limit hf ha l),
    fun m hm => hbad rfl (readAdjust_badAmount hm)⟩, fun f hf => ?_⟩
  · exact ⟨fun ha => hok rfl (readOpen_boat hf ha) hb nofun, fun l v ha hl => hok rfl (readOpen_buyer hf ha hl) hb nofun,
      hok rfl (congrArg (Option.map _) hf) hb nofun, fun hlock => ⟨hok rfl (congrArg (Option.map _) hf) hb fun _ => hlock,
        fun m v hm => hok rfl (readAdjust_some hf hm) hb fun _ => hlock⟩⟩
  · exact ⟨fun ha => hbusy rfl (readOpen_boat hf ha) hb nofun, fun l v ha hl => hbusy rfl (readOpen_buyer hf ha hl) hb nofun,
      hbusy rfl (congrArg (Option.map _) hf) hb nofun, fun hlock => ⟨hbusy rfl (congrArg (Option.map _) hf) hb fun _ => hlock,
        fun m v hm => hbusy rfl (readAdjust_some hf hm) hb fun _ => hlock⟩⟩
  · exact ⟨fun l => hbad rfl (readOpen_none hf l), hbad rfl (congrArg (Option.map _) hf), hbad rfl (congrArg (Option.map _) hf),
      fun m => hbad rfl (readAdjust_badAccount hf m)⟩

end Sys2Proof.Machine
end

section
/-! The book decides a POST, a HOLD and a RELEASE (O36, O40, O41). -/

namespace Sys2Proof.Machine
open Sys2Proof

/-! ### The answer by the account's state (R24) -/

section
variable {s : State} {n : Nat} {a : Account}

theorem stateAnswer_noAccount (h : accountOf s n = none) : stateAnswer s n = some (.unknown, .none) := by simp [stateAnswer, h]

theorem stateAnswer_opened (h : accountOf s n = some a) (ha : a.state = .opened) : stateAnswer s n = none := by simp [stateAnswer, h, ha]

theorem stateAnswer_yielding (h : accountOf s n = some a) (ha : a.state = .yielding) : stateAnswer s n = some (.defer, .wait 10) := by
  simp [stateAnswer, h, ha]

theorem stateAnswer_moved {m : Nat} (h : accountOf s n = some a) (ha : a.state = .moved m) :
    stateAnswer s n = some (.moved, .newHome m) := by simp [stateAnswer, h, ha]

end

/-! ### A POST at the front of the book's queue -/

theorem decidePost_repeated {s : State} {p : Posting} (r : BookReq) (h : aboveMark s p.id = false) : decidePost r (.ok p) s =
    replyPost r p .doneAlready .none (s.onBook fun b => { b with cnt := { b.cnt with duplicates := bump b.cnt.duplicates } }) := by
  simp [decidePost, h]

theorem decidePost_stateAnswer {s : State} {p : Posting} {c : AnsCode} {d : AnsData} (r : BookReq) (h : aboveMark s p.id = true)
    (ha : stateAnswer s p.account = some (c, d)) : decidePost r (.ok p) s = replyPost r p c d s := by
  simp [decidePost, h, ha]

/-- Settles O36: the watermark, then the account's state. -/
theorem postIsDecided : Obligations.PostIsDecided := by
  intro s src x rest r hfront
  have hexec := exec_bookTakePost hfront
  refine ⟨fun node seq f hsrc hx hline => ?_, fun p hx => ?_⟩
  · subst hsrc hx
    have hl : LineFor (.line node seq) s := fun n q he => hline
    exact hexec.trans (congrArg Host.Outcome.next (bookReply_eq_bookReplied (r := r) (s := bookHeld r rest s) hl ..))
  · subst hx
    intro reply
    have hstate {c : AnsCode} {d : AnsData} (hline : LineFor src s) (habove : aboveMark s p.id = true)
        (ha : stateAnswer s p.account = some (c, d)) : exec .bookTakePost s = .next (reply c d) := by
      rw [hexec, decidePost_stateAnswer (s := bookHeld r rest s) _ habove ha]
      exact congrArg Host.Outcome.next (bookReply_eq_bookReplied hline ..)
    refine ⟨fun hline hmark => ?_, fun hline habove => ⟨fun hno => hstate hline habove (stateAnswer_noAccount hno), fun a ha =>
      ⟨fun hy => hstate hline habove (stateAnswer_yielding ha hy), fun m hm => hstate hline habove (stateAnswer_moved ha hm)⟩⟩,
      fun a habove ha hopen hkind hlist => ?_⟩
    · rw [hexec, decidePost_repeated (s := bookHeld r rest s) _ hmark]
      exact congrArg Host.Outcome.next (bookReply_eq_bookReplied hline ..)
    · rw [hexec, decidePost_open (s := bookHeld r rest s) _ habove ha hopen, if_neg fun h => hkind h.1]
      exact congrArg Host.Outcome.next (placeGroup_room hlist.1 hlist.2 nofun)

/-! ### A HOLD at the front of the book's queue (R42) -/

theorem exec_bookTakeHold {s : State} {src : Src} {x : Parsed HoldReq} {rest : List BookReq} (h : BookFront ⟨src, .hold x⟩ rest s) :
    exec .bookTakeHold s = .next (decideHold ⟨src, .hold x⟩ x (bookHeld ⟨src, .hold x⟩ rest s)) :=
  congrArg Host.Outcome.next (takeBook_front (f := takeHold) h.1 h.2 rfl)

theorem decideHold_standing {s : State} {h : HoldReq} {held : Hold} (r : BookReq) (hk : findHold s.book.holds h.key = some held)
    (ho : isOpen s held.account = true) : decideHold r (.ok h) s = replyHold r h.account .granted (.amount held.remaining) s := by
  simp [decideHold, hk, ho]

theorem decideHold_new {s : State} {h : HoldReq} (r : BookReq)
    (hk : ∀ held, findHold s.book.holds h.key = some held → isOpen s held.account = false) :
    decideHold r (.ok h) s = decideNewHold r h s := by
  cases hf : findHold s.book.holds h.key with
  | none => simp [decideHold, hf]
  | some held => simp [decideHold, hf, hk held hf]

theorem decideNewHold_stateAnswer {s : State} {h : HoldReq} {c : AnsCode} {d : AnsData} (r : BookReq)
    (ha : stateAnswer s h.account = some (c, d)) : decideNewHold r h s = replyHold r h.account c d s := by
  simp [decideNewHold, ha]

section
variable {s : State} {h : HoldReq} {a : Account} (r : BookReq) (ha : accountOf s h.account = some a) (ho : a.state = .opened)
include ha ho

theorem decideNewHold_full (hfull : 24 ≤ s.book.holds.length) : decideNewHold r h s = replyHold r h.account .refusedNoRoom .none s := by
  simp [decideNewHold, stateAnswer_opened ha ho, ha, hfull]

theorem decideNewHold_unfunded (hroom : s.book.holds.length < 24) (hg : grantAmount s.book.holds a h.amount h.acceptLess = none) :
    decideNewHold r h s = replyHold r h.account .refusedFunds .none s := by
  simp [decideNewHold, stateAnswer_opened ha ho, ha, hroom, hg, grantHold]

theorem decideNewHold_granted {g : Nat} {c : AnsCode} (hroom : s.book.holds.length < 24)
    (hg : grantAmount s.book.holds a h.amount h.acceptLess = some (g, c)) (hk : findHold s.book.holds h.key = none) :
    decideNewHold r h s = replyHold r h.account c (.amount g)
      (s.onBook fun b => { b with holds := b.holds ++ [⟨h.key, h.account, g, g, h.life, 0⟩] }) := by
  simp [decideNewHold, stateAnswer_opened ha ho, ha, hroom, hg, hk, grantHold]

theorem decideNewHold_second {x : Nat × AnsCode} (hroom : s.book.holds.length < 24)
    (hg : grantAmount s.book.holds a h.amount h.acceptLess = some x) (hk : (findHold s.book.holds h.key).isSome = true) :
    decideNewHold r h s = replyHold r h.account .defer (.wait 10) s := by
  simp [decideNewHold, stateAnswer_opened ha ho, ha, hroom, hg, hk]

end

/-- Settles O40: the standing hold of an OPEN account, then the account's state, the room, and the grant of R19. -/
theorem holdIsDecided : Obligations.HoldIsDecided := by
  intro s src h rest r hfront hline reply
  have hexec := exec_bookTakeHold hfront
  have hreply {c : AnsCode} {d : AnsData} (hd : decideHold r (.ok h) (bookHeld r rest s) = replyHold r h.account c d (bookHeld r rest s)) :
      exec .bookTakeHold s = .next (reply c d) :=
    hexec.trans (congrArg Host.Outcome.next (hd.trans (bookReply_eq_bookReplied hline ..)))
  refine ⟨fun held hk ho => hreply (decideHold_standing (s := bookHeld r rest s) r hk ho), fun hk => ?_⟩
  have hnew : decideHold r (.ok h) (bookHeld r rest s) = decideNewHold r h (bookHeld r rest s) :=
    decideHold_new (s := bookHeld r rest s) r hk
  have hstate {c : AnsCode} {d : AnsData} (ha : stateAnswer s h.account = some (c, d)) : exec .bookTakeHold s = .next (reply c d) :=
    hreply (hnew.trans (decideNewHold_stateAnswer (s := bookHeld r rest s) r ha))
  refine ⟨fun hno => hstate (stateAnswer_noAccount hno), fun a ha => ⟨fun hy => hstate (stateAnswer_yielding ha hy),
    fun m hm => hstate (stateAnswer_moved ha hm),
    fun ho hfull => hreply (hnew.trans (decideNewHold_full (s := bookHeld r rest s) r ha ho hfull)),
    fun ho hroom hg => hreply (hnew.trans (decideNewHold_unfunded (s := bookHeld r rest s) r ha ho hroom hg)),
    fun g c ho hroom hg => ⟨fun hnone => ?_,
      fun hsome => hreply (hnew.trans (decideNewHold_second (s := bookHeld r rest s) r ha ho hroom hg hsome))⟩⟩⟩
  rw [hexec, hnew, decideNewHold_granted (s := bookHeld r rest s) r ha ho hroom hg hnone]
  exact congrArg Host.Outcome.next (bookReply_eq_bookReplied hline ..)

/-! ### A RELEASE at the front of the book's queue (R43) -/

theorem exec_bookTakeRelease {s : State} {src : Src} {x : Parsed ReleaseReq} {rest : List BookReq}
    (h : BookFront ⟨src, .release x⟩ rest s) :
    exec .bookTakeRelease s = .next (decideReleaseReq ⟨src, .release x⟩ x (bookHeld ⟨src, .release x⟩ rest s)) :=
  congrArg Host.Outcome.next (takeBook_front (f := takeRelease) h.1 h.2 rfl)

theorem decideReleaseReq_standing {s : State} {q : ReleaseReq} {held : Hold} (r : BookReq) (hk : findHold s.book.holds q.key = some held)
    (ho : isOpen s held.account = true) : decideReleaseReq r (.ok q) s =
      bookReply r .release (.account q.account) .done .none (s.onBook fun b => { b with holds := dropHold q.key b.holds }) := by
  simp [decideReleaseReq, hk, ho]

/-- R43: without a hold of an OPEN account under the key, the account's state answers, and DONE for an OPEN one. -/
theorem decideReleaseReq_byState {s : State} {q : ReleaseReq} (r : BookReq)
    (hk : ∀ held, findHold s.book.holds q.key = some held → isOpen s held.account = false) {c : AnsCode} {d : AnsData}
    (ha : (stateAnswer s q.account).getD (.done, .none) = (c, d)) :
    decideReleaseReq r (.ok q) s = bookReply r .release (.account q.account) c d s := by
  have hstate : (match stateAnswer s q.account with
      | some (c, d) => bookReply r .release (.account q.account) c d s
      | none => bookReply r .release (.account q.account) .done .none s) = bookReply r .release (.account q.account) c d s := by
    cases hs : stateAnswer s q.account with
    | none => rw [hs] at ha; cases ha; rfl
    | some x => rw [hs] at ha; cases ha; rfl
  cases hf : findHold s.book.holds q.key with
  | none => simp only [decideReleaseReq, hf]; exact hstate
  | some held => simp only [decideReleaseReq, hf, hk held hf, Bool.false_eq_true, if_false]; exact hstate

/-- R43: a released hold frees its remaining amount, the keys of the table being different. -/
theorem availableFunds_dropHold {hs : List Hold} {k : Ident} {held : Hold} {a : Account} (hn : (hs.map (·.key)).Nodup)
    (hk : findHold hs k = some held) (ha : a.number = held.account) :
    availableFunds (dropHold k hs) a = availableFunds hs a + held.remaining := by
  have hheld : heldFunds hs a.number = heldFunds (dropHold k hs) a.number + held.remaining := by
    induction hs with
    | nil => cases hk
    | cons x xs ih =>
      simp only [List.map_cons, List.nodup_cons, List.mem_map, not_exists, not_and] at hn
      obtain ⟨hx, hn⟩ := hn
      by_cases hxk : x.key = k
      · obtain rfl : x = held := by simpa [findHold, hxk] using hk
        have hdrop : dropHold k (x :: xs) = xs := by
          simp only [dropHold, hxk, bne_self_eq_false, Bool.false_eq_true, not_false_eq_true, List.filter_cons_of_neg]
          exact List.filter_eq_self.2 fun y hy => by simpa using fun he => hx y hy (he.trans hxk.symm)
        rw [hdrop]
        simp only [heldFunds, List.filter_cons, ha, beq_self_eq_true, if_true, List.map_cons, List.sum_cons]
        omega
      · have hrest := ih hn (by simpa [findHold, hxk] using hk)
        have hdrop : dropHold k (x :: xs) = x :: dropHold k xs := by simp [dropHold, hxk]
        rw [hdrop]
        simp only [heldFunds, List.filter_cons] at hrest ⊢
        split
        · simp only [List.map_cons, List.sum_cons]; omega
        · exact hrest
  simp only [availableFunds]
  omega

/-- Settles O41: the standing hold of an OPEN account, then the account's state. -/
theorem releaseIsDecided : Obligations.ReleaseIsDecided := by
  intro s src q rest r hfront hline reply
  have hexec := exec_bookTakeRelease hfront
  refine ⟨fun held hk ho => ⟨?_, fun hn a ha => availableFunds_dropHold hn hk ha⟩, fun hk => ?_⟩
  · rw [hexec, decideReleaseReq_standing (s := bookHeld r rest s) r hk ho]
    exact congrArg Host.Outcome.next (bookReply_eq_bookReplied hline ..)
  · have hclosed : ∀ held, findHold s.book.holds q.key = some held → isOpen s held.account = false := by
      intro held hheld
      obtain hno | ⟨h, hh, ho⟩ := hk
      · rw [hno] at hheld; cases hheld
      · obtain rfl := Option.some.inj (hh.symm.trans hheld); exact ho
    have hstate {c : AnsCode} {d : AnsData} (ha : (stateAnswer s q.account).getD (.done, .none) = (c, d)) :
        exec .bookTakeRelease s = .next (reply c d) := by
      rw [hexec, decideReleaseReq_byState (s := bookHeld r rest s) r hclosed ha]
      exact congrArg Host.Outcome.next (bookReply_eq_bookReplied hline ..)
    exact ⟨fun hno => hstate (by rw [stateAnswer_noAccount hno]; rfl), fun a ha => ⟨fun ho => hstate (by rw [stateAnswer_opened ha ho]; rfl),
      fun hy => hstate (by rw [stateAnswer_yielding ha hy]; rfl), fun m hm => hstate (by rw [stateAnswer_moved ha hm]; rfl)⟩⟩

end Sys2Proof.Machine
end

section
/-! The end of a posting's commit (O39). -/

namespace Sys2Proof.Machine
open Sys2Proof

/-! ### Working copies of account records (R21, R55) -/

section
variable {s : State} {n : Nat} {a : Account}

theorem accountOf_mem (h : accountOf s n = some a) : a ∈ s.book.accounts ∧ a.number = n :=
  ⟨List.mem_of_find?_eq_some h, by simpa using List.find?_some h⟩

/-- R21: the working copy of a record that stands takes the committed change, with the write count of its CURRENT copy. -/
theorem takeAccount_of_account (h : accountOf s n = some a) (c : AcctChange) : takeAccount n c s = s.onBook fun b => { b with
    accounts := putAccount { applyAcct c a with writes := currentCount s.store (.account n) } b.accounts } := by
  simp [takeAccount, h]

/-- A record put in the place of one that stands is the one found. -/
theorem findAccount_putAccount_self {as : List Account} {b : Account} (h : findAccount as b.number = some a) :
    findAccount (putAccount b as) b.number = some b :=
  find_putKeyed_self Account.number (.inl ⟨a, List.mem_of_find?_eq_some h, by simpa using List.find?_some h⟩)

theorem findAccount_putAccount_other {as : List Account} {b : Account} (h : n ≠ b.number) :
    findAccount (putAccount b as) n = findAccount as n :=
  find_putKeyed_other Account.number 128 as h

end

/-! ### Watermarks (R26) -/

theorem Mark.lt_irrefl (m : Mark) : m.lt m = false := by simp [Mark.lt]

/-- R26: once an identity is its origin's watermark it is not above it. -/
theorem markOf_raiseMark_lt {id : Ident} {ms : List Mark} (hn : nodeOk id.node = true) (hlen : ms.length = 62) :
    (markOf (raiseMark id ms) id.node).lt id.mark = false := by
  have hlt : id.node - 1 < ms.length := by
    simp only [nodeOk, Bool.and_eq_true, decide_eq_true_eq] at hn; omega
  have hmark : markOf (raiseMark id ms) id.node = id.mark := by simp [markOf, raiseMark, hlt]
  rw [hmark]
  exact Mark.lt_irrefl _

/-! ### What a posting does to the hold table (R30, R31) -/

section
variable {hs : List Hold} {k : Ident}

theorem key_ne_of_findHold_none (h : findHold hs k = none) {x : Hold} (hx : x ∈ hs) : x.key ≠ k := by
  simpa using List.find?_eq_none.1 h x hx

theorem drawHold_none (h : findHold hs k = none) (amount : Nat) : drawHold k amount hs = hs := by
  have hsome : ∀ x ∈ hs, (if x.key = k then (if x.remaining ≤ amount then none else some { x with remaining := x.remaining - amount })
      else some x) = some x := fun x hx => if_neg (key_ne_of_findHold_none h hx)
  rw [drawHold, List.filterMap_congr hsome, List.filterMap_some]

theorem dropHold_none (h : findHold hs k = none) : dropHold k hs = hs :=
  List.filter_eq_self.2 fun x hx => by simpa using key_ne_of_findHold_none h hx

theorem drawHold_eq_filterMap (k : Ident) (amount : Nat) (hs : List Hold) : drawHold k amount hs = hs.filterMap fun x =>
    if x.key ≠ k then some x
    else if amount < x.remaining then some { x with remaining := x.remaining - amount } else none := by
  refine List.filterMap_congr fun x _ => ?_
  by_cases hx : x.key = k
  · by_cases hr : amount < x.remaining
    · rw [if_pos hx, if_neg (Nat.not_le.2 hr), if_neg (not_not.2 hx), if_pos hr]
    · rw [if_pos hx, if_pos (Nat.not_lt.1 hr), if_neg (not_not.2 hx), if_neg hr]
  · rw [if_neg hx, if_pos hx]

end

section
variable {p : Posting}

theorem consumeHolds_of_plain (h : p.kind = .sale ∨ p.kind = .issue ∨ p.kind = .ret) (hs : List Hold) : consumeHolds p hs = hs := by
  obtain h | h | h := h <;> simp [consumeHolds, h]

theorem postHoldKey_eq {e n : Nat} (h : p.holdKey = some (e, n)) : postHoldKey p = some ⟨p.id.node, e, n⟩ := by simp [postHoldKey, h]

theorem consumeHolds_draw {e n : Nat} (hk : p.kind = .draw) (h : p.holdKey = some (e, n)) (hs : List Hold) :
    consumeHolds p hs = drawHold ⟨p.id.node, e, n⟩ p.amount hs := by simp [consumeHolds, hk, postHoldKey_eq h]

theorem consumeHolds_settle {e n : Nat} (hk : p.kind = .settle) (h : p.holdKey = some (e, n)) (hs : List Hold) :
    consumeHolds p hs = dropHold ⟨p.id.node, e, n⟩ hs := by simp [consumeHolds, hk, postHoldKey_eq h]

theorem consumeHolds_transfer {t : TransferPart} (hk : p.kind = .transfer) (h : p.transfer = some t) (hs : List Hold) :
    consumeHolds p hs = (adoptHolds p.account t.holds hs).1 := by simp [consumeHolds, hk, h]

/-! ### The answer to an applied posting (R28) -/

variable {s : State} {a : Account}

theorem appliedAnswer_sale (hk : p.kind = .sale) : appliedAnswer s p a = (.done, .counts (metCounts a.crates p.items)) := by
  simp [appliedAnswer, hk]

theorem appliedAnswer_issue (hk : p.kind = .issue) : appliedAnswer s p a = (.done, .none) := by simp [appliedAnswer, hk]

theorem appliedAnswer_ret_full (hk : p.kind = .ret) (h : ∀ i ∈ p.items, i.count ≤ crateCount a.crates i.ctype) :
    appliedAnswer s p a = (.done, .counts (metCounts a.crates p.items)) := by
  have hfull : refundedInFull a p.items = true := by simpa [refundedInFull, cratesMet] using h
  simp [appliedAnswer, hk, hfull]

theorem appliedAnswer_ret_short (hk : p.kind = .ret) {i : CrateItem} (hi : i ∈ p.items) (h : crateCount a.crates i.ctype < i.count) :
    appliedAnswer s p a = (.clamped, .counts (metCounts a.crates p.items)) := by
  have hshort : refundedInFull a p.items = false := by
    simp only [refundedInFull, List.all_eq_false, cratesMet]
    exact ⟨i, hi, by simpa using h⟩
  simp [appliedAnswer, hk, hshort]

/-- R30, R31: a DRAW or a SETTLE without its hold is LAPSED. -/
theorem appliedAnswer_held {e n : Nat} (hk : p.kind = .draw ∨ p.kind = .settle) (h : p.holdKey = some (e, n)) : appliedAnswer s p a =
    if (findHold s.book.holds ⟨p.id.node, e, n⟩).isSome then (.done, .none) else (.lapsed, .none) := by
  obtain hk | hk := hk <;> simp [appliedAnswer, hk, namedHold, postHoldKey_eq h]

theorem appliedAnswer_transfer {t : TransferPart} (hk : p.kind = .transfer) (h : p.transfer = some t) :
    appliedAnswer s p a = (.done, .dropped (adoptHolds p.account t.holds s.book.holds).2) := by
  simp [appliedAnswer, hk, h]

end

/-! ### The end of a posting's commit (R27) -/

/-- How many carried holds an answer reports as dropped. -/
def droppedIn : AnsData → Nat
  | .dropped n => n
  | _ => 0

/-- What an applied posting leaves in the book, the entry in hand and the holds dropped apart. -/
def postingTaken (p : Posting) (a : Account) (c : AnsCode) (s : State) : State := s.onBook fun b => { b with
  accounts := putAccount { applyPosting p a with writes := currentCount s.store (.account p.account) } b.accounts
  marks := raiseMark p.id b.marks
  holds := consumeHolds p b.holds
  cnt := if c = .lapsed then { b.cnt with lapsedAnswers := bump b.cnt.lapsedAnswers } else b.cnt }

theorem lineFor_of_lif {src : Src} {s t : State} (h : LineFor src s) (hl : t.lif = s.lif) : LineFor src t := by
  intro node seq hsrc
  obtain ⟨hactive, hroom⟩ := h node seq hsrc
  exact ⟨hl ▸ hactive, by simpa [sendRoom, hl] using hroom⟩

theorem dropHolds_zero (s : State) : dropHolds 0 s = s := rfl

theorem dropHolds_lif (n : Nat) (s : State) : (dropHolds n s).lif = s.lif := by
  unfold dropHolds; split
  · rfl
  · exact raise_lif ..

/-- R35, R50: holds dropped are counted, and HOLD_DROPPED is raised. -/
theorem dropHolds_pos {n : Nat} {s : State} (hn : 0 < n) (hrun : s.sys.phase = .running) : dropHolds n s =
    flagged .holdDropped (s.onBook fun b => { b with cnt := { b.cnt with droppedHolds := bumpBy n b.cnt.droppedHolds } }) := by
  rw [dropHolds, if_neg (Nat.ne_of_gt hn)]
  exact raise_running _ _ hrun

section
variable {s : State} {r : BookReq} {p : Posting} {a : Account} {c : AnsCode} {d : AnsData} {res : StoreRes}

theorem applyAndAnswer_eq (ha : accountOf s p.account = some a) (hans : appliedAnswer s p a = (c, d)) :
    applyAndAnswer r p s = replyPost r p c d (dropHolds (droppedIn d) (postingTaken p a c s)) := by
  simp only [applyAndAnswer, ha, Option.getD_some, hans, takeAccount_of_account ha]
  cases d <;> rfl

/-- R27: once the account write is DONE the posting is applied and answered. -/
theorem postCommitted_done (hhand : s.book.hand = some r) (hask : r.ask = .post (.ok p)) (hline : LineFor r.src s)
    (ha : accountOf s p.account = some a) (hres : outboundsDone 1 res = true) (hans : appliedAnswer s p a = (c, d)) :
    postCommitted res s = bookReplied r .post p.account c d (endBookHand (dropHolds (droppedIn d) (postingTaken p a c s))) := by
  have happly : postCommitted res s = applyAndAnswer r p s := by simp [postCommitted, hhand, hask, hres]
  rw [happly, applyAndAnswer_eq ha hans]
  exact bookReply_eq_bookReplied (lineFor_of_lif hline (dropHolds_lif _ (postingTaken p a c s))) ..

theorem postCommitted_failed (hhand : s.book.hand = some r) (hask : r.ask = .post (.ok p)) (hline : LineFor r.src s)
    (hres : outboundsDone 1 res = false) :
    postCommitted res s = bookReplied r .post p.account .defer (.wait 100) (endBookHand (countStoreRefusal s)) := by
  have hreply : postCommitted res s = replyPost r p .defer (.wait 100) (countStoreRefusal s) := by simp [postCommitted, hhand, hask, hres]
  rw [hreply]
  exact bookReply_eq_bookReplied (s := countStoreRefusal s) hline ..

end

/-- Settles O39: by whether the account write is DONE, and then by the kind of the posting. -/
theorem postingAppliedOnce : Obligations.PostingAppliedOnce := by
  intro s src p a res r hhand hline hnode hmarks ha hrun after applied answers
  have hnumber : after.number = p.account := (applyPosting_frame p a).1.trans (accountOf_mem ha).2
  refine ⟨fun hres => ?_, fun hres => ?_⟩
  · intro met plain lapsed
    have hdone : outboundsDone 1 res = true := by obtain rfl | rfl | rfl := hres <;> rfl
    have hanswer {c : AnsCode} {d : AnsData} (hans : appliedAnswer s p a = (c, d)) :=
      postCommitted_done hhand rfl hline ha hdone hans
    have hplain {c : AnsCode} {d : AnsData} {hs : List Hold} (hans : appliedAnswer s p a = (c, d)) (hd : droppedIn d = 0)
        (hc : c ≠ .lapsed) (hcons : consumeHolds p s.book.holds = hs) : answers c d (applied hs s.book.cnt) := by
      refine (hanswer hans).trans ?_
      subst hcons
      simp only [hd, dropHolds_zero, postingTaken, hc, if_false]
      rfl
    have hlapsed (hans : appliedAnswer s p a = (.lapsed, .none)) (hcons : consumeHolds p s.book.holds = s.book.holds) :
        answers .lapsed .none lapsed := by
      refine (hanswer hans).trans ?_
      simp only [droppedIn, dropHolds_zero, postingTaken, if_true, State.onBook, hcons]
      rfl
    refine ⟨fun holds cnt => ?_,
      fun hk => hplain (appliedAnswer_sale hk) rfl nofun (consumeHolds_of_plain (.inl hk) _),
      fun hk => hplain (appliedAnswer_issue hk) rfl nofun (consumeHolds_of_plain (.inr (.inl hk)) _),
      fun hk => ⟨fun h => hplain (appliedAnswer_ret_full hk h) rfl nofun (consumeHolds_of_plain (.inr (.inr hk)) _),
        fun i hi h => hplain (appliedAnswer_ret_short hk hi h) rfl nofun (consumeHolds_of_plain (.inr (.inr hk)) _)⟩,
      fun e n hk hkey => ⟨fun hnone => ?_, fun hsome => ?_⟩, fun e n hk hkey => ⟨fun hnone => ?_, fun hsome => ?_⟩,
      fun part hk hpart => ⟨fun hq => ?_, fun hq => ?_⟩⟩
    · have hself := findAccount_putAccount_self (b := after) (hnumber ▸ ha)
      rw [hnumber] at hself
      exact ⟨markOf_raiseMark_lt hnode hmarks, hself, fun n hn => findAccount_putAccount_other (hnumber ▸ hn)⟩
    · exact hlapsed ((appliedAnswer_held (.inl hk) hkey).trans (by simp [hnone]))
        ((consumeHolds_draw hk hkey _).trans (drawHold_none hnone _))
    · exact hplain ((appliedAnswer_held (.inl hk) hkey).trans (if_pos hsome)) rfl nofun
        ((consumeHolds_draw hk hkey _).trans (drawHold_eq_filterMap ..))
    · exact hlapsed ((appliedAnswer_held (.inr hk) hkey).trans (by simp [hnone]))
        ((consumeHolds_settle hk hkey _).trans (dropHold_none hnone))
    · exact hplain ((appliedAnswer_held (.inr hk) hkey).trans (if_pos hsome)) rfl nofun (consumeHolds_settle hk hkey _)
    · exact hplain ((appliedAnswer_transfer hk hpart).trans (by rw [hq])) rfl nofun (consumeHolds_transfer hk hpart _)
    · refine (hanswer (appliedAnswer_transfer hk hpart)).trans ?_
      simp only [droppedIn]
      rw [dropHolds_pos (s := postingTaken p a .done s) hq hrun]
      simp only [postingTaken, State.onBook, consumeHolds_transfer hk hpart]
      rfl
  · have hfailed : outboundsDone 1 res = false := by obtain rfl | rfl := hres <;> rfl
    exact postCommitted_failed hhand rfl hline hfailed

end Sys2Proof.Machine
end

section
/-! LOCATE, OPENED and HOME at the book, and the yield (O42). -/

namespace Sys2Proof.Machine
open Sys2Proof

/-! ### A posting asked for, and its entry made (R89, R91 to R93) -/

/-- A creation request of one posting (R91). -/
def onePost (ref : Ref) (p : Posting) (dest : Nat) : CreateReq := ⟨ref, [⟨.post p, ref, some p.account, some dest, false⟩]⟩

theorem transferReq_eq_onePost (a n : Nat) : transferReq a n = onePost (.transfer a) ⟨default, .transfer, a, 0, [], none, none⟩ n := rfl

section
variable {s : State} {ref : Ref} {p : Posting} {dest : Nat}

theorem onePost_posts : (onePost ref p dest).posts = [p] := rfl

theorem fillBodies_onePost (key : Ident) (p' : Posting) :
    fillBodies key (onePost ref p dest).items [p'] = [⟨.post p', ref, some p.account, some dest, false⟩] := by
  simp [onePost, fillBodies]

/-- R92, R93: with the epoch in use and a number left, the EXC places the commit of the OUTBOUND record and of the next number. -/
theorem startJob_onePost (hepoch : s.sys.epochState = .inUse) (hnumber : s.node.nextPosting ≤ 65535) (hlist : ListOpen s) :
    startJob (.create (onePost ref p dest)) s = (postAsked ref p dest s, .started) := by
  have hadvance : needsAdvance s (onePost ref p dest).hasHold 1 = false := by
    simp only [needsAdvance, onePost, CreateReq.hasHold, List.any_cons, List.any_nil, Bool.or_false, Bool.false_and, decide_eq_false_iff_not]
    omega
  simp only [startJob, hepoch, reduceCtorEq, if_false, onePost_posts, List.length_singleton, hadvance, numberPosts, fillBodies_onePost,
    Bool.false_eq_true, Nat.one_ne_zero, outWrites, outRecord, List.filterMap_cons, List.filterMap_nil, List.cons_append, List.nil_append,
    Option.getD_some]
  exact congrArg (·, JobRes.started) (placeGroup_room hlist.1 hlist.2 nofun)

/-- R91 to R93: a request of one posting is taken up at once where nothing stands in its way. -/
theorem takeCreate_onePost (hready : PostReady s) (hlist : ListOpen s) :
    takeCreate (onePost ref p dest) s = (postAsked ref p dest s, .working) := by
  obtain ⟨hfree, hepoch, hwork, hjobs, hnumber⟩ := hready
  have hopen : ¬ openPlaces s.exc < 1 := by
    have hpos := List.length_pos_of_ne_nil hfree
    simp only [openPlaces, hwork, hjobs, List.map_nil, List.sum_nil]
    omega
  have hstart := startJob_onePost (ref := ref) (p := p) (dest := dest) hepoch hnumber hlist
  have hlen : (onePost ref p dest).items.length = 1 := rfl
  have hbad : (onePost ref p dest).badDest = false := rfl
  simp [takeCreate, hlen, hopen, hepoch, hbad, onePost_posts, hwork, hjobs, hstart]

/-- R89: the entry of one posting stands in the place that has been free longest. -/
theorem standEntries_onePost {q : Nat} {qs : List Nat} (hfree : s.exc.free = q :: qs) (p' : Posting) :
    standEntries (onePost ref p dest) [p'] s = (entryMade q qs ⟨.post p', ref, some p.account, some dest, false⟩ s, none) := by
  have hplaces : nextPlaces (onePost ref p dest) s = [q] := by simp [nextPlaces, onePost, hfree]
  have hqueued : (makeEntry q ⟨.post p', ref, some p.account, some dest, false⟩).state = .queued := rfl
  have hother : (EntryState.queued == .unresolved) = false := rfl
  have hhold : (onePost ref p dest).hasHold = false := rfl
  have hdrop : s.exc.free.drop (onePost ref p dest).items.length = qs := by simp [onePost, hfree]
  simp only [standEntries, hplaces, fillBodies_onePost, List.zipWith_cons_cons, List.zipWith_nil_left, List.foldl_cons, List.foldl_nil,
    List.filter_cons, hqueued, hother, List.filter_nil, hhold, State.onExc, hdrop, Bool.false_eq_true, if_false]
  rfl

theorem numbersAfter_done (k : Nat) (hepoch : s.node.epoch = s.sys.epoch) (hnumber : s.node.nextPosting ≤ 65535) :
    numbersAfter k .done s = s := by
  simp only [numbersAfter, adoptNumbers, hepoch, if_true]
  rw [if_neg (by omega)]

theorem runJobs_idle (n : Nat) (h : s.exc.jobs = []) : runJobs n s = s := by
  cases n with
  | zero => rfl
  | succ n => simp [runJobs, h]

/-- R93: the commit of one posting ends DONE: its entry stands, and its unit is told. -/
theorem excWorkEnded_onePost {q : Nat} {qs : List Nat} {p' : Posting} (hwork : s.exc.work = some (.create (onePost ref p dest) [p']))
    (hfree : s.exc.free = q :: qs) (hepoch : s.node.epoch = s.sys.epoch) (hnumber : s.node.nextPosting ≤ 65535) :
    excWorkEnded .done s = runJobs jobFuel (unitMade ref [q] none (entryMade q qs ⟨.post p', ref, some p.account, some dest, false⟩
      (s.onExc fun x => { x with work := none }))) := by
  have hplaces : nextPlaces (onePost ref p dest) (s.onExc fun x => { x with work := none }) = [q] := by simp [nextPlaces, onePost, hfree]
  have hstand := standEntries_onePost (s := s.onExc fun x => { x with work := none }) (ref := ref) (p := p) (dest := dest) hfree p'
  have hdone : outboundsDone [p'].length .done = true := rfl
  have hnumbers := numbersAfter_done (s := s.onExc fun x => { x with work := none }) [p'].length hepoch hnumber
  simp only [excWorkEnded, hwork, createEnded, hdone, if_true, hnumbers, hstand, hplaces]
  rfl

end

/-! ### The YIELDING record and its TRANSFER (R46) -/

section
variable {s : State} {a n : Nat} {acc : Account}

/-- R46: the TRANSFER is asked for, and taken up at once. -/
theorem askTransfer_ready (hready : PostReady s) (hlist : ListOpen s) (y : Yield) : askTransfer y s =
    postAsked (.transfer y.acct) ⟨default, .transfer, y.acct, 0, [], none, none⟩ y.target (setYield { y with stage := .asking } s) := by
  have htake := takeCreate_onePost (s := setYield { y with stage := .asking } s) (ref := .transfer y.acct)
    (p := ⟨default, .transfer, y.acct, 0, [], none, none⟩) (dest := y.target) hready hlist
  simp only [askTransfer, transferReq_eq_onePost, htake]

/-- R46: the created TRANSFER carries the record and its holds, which leave the table. -/
theorem transferCreated_eq {y : Yield} {q : Nat} {qs : List Nat} {e : Entry} {p : Posting} (hacct : accountOf s a = some acc)
    (hyield : yieldOf s a = some y) (he : findEntry s q = some e) (hbody : e.body = .post p) : transferCreated a (q :: qs) s =
      setYield { y with stage := .running }
        ((putEntry { e with body := .post { p with transfer := some (transferPart acc s.book.holds) } } s).onBook fun b =>
          { b with holds := b.holds.filter fun h => h.account != a }) := by
  simp only [transferCreated, hacct, hyield, he, hbody]

end

/-! ### LOCATE, OPENED and HOME taken by the book (R24, R45) -/

section
variable {s : State} {src : Src} {rest : List BookReq}

theorem exec_bookTakeLocate {x : Parsed Nat} (h : BookFront ⟨src, .locate x⟩ rest s) :
    exec .bookTakeLocate s = .next (decideLocate ⟨src, .locate x⟩ x (bookHeld ⟨src, .locate x⟩ rest s)) :=
  congrArg Host.Outcome.next (takeBook_front (f := takeLocate) h.1 h.2 rfl)

theorem exec_bookTakeOpened {n : Nat} {x : Parsed Nat} (h : BookFront ⟨src, .opened n x⟩ rest s) :
    exec .bookTakeOpened s = .next (compareHome n x (bookHeld ⟨src, .opened n x⟩ rest s)) :=
  congrArg Host.Outcome.next (takeBook_front (f := takeOpened) h.1 h.2 rfl)

theorem exec_bookTakeHome {n : Nat} {x : Parsed Nat} (h : BookFront ⟨src, .home n x⟩ rest s) :
    exec .bookTakeHome s = .next (compareHome n x (bookHeld ⟨src, .home n x⟩ rest s)) :=
  congrArg Host.Outcome.next (takeBook_front (f := takeHome) h.1 h.2 rfl)

theorem decideLocate_open {node seq a : Nat} (r : BookReq) (hsrc : r.src = .line node seq) (ho : isOpen s a = true) (hline : LineOpen s) :
    decideLocate r (.ok a) s = endBookHand (enqueueMsg (newMsg .answer 0 seq (.home a) .book 0) s) := by
  simp only [decideLocate, ho, hsrc, placingOf_active hline.1 hline.2, placeMsg_active _ hline.1 hline.2]

theorem decideLocate_closed {a : Nat} (r : BookReq) (ho : isOpen s a = false) : decideLocate r (.ok a) s = endBookHand s := by
  simp only [decideLocate, ho]

theorem placeOpened_line (hline : LineOpen s) (a : Nat) : placeOpened a s = queued (newMsg .notice 0 0 (.opened a) .book 0) s :=
  placeMsg_active _ hline.1 hline.2

theorem compareHome_nothing {n a : Nat} (h : isOpen s a = false ∨ n = s.self) : compareHome n (.ok a) s = endBookHand s := by
  obtain h | h := h <;> simp [compareHome, h]

theorem compareHome_higher {n a : Nat} (ho : isOpen s a = true) (hn : s.self < n) :
    compareHome n (.ok a) s = endBookHand (placeOpened a s) := by
  simp [compareHome, ho, hn]

theorem compareHome_lower {n a : Nat} (ho : isOpen s a = true) (hn : n < s.self) : compareHome n (.ok a) s = beginYield a n s := by
  simp [compareHome, ho, hn, Nat.le_of_lt hn]

end

/-- Settles O42: a LOCATE, an OPENED or a HOME by the account's state and the two node numbers, then the ends of the yield's commits. -/
theorem homesAreCompared : Obligations.HomesAreCompared := by
  intro s rest a src
  refine ⟨fun node seq hsrc hfront => ⟨fun ho hline => ?_, fun ho => ?_⟩, fun n c ask hc hfront => ?_, fun n acc hacct => ?_⟩
  · rw [exec_bookTakeLocate hfront]
    exact congrArg Host.Outcome.next (decideLocate_open (s := bookHeld _ rest s) _ hsrc ho hline)
  · rw [exec_bookTakeLocate hfront]
    exact congrArg Host.Outcome.next (decideLocate_closed (s := bookHeld _ rest s) _ ho)
  · have hexec : exec c s = .next (compareHome n (.ok a) (bookHeld ⟨src, ask⟩ rest s)) := by
      obtain ⟨rfl, rfl⟩ | ⟨rfl, rfl⟩ := hc
      · exact exec_bookTakeOpened hfront
      · exact exec_bookTakeHome hfront
    rw [hexec]
    refine ⟨fun h => congrArg Host.Outcome.next (compareHome_nothing (s := bookHeld _ rest s) h), fun ho hn hline => ?_,
      fun ho hn hlist => ?_⟩
    · rw [compareHome_higher (s := bookHeld _ rest s) ho hn, placeOpened_line (s := bookHeld _ rest s) hline]
      rfl
    · rw [compareHome_lower (s := bookHeld _ rest s) ho hn]
      exact congrArg Host.Outcome.next (placeGroup_room hlist.1 hlist.2 nofun)
  · intro yields
    refine ⟨fun hready hlist => ?_, fun res hres => ?_, fun q qs p hwork hfree hjobs hp hk hyield hepoch hnumber hentries => ?_⟩
    · have htake := takeAccount_of_account (s := endBookHand s) hacct (.setState .yielding)
      have hask := askTransfer_ready (s := takeAccount a (.setState .yielding) (endBookHand s)) (y := ⟨a, n, .asking⟩)
        (by rw [htake]; exact hready) (by rw [htake]; exact hlist)
      exact hask.trans (by rw [htake]; rfl)
    · cases res with
      | done => exact absurd rfl hres
      | full i => rfl
      | fault i => rfl
    · subst hp
      have hmade := excWorkEnded_onePost (q := q) (qs := qs) hwork hfree hepoch hnumber
      have hentry : findEntry (entryMade q qs ⟨.post p, .transfer p.account, some p.account, some n, false⟩
          (s.onExc fun x => { x with work := none })) q =
          some (makeEntry q ⟨.post p, .transfer p.account, some p.account, some n, false⟩) := by
        simp [findEntry, entryMade, refreshReady, State.onExc, hentries, putEntryIn, insertKeyed, makeEntry]
      have hcarried := transferCreated_eq (qs := []) (p := p)
        (s := entryMade q qs ⟨.post p, .transfer p.account, some p.account, some n, false⟩ (s.onExc fun x => { x with work := none }))
        hacct hyield hentry rfl
      have hend : storeOutcome .excWork .done s = _ := hmade.trans ((congrArg (runJobs jobFuel) hcarried).trans (runJobs_idle _ hjobs))
      intro t
      have ht : t = _ := hend
      refine ⟨by rw [ht]; rfl, ?_, by rw [ht]; rfl⟩
      have hnum : acc.number = p.account := (accountOf_mem hacct).2
      rw [ht]
      simp [setYield, putEntry, refreshReady, entryMade, State.onExc, State.onBook, hentries, putEntryIn, insertKeyed, setEntryIn, makeEntry,
        transferPart, carryHolds, hnum, ReqBody.kind]

end Sys2Proof.Machine
end

section
/-! The book commands once taken, and the ends of their commits (O43). -/

namespace Sys2Proof.Machine
open Sys2Proof

/-! ### The outcome of a book command (R36) -/

section
variable {s : State}

/-- R36: the book command result is set, the entry in hand ends, and STORE_EVENT is raised. -/
theorem endBookCmd_running (hrun : s.sys.phase = .running) (cmd : BookCmd) (a : Nat) (c : PCode) :
    endBookCmd cmd a c s = bookCmdEnded cmd a c s :=
  raise_running _ _ hrun

/-! ### What an opening is decided (R37) -/

variable {a : Nat}

theorem decideOpen_opened {acc : Account} (h : accountOf s a = some acc) (hst : acc.state = .opened) (l : Nat) :
    decideOpen s a l = .homeHere := by simp [decideOpen, h, hst]

theorem decideOpen_yielding {acc : Account} (h : accountOf s a = some acc) (hst : acc.state = .yielding) (l : Nat) :
    decideOpen s a l = .deferred := by simp [decideOpen, h, hst]

theorem decideOpen_moved {acc : Account} {n : Nat} (h : accountOf s a = some acc) (hst : acc.state = .moved n) (l : Nat) :
    decideOpen s a l = .moved n := by simp [decideOpen, h, hst]

theorem decideOpen_notActive (h : accountOf s a = none) (hl : s.lif.state ≠ .active) (l : Nat) :
    decideOpen s a l = .code .notActive := by simp [decideOpen, h, State.lineActive, hl]

theorem decideOpen_notConfigured (h : accountOf s a = none) (hl : s.lif.state = .active) (hb : isBoat a = true)
    (hf : s.port.cfg.boatFloor = none) (l : Nat) : decideOpen s a l = .code .notConfigured := by
  simp [decideOpen, h, State.lineActive, hl, hb, hf]

/-- R37: the floor of a new record: the boat floor of the node, or the credit limit of a buyer below zero. -/
def floorOf (s : State) (a l : Nat) : Option Int := if isBoat a = true then s.port.cfg.boatFloor else some (-(l : Int))

theorem floorOf_buyer (hb : isBoat a = false) (l : Nat) : floorOf s a l = some (-(l : Int)) := by simp [floorOf, hb]

theorem floorOf_boat {f : Int} (hb : isBoat a = true) (hf : s.port.cfg.boatFloor = some f) (l : Nat) : floorOf s a l = some f := by
  simp [floorOf, hb, hf]

theorem decideOpen_floor {f : Int} {l : Nat} (h : accountOf s a = none) (hl : s.lif.state = .active) (hf : floorOf s a l = some f) :
    decideOpen s a l = if 128 ≤ s.book.accounts.length then .code .bookFull else .create f := by
  cases hb : isBoat a with
  | true =>
    have hboat : s.port.cfg.boatFloor = some f := by simpa [floorOf, hb] using hf
    simp [decideOpen, h, State.lineActive, hl, hb, hboat]
  | false =>
    have hbuyer : -(l : Int) = f := by simpa [floorOf, hb] using hf
    simp [decideOpen, h, State.lineActive, hl, hb, hbuyer]

theorem decideOpen_bookFull {f : Int} {l : Nat} (h : accountOf s a = none) (hl : s.lif.state = .active) (hf : floorOf s a l = some f)
    (hfull : 128 ≤ s.book.accounts.length) : decideOpen s a l = .code .bookFull :=
  (decideOpen_floor h hl hf).trans (if_pos hfull)

theorem decideOpen_create {f : Int} {l : Nat} (h : accountOf s a = none) (hl : s.lif.state = .active) (hf : floorOf s a l = some f)
    (hroom : s.book.accounts.length < 128) : decideOpen s a l = .create f :=
  (decideOpen_floor h hl hf).trans (if_neg (Nat.not_le.2 hroom))

/-! ### The account's state, for the other commands (R38 to R40) -/

theorem cmdStateCode_noAccount (h : accountOf s a = none) : cmdStateCode s a = some .noAccount := by simp [cmdStateCode, h]

theorem cmdStateCode_opened {acc : Account} (h : accountOf s a = some acc) (hst : acc.state = .opened) : cmdStateCode s a = none := by
  simp [cmdStateCode, h, hst]

theorem cmdStateCode_yielding {acc : Account} (h : accountOf s a = some acc) (hst : acc.state = .yielding) :
    cmdStateCode s a = some .busy := by simp [cmdStateCode, h, hst]

theorem cmdStateCode_moved {acc : Account} {n : Nat} (h : accountOf s a = some acc) (hst : acc.state = .moved n) :
    cmdStateCode s a = some .moved := by simp [cmdStateCode, h, hst]

end

/-! ### OPEN and the local opening taken (R37, R106) -/

section
variable {s : State} {rest : List BookReq} {a l : Nat}

theorem exec_bookTakeOpen (h : BookFront ⟨.port, .cmdOpen a l⟩ rest s) :
    exec .bookTakeOpen s = .next (takeCmdOpen a l (bookHeld ⟨.port, .cmdOpen a l⟩ rest s)) :=
  congrArg Host.Outcome.next (takeBook_front (f := takeOpenCmd) h.1 h.2 rfl)

/-- R37: what a station port OPEN ends with at once; `none` for a creation, whose commit is placed. -/
def OpenDecision.code? : OpenDecision → Option PCode
  | .homeHere => some .homeHere
  | .deferred => some .defer
  | .moved _ => some .moved
  | .code c => some c
  | .create _ => none

theorem bookTakeOpen_ended (h : BookFront ⟨.port, .cmdOpen a l⟩ rest s) (hrun : s.sys.phase = .running) {d : OpenDecision} {c : PCode}
    (hd : decideOpen s a l = d) (hc : d.code? = some c) :
    exec .bookTakeOpen s = .next (bookCmdEnded .openCmd a c (bookTaken rest s)) := by
  have hheld : decideOpen (bookHeld ⟨.port, .cmdOpen a l⟩ rest s) a l = d := hd
  have htake : takeCmdOpen a l (bookHeld ⟨.port, .cmdOpen a l⟩ rest s) =
      endBookCmd .openCmd a c (bookHeld ⟨.port, .cmdOpen a l⟩ rest s) := by
    cases d with
    | create f => cases hc
    | homeHere | deferred | moved | code => cases hc; simp only [takeCmdOpen, hheld]
  rw [exec_bookTakeOpen h, htake, endBookCmd_running (s := bookHeld _ rest s) hrun]
  rfl

theorem bookTakeOpen_create (h : BookFront ⟨.port, .cmdOpen a l⟩ rest s) (hlist : ListOpen s) {f : Int}
    (hd : decideOpen s a l = .create f) : exec .bookTakeOpen s =
      .next (listed ⟨.bookOpen f, .group [.account a (.create f)]⟩ (bookHeld ⟨.port, .cmdOpen a l⟩ rest s)) := by
  have hheld : decideOpen (bookHeld ⟨.port, .cmdOpen a l⟩ rest s) a l = .create f := hd
  rw [exec_bookTakeOpen h, takeCmdOpen, hheld]
  exact congrArg Host.Outcome.next (placeGroup_room hlist.1 hlist.2 nofun)

variable {q : Nat}

theorem exec_bookTakeLocalOpening (h : BookFront ⟨.own q, .localOpen q a⟩ rest s) :
    exec .bookTakeLocalOpening s = .next (takeLocalOpen q a (bookHeld ⟨.own q, .localOpen q a⟩ rest s)) :=
  congrArg Host.Outcome.next (takeBook_front (f := takeOpening) h.1 h.2 rfl)

/-- R106: what a local opening tells the EXC at once; `none` for a creation, whose commit is placed. -/
def OpenDecision.res? : OpenDecision → Option OpenRes
  | .homeHere => some .done
  | .deferred => some .defer
  | .moved n => some (.moved n)
  | .code c => some (.code c)
  | .create _ => none

theorem bookTakeLocalOpening_told (h : BookFront ⟨.own q, .localOpen q a⟩ rest s) {d : OpenDecision} {r : OpenRes}
    (hd : decideOpen s a 0 = d) (hr : d.res? = some r) :
    exec .bookTakeLocalOpening s = .next (openingEnded q r (bookTaken rest s)) := by
  have hheld : decideOpen (bookHeld ⟨.own q, .localOpen q a⟩ rest s) a 0 = d := hd
  rw [exec_bookTakeLocalOpening h]
  cases d with
  | create f => cases hr
  | homeHere | deferred | moved | code => cases hr; simp only [takeLocalOpen, hheld]; rfl

theorem bookTakeLocalOpening_create (h : BookFront ⟨.own q, .localOpen q a⟩ rest s) (hlist : ListOpen s) {f : Int}
    (hd : decideOpen s a 0 = .create f) : exec .bookTakeLocalOpening s =
      .next (listed ⟨.bookOpen f, .group [.account a (.create f)]⟩ (bookHeld ⟨.own q, .localOpen q a⟩ rest s)) := by
  have hheld : decideOpen (bookHeld ⟨.own q, .localOpen q a⟩ rest s) a 0 = .create f := hd
  rw [exec_bookTakeLocalOpening h, takeLocalOpen, hheld]
  exact congrArg Host.Outcome.next (placeGroup_room hlist.1 hlist.2 nofun)

end

/-! ### ADJUST, REMOVE and CLEAR FLAGS taken (R38 to R40) -/

section
variable {s : State} {rest : List BookReq} {a : Nat} {v : Int} {c : PCode} {acc : Account}

theorem exec_bookTakeAdjust (h : BookFront ⟨.port, .cmdAdjust a v⟩ rest s) :
    exec .bookTakeAdjust s = .next (takeAdjust a v (bookHeld ⟨.port, .cmdAdjust a v⟩ rest s)) :=
  congrArg Host.Outcome.next (takeBook_front (f := takeAdjustCmd) h.1 h.2 rfl)

theorem bookTakeAdjust_ended (h : BookFront ⟨.port, .cmdAdjust a v⟩ rest s) (hrun : s.sys.phase = .running)
    (hc : cmdStateCode s a = some c) : exec .bookTakeAdjust s = .next (bookCmdEnded .adjust a c (bookTaken rest s)) := by
  have hheld : cmdStateCode (bookHeld ⟨.port, .cmdAdjust a v⟩ rest s) a = some c := hc
  rw [exec_bookTakeAdjust h, takeAdjust, hheld]
  exact congrArg Host.Outcome.next (endBookCmd_running (s := bookHeld _ rest s) hrun ..)

theorem bookTakeAdjust_open (h : BookFront ⟨.port, .cmdAdjust a v⟩ rest s) (hlist : ListOpen s) (hc : cmdStateCode s a = none) :
    exec .bookTakeAdjust s =
      .next (listed ⟨.bookAdjust, .group [.account a (.adjust v)]⟩ (bookHeld ⟨.port, .cmdAdjust a v⟩ rest s)) := by
  have hheld : cmdStateCode (bookHeld ⟨.port, .cmdAdjust a v⟩ rest s) a = none := hc
  rw [exec_bookTakeAdjust h, takeAdjust, hheld]
  exact congrArg Host.Outcome.next (placeGroup_room hlist.1 hlist.2 nofun)

theorem exec_bookTakeRemove (h : BookFront ⟨.port, .cmdRemove a⟩ rest s) :
    exec .bookTakeRemove s = .next (Sys2Proof.Machine.takeRemove a (bookHeld ⟨.port, .cmdRemove a⟩ rest s)) :=
  congrArg Host.Outcome.next (takeBook_front (f := takeRemoveCmd) h.1 h.2 rfl)

/-- R39: the code that a REMOVE ends with at once; `none` where the removal is placed. -/
def removeCode (s : State) (a : Nat) : Option PCode :=
  match accountOf s a with
  | none => some .noAccount
  | some acc => (match acc.state with
    | .yielding => some .busy
    | .moved _ => none
    | .opened => if removable s acc then none else some .notEmpty)

theorem takeRemove_eq (a : Nat) (s : State) : takeRemove a s = match removeCode s a with
    | some c => endBookCmd .remove a c s
    | none => placeRemoval .bookRemove (.account a) s := by
  cases h : accountOf s a with
  | none => simp only [takeRemove, removeCode, h]
  | some acc =>
    cases hst : acc.state with
    | opened => cases hr : removable s acc <;> simp [takeRemove, removeCode, h, hst, hr]
    | yielding | moved => simp only [takeRemove, removeCode, h, hst]

section
variable (ha : accountOf s a = some acc)
include ha

theorem removeCode_yielding (hst : acc.state = .yielding) : removeCode s a = some .busy := by simp [removeCode, ha, hst]

theorem removeCode_moved {n : Nat} (hst : acc.state = .moved n) : removeCode s a = none := by simp [removeCode, ha, hst]

theorem removeCode_removable (hst : acc.state = .opened) (hr : removable s acc = true) : removeCode s a = none := by
  simp [removeCode, ha, hst, hr]

theorem removeCode_notEmpty (hst : acc.state = .opened) (hr : removable s acc = false) : removeCode s a = some .notEmpty := by
  simp [removeCode, ha, hst, hr]

end

theorem bookTakeRemove_ended (h : BookFront ⟨.port, .cmdRemove a⟩ rest s) (hrun : s.sys.phase = .running)
    (hc : removeCode s a = some c) : exec .bookTakeRemove s = .next (bookCmdEnded .remove a c (bookTaken rest s)) := by
  have hheld : removeCode (bookHeld ⟨.port, .cmdRemove a⟩ rest s) a = some c := hc
  rw [exec_bookTakeRemove h, takeRemove_eq, hheld]
  exact congrArg Host.Outcome.next (endBookCmd_running (s := bookHeld _ rest s) hrun ..)

theorem bookTakeRemove_placed (h : BookFront ⟨.port, .cmdRemove a⟩ rest s) (hlist : ListOpen s) (hc : removeCode s a = none) :
    exec .bookTakeRemove s = .next (listed ⟨.bookRemove, .removal (.account a)⟩ (bookHeld ⟨.port, .cmdRemove a⟩ rest s)) := by
  have hheld : removeCode (bookHeld ⟨.port, .cmdRemove a⟩ rest s) a = none := hc
  rw [exec_bookTakeRemove h, takeRemove_eq, hheld]
  exact congrArg Host.Outcome.next (placeRemoval_room hlist.1 hlist.2 nofun)

theorem exec_bookTakeClearFlags (h : BookFront ⟨.port, .cmdClear a⟩ rest s) :
    exec .bookTakeClearFlags s = .next (takeClear a (bookHeld ⟨.port, .cmdClear a⟩ rest s)) :=
  congrArg Host.Outcome.next (takeBook_front (f := takeClearCmd) h.1 h.2 rfl)

theorem bookTakeClearFlags_ended (h : BookFront ⟨.port, .cmdClear a⟩ rest s) (hrun : s.sys.phase = .running)
    (hc : cmdStateCode s a = some c) : exec .bookTakeClearFlags s = .next (bookCmdEnded .clearFlags a c (bookTaken rest s)) := by
  have hheld : cmdStateCode (bookHeld ⟨.port, .cmdClear a⟩ rest s) a = some c := hc
  rw [exec_bookTakeClearFlags h]
  simp only [takeClear, hheld]
  exact congrArg Host.Outcome.next (endBookCmd_running (s := bookHeld _ rest s) hrun ..)

theorem bookTakeClearFlags_open (h : BookFront ⟨.port, .cmdClear a⟩ rest s) (ha : accountOf s a = some acc) (ho : acc.state = .opened) :
    exec .bookTakeClearFlags s = .next (if acc.saturated
      then placeGroup .bookClear [.account a .clearFlags] (bookHeld ⟨.port, .cmdClear a⟩ rest s)
      else endBookCmd .clearFlags a .done (bookHeld ⟨.port, .cmdClear a⟩ rest s)) := by
  have hcode : cmdStateCode (bookHeld ⟨.port, .cmdClear a⟩ rest s) a = none := cmdStateCode_opened (s := bookHeld _ rest s) ha ho
  have hacct : accountOf (bookHeld ⟨.port, .cmdClear a⟩ rest s) a = some acc := ha
  rw [exec_bookTakeClearFlags h]
  simp only [takeClear, hcode, hacct]

end

/-! ### The ends of the commits (R37 to R40) -/

section
variable {s : State} {a : Nat}

/-- R37: the new record stands in the table, with the write count of its CURRENT copy. -/
theorem takeAccount_create (h : accountOf s a = none) (f : Int) : takeAccount a (.create f) s = s.onBook fun b => { b with
    accounts := putAccount { newAccount a f with writes := currentCount s.store (.account a) } b.accounts } := by
  simp only [takeAccount, h, Option.getD_none, applyAcct]
  rfl

/-- R37: the new record stands in the table, and OPENED is in the send queue. -/
theorem openMade (h : accountOf s a = none) (hline : LineOpen s) (f : Int) : placeOpened a (takeAccount a (.create f) s) =
    queued (newMsg .notice 0 0 (.opened a) .book 0) (s.onBook fun b => { b with
      accounts := putAccount { newAccount a f with writes := currentCount s.store (.account a) } b.accounts }) := by
  rw [takeAccount_create h]
  exact placeOpened_line (s := s.onBook _) hline a

/-- R37 to R40: a write that is not DONE gives its code to the command, and a store refusal. -/
theorem endBookCmd_refused (hrun : s.sys.phase = .running) (cmd : BookCmd) (a : Nat) (c : PCode) :
    endBookCmd cmd a c (countStoreRefusal s) = bookCmdEnded cmd a c (countStoreRefusal s) :=
  endBookCmd_running (s := countStoreRefusal s) hrun ..

/-- R37 to R40, R50: a commit of a book command that is not DONE. -/
theorem openCommitted_failed {src : Src} {l : Nat} {f : Int} {res : StoreRes} (hrun : s.sys.phase = .running)
    (hhand : s.book.hand = some ⟨src, .cmdOpen a l⟩) (hres : res ≠ .done) :
    openCommitted f res s = bookCmdEnded .openCmd a res.code (countStoreRefusal s) := by
  rw [← endBookCmd_refused hrun]
  cases res with
  | done => exact absurd rfl hres
  | full | fault => simp only [openCommitted, hhand]

theorem openCommitted_done {src : Src} {l : Nat} {f : Int} (hhand : s.book.hand = some ⟨src, .cmdOpen a l⟩) :
    openCommitted f .done s = endBookCmd .openCmd a .done (placeOpened a (takeAccount a (.create f) s)) := by
  simp only [openCommitted, hhand]

theorem openingCommitted_failed {src : Src} {q : Nat} {f : Int} {res : StoreRes} (hhand : s.book.hand = some ⟨src, .localOpen q a⟩)
    (hres : res ≠ .done) :
    openCommitted f res s = openingEnded q (.code res.code) (endBookHand (countStoreRefusal s)) := by
  cases res with
  | done => exact absurd rfl hres
  | full | fault => simp only [openCommitted, hhand]

theorem openingCommitted_done {src : Src} {q : Nat} {f : Int} (hhand : s.book.hand = some ⟨src, .localOpen q a⟩) :
    openCommitted f .done s = openingEnded q .done (endBookHand (placeOpened a (takeAccount a (.create f) s))) := by
  simp only [openCommitted, hhand]

theorem adjustCommitted_failed {src : Src} {v : Int} {res : StoreRes} (hrun : s.sys.phase = .running)
    (hhand : s.book.hand = some ⟨src, .cmdAdjust a v⟩) (hres : res ≠ .done) :
    adjustCommitted res s = bookCmdEnded .adjust a res.code (countStoreRefusal s) := by
  rw [← endBookCmd_refused hrun]
  cases res with
  | done => exact absurd rfl hres
  | full | fault => simp only [adjustCommitted, hhand]

theorem adjustCommitted_done {src : Src} {v : Int} (hhand : s.book.hand = some ⟨src, .cmdAdjust a v⟩) :
    adjustCommitted .done s = endBookCmd .adjust a .done (takeAccount a (.adjust v) s) := by
  simp only [adjustCommitted, hhand]

theorem clearCommitted_failed {src : Src} {res : StoreRes} (hrun : s.sys.phase = .running)
    (hhand : s.book.hand = some ⟨src, .cmdClear a⟩) (hres : res ≠ .done) :
    clearCommitted res s = bookCmdEnded .clearFlags a res.code (countStoreRefusal s) := by
  rw [← endBookCmd_refused hrun]
  cases res with
  | done => exact absurd rfl hres
  | full | fault => simp only [clearCommitted, hhand]

theorem clearCommitted_done {src : Src} (hhand : s.book.hand = some ⟨src, .cmdClear a⟩) :
    clearCommitted .done s = endBookCmd .clearFlags a .done (takeAccount a .clearFlags s) := by
  simp only [clearCommitted, hhand]

theorem removeCommitted_done {src : Src} (hhand : s.book.hand = some ⟨src, .cmdRemove a⟩) :
    removeCommitted s = endBookCmd .remove a .done (s.onBook fun b => { b with accounts := dropAccount a b.accounts }) := by
  simp only [removeCommitted, hhand]

end

/-- Settles O43: by the account's record, then by the command, and at the end by the entry in hand. -/
theorem bookCommandsTaken : Obligations.BookCommandsTaken := by
  intro s rest a hrun hlist
  refine ⟨fun hno => ⟨fun l hfront => ?_, fun q hfront => ?_, fun v hfront => ?_, fun hfront => ?_, fun hfront => ?_⟩,
    fun acc ha => ⟨fun l hfront => ?_, fun q hfront => ?_, fun v hfront => ?_, fun hfront => ?_, fun hfront => ?_⟩, ?_⟩
  · have hend {d c} := bookTakeOpen_ended hfront hrun (d := d) (c := c)
    have hmake {f} := bookTakeOpen_create hfront hlist (f := f)
    exact ⟨fun hl => hend (decideOpen_notActive hno hl l) rfl,
      fun hl hb hfull => hend (decideOpen_bookFull hno hl (floorOf_buyer hb l) hfull) rfl,
      fun hl hb hroom => hmake (decideOpen_create hno hl (floorOf_buyer hb l) hroom),
      fun hl hb hf => hend (decideOpen_notConfigured hno hl hb hf l) rfl,
      fun f hl hb hf => ⟨fun hfull => hend (decideOpen_bookFull hno hl (floorOf_boat hb hf l) hfull) rfl,
        fun hroom => hmake (decideOpen_create hno hl (floorOf_boat hb hf l) hroom)⟩⟩
  · have htold {d r} := bookTakeLocalOpening_told hfront (d := d) (r := r)
    have hmake {f} := bookTakeLocalOpening_create hfront hlist (f := f)
    refine ⟨fun hl => htold (decideOpen_notActive hno hl 0) rfl, fun hl =>
      ⟨fun hb hf => htold (decideOpen_notConfigured hno hl hb hf 0) rfl, fun hbf hfull => ?_,
        fun hb hroom => hmake (decideOpen_create hno hl (floorOf_buyer hb 0) hroom),
        fun f hb hf hroom => hmake (decideOpen_create hno hl (floorOf_boat hb hf 0) hroom)⟩⟩
    obtain ⟨f, hf⟩ : ∃ f, floorOf s a 0 = some f := by
      cases hb : isBoat a with
      | false => exact ⟨_, floorOf_buyer hb 0⟩
      | true =>
        obtain ⟨f, hf⟩ := Option.ne_none_iff_exists'.1 (hbf.resolve_left (by simp [hb]))
        exact ⟨f, floorOf_boat hb hf 0⟩
    exact htold (decideOpen_bookFull hno hl hf hfull) rfl
  · exact bookTakeAdjust_ended hfront hrun (cmdStateCode_noAccount hno)
  · exact bookTakeRemove_ended hfront hrun (by simp [removeCode, hno])
  · exact bookTakeClearFlags_ended hfront hrun (cmdStateCode_noAccount hno)
  · have hend {d c} := bookTakeOpen_ended hfront hrun (d := d) (c := c)
    exact ⟨fun hst => hend (decideOpen_opened ha hst l) rfl, fun hst => hend (decideOpen_yielding ha hst l) rfl,
      fun h hst => hend (decideOpen_moved ha hst l) rfl⟩
  · have htold {d r} := bookTakeLocalOpening_told hfront (d := d) (r := r)
    exact ⟨fun hst => htold (decideOpen_opened ha hst 0) rfl, fun hst => htold (decideOpen_yielding ha hst 0) rfl,
      fun h hst => htold (decideOpen_moved ha hst 0) rfl⟩
  · exact ⟨fun hst => bookTakeAdjust_open hfront hlist (cmdStateCode_opened ha hst),
      fun hst => bookTakeAdjust_ended hfront hrun (cmdStateCode_yielding ha hst),
      fun h hst => bookTakeAdjust_ended hfront hrun (cmdStateCode_moved ha hst)⟩
  · exact ⟨fun hst hr => bookTakeRemove_placed hfront hlist (removeCode_removable ha hst hr),
      fun hst hr => bookTakeRemove_ended hfront hrun (removeCode_notEmpty ha hst hr),
      fun hst => bookTakeRemove_ended hfront hrun (removeCode_yielding ha hst),
      fun h hst => bookTakeRemove_placed hfront hlist (removeCode_moved ha hst)⟩
  · refine ⟨fun hst hsat => ?_, fun hst hsat => ?_, fun hst => bookTakeClearFlags_ended hfront hrun (cmdStateCode_yielding ha hst),
      fun h hst => bookTakeClearFlags_ended hfront hrun (cmdStateCode_moved ha hst)⟩
    · rw [bookTakeClearFlags_open hfront ha hst, hsat]
      exact congrArg Host.Outcome.next (placeGroup_room hlist.1 hlist.2 nofun)
    · rw [bookTakeClearFlags_open hfront ha hst, hsat]
      exact congrArg Host.Outcome.next (endBookCmd_running (s := bookHeld _ rest s) hrun ..)
  · intro inHand writes table refused fails opened free
    refine ⟨fun l f hhand => ⟨fun i => ⟨?_, ?_⟩, fun hno hline => ?_⟩,
      fun q f hhand => ⟨fun i => ⟨?_, ?_⟩, fun hno hline => ?_⟩, fun hhand r => ?_,
      fun acc v ha hhand => ⟨fun i => ⟨?_, ?_⟩, ?_⟩, fun acc ha hhand => ⟨fun i => ⟨?_, ?_⟩, ?_⟩⟩
    · exact openCommitted_failed hrun hhand nofun
    · exact openCommitted_failed hrun hhand nofun
    · refine (openCommitted_done hhand).trans ?_
      rw [openMade hno hline, endBookCmd_running (s := queued _ (s.onBook _)) hrun]
      rfl
    · exact openingCommitted_failed hhand nofun
    · exact openingCommitted_failed hhand nofun
    · refine (openingCommitted_done hhand).trans ?_
      rw [openMade hno hline]
      rfl
    · exact (removeCommitted_done hhand).trans (endBookCmd_running (s := s.onBook _) hrun ..)
    · exact adjustCommitted_failed (res := .full i) hrun hhand nofun
    · exact adjustCommitted_failed (res := .fault i) hrun hhand nofun
    · refine (adjustCommitted_done hhand).trans ?_
      rw [takeAccount_of_account ha]
      exact endBookCmd_running (s := s.onBook _) hrun ..
    · exact clearCommitted_failed (res := .full i) hrun hhand nofun
    · exact clearCommitted_failed (res := .fault i) hrun hhand nofun
    · refine (clearCommitted_done hhand).trans ?_
      rw [takeAccount_of_account ha]
      exact endBookCmd_running (s := s.onBook _) hrun ..

end Sys2Proof.Machine
end

section
/-! The book's waits, and the end of a yield (O44). -/

namespace Sys2Proof.Machine
open Sys2Proof

/-! ### The waiting requests and the lifetimes of holds (R22, R44) -/

section
variable {s : State}

theorem bookPlaceWaiting_room {r : BookReq} {rest : List BookReq} (hwait : s.book.wait = r :: rest) (hroom : s.book.queue.length < 16) :
    bookPlaceWaiting s = bookEnter r ((if isHandOver r then countSend s else s).onBook fun b => { b with wait := rest }) := by
  simp only [bookPlaceWaiting, hwait, hroom, if_true]

variable {k : Ident} {h : Hold}

theorem holdSecond_early (hk : findHold s.book.holds k = some h) (hms : h.ms < 1000) : holdSecond k s = s := by
  simp only [holdSecond, hk, hms, if_true]

theorem holdSecond_last (hk : findHold s.book.holds k = some h) (hms : 1000 ≤ h.ms) (hlife : h.life ≤ 1) : holdSecond k s =
    s.onBook fun b => { b with holds := dropHold k b.holds, cnt := { b.cnt with lapsedHolds := bump b.cnt.lapsedHolds } } := by
  simp only [holdSecond, hk, Nat.not_lt.2 hms, if_false, hlife, if_true]

theorem holdSecond_later (hk : findHold s.book.holds k = some h) (hms : 1000 ≤ h.ms) (hlife : 1 < h.life) : holdSecond k s =
    s.onBook fun b => { b with holds := b.holds.map fun x =>
      if x.key = k then { x with life := x.life - 1, ms := x.ms - 1000 } else x } := by
  simp only [holdSecond, hk, Nat.not_lt.2 hms, if_false, Nat.not_le.2 hlife]

end

/-! ### The book's yields -/

section
variable {s : State} {y : Yield}

theorem yieldOf_setYield (y : Yield) (s : State) : yieldOf (setYield y s) y.acct = some y := by
  have hnone : (s.book.yields.filter fun x => x.acct != y.acct).find? (fun x => x.acct == y.acct) = none :=
    List.find?_eq_none.2 fun x hx => by simpa using (List.mem_filter.1 hx).2
  simp [yieldOf, setYield, State.onBook, List.find?_append, hnone]

theorem setYield_setYield {z : Yield} (h : z.acct = y.acct) : setYield y (setYield z s) = setYield y s := by
  simp [setYield, State.onBook, h, List.filter_append, List.filter_filter]

/-- R47, R50: holds dropped or lost are counted, and HOLD_DROPPED stands raised if there are any. -/
def holdsDropped (n : Nat) (s : State) : State := { s with
  book := { s.book with cnt := { s.book.cnt with
    droppedHolds := if n = 0 then s.book.cnt.droppedHolds else bumpBy n s.book.cnt.droppedHolds } }
  port := { s.port with flags := if n = 0 then s.port.flags else s.port.flags ||| flagBit .holdDropped } }

theorem dropHolds_running (hrun : s.sys.phase = .running) (n : Nat) : dropHolds n s = holdsDropped n s := by
  cases n with
  | zero => rfl
  | succ n =>
    rw [dropHolds_pos (Nat.succ_pos n) hrun]
    rfl

theorem placeBookState_room (hlist : ListOpen s) (a : Nat) (st : AcctState) :
    placeBookState a st s = listed ⟨.bookState a, .group [.account a (.setState st)]⟩ s :=
  placeGroup_room hlist.1 hlist.2 nofun

theorem finishYield_room (hlist : ListOpen s) (y : Yield) (fin : AcctState) (notify : Bool) : finishYield y fin notify s =
    listed ⟨.bookState y.acct, .group [.account y.acct (.setState fin)]⟩ (setYield { y with stage := .finishing fin notify } s) :=
  placeBookState_room (s := setYield _ s) hlist ..

end

/-! ### The TRANSFER's outcome (R47) -/

section
variable {s : State} {y : Yield} {a : Nat} {p : Posting}

theorem unitOutcome_transfer {e : Entry} (href : e.ref = .transfer a) (hbody : e.body = .post p) (o : ExcOut) (s : State) :
    unitOutcome e o s = placeOutRemoval e.seq (transferOutcome a p o s) := by
  have hservice : unitInService s (.transfer a) = true := rfl
  simp only [unitOutcome, href, hbody, hservice, Bool.not_true, Bool.false_eq_true, if_false]
  rfl

section
variable (hyield : yieldOf s a = some y) (hstage : y.stage = .running)
include hyield hstage

theorem transferOutcome_dropped (n node : Nat) :
    transferOutcome a p (.answer .done (.dropped n) node) s = finishYield y (.moved node) false (dropHolds n s) := by
  simp [transferOutcome, hyield, hstage]

theorem transferOutcome_repeated (node : Nat) :
    transferOutcome a p (.answer .doneAlready .none node) s = finishYield y (.moved node) false s := by
  simp [transferOutcome, hyield, hstage]

theorem transferOutcome_unknown (node : Nat) :
    transferOutcome a p (.answer .unknown .none node) s = finishYield y .opened true (dropHolds (carriedCount p) s) := by
  simp [transferOutcome, hyield, hstage]

theorem transferOutcome_failed (last : LastAns) : transferOutcome a p (.failed last) s =
    finishYield y .opened false (dropHolds (carriedCount p) (withdrawTransfer a s)) := by
  simp [transferOutcome, hyield, hstage]

end

/-! ### The removal of an OUTBOUND record (R101, R102) -/

variable {e : Entry} {q : Nat}

/-- An entry of the table is found with its new fields. -/
theorem findEntry_putEntry {e' : Entry} (h : findEntry s e'.seq = some e) : findEntry (putEntry e' s) e'.seq = some e' := by
  have hmem : ∃ x ∈ s.exc.entries, x.seq = e'.seq := ⟨e, findEntry_mem h⟩
  have hset : putKeyed (·.seq) 0 e' s.exc.entries = setEntryIn e' s.exc.entries := if_pos (by simpa using hmem)
  have hfind := find_putKeyed_self (size := 0) Entry.seq (.inl hmem)
  rw [hset] at hfind
  exact hfind

theorem placeOutRemoval_absent (h : findEntry s q = none) : placeOutRemoval q s = s := by simp only [placeOutRemoval, h]

theorem placeOutRemoval_removing (h : findEntry s q = some e) (hrem : e.removing = true) : placeOutRemoval q s = s := by
  simp only [placeOutRemoval, h, hrem, if_true]
  split <;> rfl

theorem placeOutRemoval_ended (h : findEntry s q = some e) (hst : e.state = .doneToUnit) (hbody : e.body = .post p)
    (hrem : e.removing = false) (hlist : ListOpen s) : placeOutRemoval q s =
      listed ⟨.outRemoval p.id, .removal (.outbound p.id.epoch p.id.number)⟩ (putEntry { e with removing := true } s) := by
  simp only [placeOutRemoval, h, hst, hbody, hrem, Bool.false_eq_true, if_false]
  exact placeRemoval_room (s := putEntry _ s) hlist.1 hlist.2 nofun

/-- R47, R101: the FAILED TRANSFER is given up, and the removal of its record is placed. -/
theorem withdrawTransfer_failed (hfind : s.exc.entries.find? (fun x => x.ref == .transfer a && x.state == .failed) = some e)
    (he : findEntry s e.seq = some e) (hbody : e.body = .post p) (hrem : e.removing = false) (hlist : ListOpen s) :
    withdrawTransfer a s = listed ⟨.outRemoval p.id, .removal (.outbound p.id.epoch p.id.number)⟩
      (putEntry { e with state := .doneToUnit, deadline := none, tok := 0, removing := true } (giveUpEntry e s)) := by
  have hgiven : findEntry (giveUpEntry e s) e.seq = some { e with state := .doneToUnit, deadline := none, tok := 0 } :=
    findEntry_putEntry (e' := { e with state := .doneToUnit, deadline := none, tok := 0 }) he
  simp only [withdrawTransfer, hfind]
  exact placeOutRemoval_ended hgiven rfl hbody hrem hlist

theorem findEntry_withdrawTransfer (hfind : s.exc.entries.find? (fun x => x.ref == .transfer a && x.state == .failed) = some e)
    (he : findEntry s e.seq = some e) (hbody : e.body = .post p) (hrem : e.removing = false) (hlist : ListOpen s) :
    findEntry (withdrawTransfer a s) e.seq = some { e with state := .doneToUnit, deadline := none, tok := 0, removing := true } := by
  have hgiven : findEntry (giveUpEntry e s) e.seq = some { e with state := .doneToUnit, deadline := none, tok := 0 } :=
    findEntry_putEntry (e' := { e with state := .doneToUnit, deadline := none, tok := 0 }) he
  rw [withdrawTransfer_failed hfind he hbody hrem hlist]
  exact findEntry_putEntry (e' := { e with state := .doneToUnit, deadline := none, tok := 0, removing := true }) hgiven

/-- R47, R101: a TRANSFER that FAILED is withdrawn, its holds are counted as dropped, and the account is committed OPEN. The removal
placed with the withdrawal is the only one. -/
theorem unitOutcome_transferFailed (hyield : yieldOf s a = some y) (hstage : y.stage = .running) (href : e.ref = .transfer a)
    (hbody : e.body = .post p) (hfind : s.exc.entries.find? (fun x => x.ref == .transfer a && x.state == .failed) = some e)
    (he : findEntry s e.seq = some e) (hrem : e.removing = false) (herasing : s.store.erasing = none)
    (hlen : s.store.list.length + s.store.pend.length < 7) (hrun : s.sys.phase = .running) (last : LastAns) :
    unitOutcome e (.failed last) s = listed ⟨.bookState y.acct, .group [.account y.acct (.setState .opened)]⟩
      (setYield { y with stage := .finishing .opened false } (holdsDropped (carriedCount p) (withdrawTransfer a s))) := by
  have hlist : ListOpen s := ⟨herasing, by simp only [listRoom, decide_eq_true_eq]; omega⟩
  have hw := withdrawTransfer_failed hfind he hbody hrem hlist
  have hgone := findEntry_withdrawTransfer hfind he hbody hrem hlist
  have hrun' : (withdrawTransfer a s).sys.phase = .running := by rw [hw]; exact hrun
  have hlist' : ListOpen (withdrawTransfer a s) := by
    rw [hw]
    refine ⟨herasing, ?_⟩
    have hone (r : Request) : (s.store.list ++ [r]).length + s.store.pend.length < 8 := by
      rw [List.length_append, List.length_singleton]; omega
    exact decide_eq_true (hone _)
  rw [unitOutcome_transfer href hbody, transferOutcome_failed hyield hstage, dropHolds_running hrun',
    finishYield_room (s := holdsDropped _ (withdrawTransfer a s)) hlist']
  exact placeOutRemoval_removing (s := listed _ (setYield _ (holdsDropped _ (withdrawTransfer a s)))) hgone rfl

end

/-! ### The TRANSFER asked for again (R46) -/

section
variable {s : State} {y : Yield} {a n : Nat} {p : Posting}

theorem takeCreate_exhausted {ref : Ref} (hopen : openPlaces s.exc ≠ 0) (hepoch : s.sys.epochState = .exhausted) :
    takeCreate (onePost ref p n) s = (s, .refused .epochExhausted) := by
  simp [takeCreate, onePost, CreateReq.numbered, hopen, hepoch]

theorem takeCreate_notTaken {ref : Ref} (hopen : openPlaces s.exc ≠ 0) (hepoch : s.sys.epochState = .notTaken) :
    takeCreate (onePost ref p n) s = (s, .refused .storeFault) := by
  simp [takeCreate, onePost, CreateReq.numbered, hopen, hepoch]

theorem transferRefused_exhausted (hyield : yieldOf s a = some y) :
    transferRefused a .epochExhausted s = placeBookState a .opened (setYield { y with stage := .reopening } s) := by
  simp [transferRefused, hyield]

theorem transferRefused_waits {c : AskRefusal} (hyield : yieldOf s a = some y) (hc : c ≠ .epochExhausted) :
    transferRefused a c s = setYield { y with stage := .askWait 1000 } s := by
  cases c with
  | epochExhausted => exact absurd rfl hc
  | badDestination | storeFull | storeFault => simp only [transferRefused, hyield]

/-- R46: at EPOCH EXHAUSTED the account is committed OPEN. -/
theorem askTransfer_exhausted (hopen : openPlaces s.exc ≠ 0) (hepoch : s.sys.epochState = .exhausted) (y : Yield) :
    askTransfer y s = placeBookState y.acct .opened (setYield { y with stage := .reopening } s) := by
  have htake := takeCreate_exhausted (s := setYield { y with stage := .asking } s) (ref := .transfer y.acct)
    (p := ⟨default, .transfer, y.acct, 0, [], none, none⟩) (n := y.target) hopen hepoch
  simp only [askTransfer, transferReq_eq_onePost, htake]
  exact (transferRefused_exhausted (yieldOf_setYield _ s)).trans (congrArg (placeBookState y.acct .opened) (setYield_setYield rfl))

/-- R46: any other refusal is waited out for 1,000 ms. -/
theorem askTransfer_notTaken (hopen : openPlaces s.exc ≠ 0) (hepoch : s.sys.epochState = .notTaken) (y : Yield) :
    askTransfer y s = setYield { y with stage := .askWait 1000 } s := by
  have htake := takeCreate_notTaken (s := setYield { y with stage := .asking } s) (ref := .transfer y.acct)
    (p := ⟨default, .transfer, y.acct, 0, [], none, none⟩) (n := y.target) hopen hepoch
  simp only [askTransfer, transferReq_eq_onePost, htake]
  exact (transferRefused_waits (c := .storeFault) (yieldOf_setYield _ s) nofun).trans (setYield_setYield rfl)

/-- R46, R93: the OUTBOUND write of the TRANSFER's creation failed. -/
theorem excWorkEnded_transferRefused {res : StoreRes} (hwork : s.exc.work = some (.create (transferReq a n) [p])) (hjobs : s.exc.jobs = [])
    (hyield : yieldOf s a = some y) (hres : res = .full 0 ∨ res = .fault 0) :
    excWorkEnded res s = setYield { y with stage := .askWait 1000 } (s.onExc fun x => { x with work := none }) := by
  have hrefused : createEnded (transferReq a n) [p] res (s.onExc fun x => { x with work := none }) =
      transferRefused a res.refusal (s.onExc fun x => { x with work := none }) := by
    obtain rfl | rfl := hres <;> rfl
  have hcode : res.refusal ≠ .epochExhausted := by obtain rfl | rfl := hres <;> nofun
  have hwaits := transferRefused_waits (s := s.onExc fun x => { x with work := none }) hyield hcode
  simp only [excWorkEnded, hwork]
  rw [hrefused, hwaits]
  exact runJobs_idle _ hjobs

/-! ### The retries of a yield, and the ends of its commits (R46, R47) -/

theorem yieldRetry_reopenWait (hyield : yieldOf s a = some y) (hstage : y.stage = .reopenWait 0) :
    yieldRetry a s = placeBookState a .opened (setYield { y with stage := .reopening } s) := by
  simp only [yieldRetry, hyield, hstage]

theorem yieldRetry_askWait (hyield : yieldOf s a = some y) (hstage : y.stage = .askWait 0) : yieldRetry a s = askTransfer y s := by
  simp only [yieldRetry, hyield, hstage]

theorem bookStateRetry_finishWait {fin : AcctState} {notify : Bool} (hyield : yieldOf s a = some y)
    (hstage : y.stage = .finishWait fin notify 0) : bookStateRetry a s = finishYield y fin notify s := by
  simp only [bookStateRetry, hyield, hstage]

theorem bookStateEnded_reopened (hyield : yieldOf s a = some y) (hstage : y.stage = .reopening) :
    bookStateEnded a .done s = dropYield a (takeAccount a (.setState .opened) s) := by
  simp only [bookStateEnded, hyield, hstage]

theorem bookStateEnded_reopenFailed {res : StoreRes} (hyield : yieldOf s a = some y) (hstage : y.stage = .reopening)
    (hres : res ≠ .done) : bookStateEnded a res s = countStoreRefusal (setYield { y with stage := .reopenWait 1000 } s) := by
  cases res with
  | done => exact absurd rfl hres
  | full | fault => simp only [bookStateEnded, hyield, hstage]

theorem bookStateEnded_finished {fin : AcctState} {notify : Bool} (hyield : yieldOf s a = some y)
    (hstage : y.stage = .finishing fin notify) : bookStateEnded a .done s = if notify
      then notifyOpened y (dropYield a (takeAccount a (.setState fin) s)) else dropYield a (takeAccount a (.setState fin) s) := by
  simp only [bookStateEnded, hyield, hstage]

theorem bookStateEnded_finishFailed {fin : AcctState} {notify : Bool} {res : StoreRes} (hyield : yieldOf s a = some y)
    (hstage : y.stage = .finishing fin notify) (hres : res ≠ .done) :
    bookStateEnded a res s = countStoreRefusal (setYield { y with stage := .finishWait fin notify 1000 } s) := by
  cases res with
  | done => exact absurd rfl hres
  | full | fault => simp only [bookStateEnded, hyield, hstage]

/-- R45, R47: an account that another node claimed is told of at once. -/
theorem notifyOpened_line (htarget : y.target ≠ 0) (hline : LineOpen s) :
    notifyOpened y s = queued (newMsg .notice 0 0 (.opened y.acct) .book 0) s := by
  rw [notifyOpened, if_neg (by simp [htarget])]
  exact placeOpened_line hline _

end

/-- Settles O44: event by event; a yield by its stage. -/
theorem bookWaits : Obligations.BookWaits := by
  intro s
  refine ⟨fun r rest hwait hroom => ?_, fun k h hk hms => ⟨fun hlife => ?_, fun hlife => ?_⟩,
    fun k h hk hms => congrArg Host.Outcome.next (holdSecond_early hk hms), fun a y hyield ha hlist => ?_,
    fun a y e p node hyield ha hstage href hbody hnone hlist hrun => ?_,
    fun a y e p last hyield ha hstage href hbody hfind he hrem herasing hlen hrun => ?_,
    fun a y hyield ha => ?_, fun a y acc fin notify hyield ha hstage hacct => ?_⟩
  · refine congrArg Host.Outcome.next ((bookPlaceWaiting_room hwait hroom).trans ?_)
    cases hand : isHandOver r <;> rfl
  · exact congrArg Host.Outcome.next (holdSecond_last hk hms hlife)
  · exact congrArg Host.Outcome.next (holdSecond_later hk hms hlife)
  · subst ha
    refine ⟨fun hstage => congrArg Host.Outcome.next ((yieldRetry_reopenWait hyield hstage).trans ?_),
      fun fin notify hstage => congrArg Host.Outcome.next ((bookStateRetry_finishWait hyield hstage).trans ?_)⟩
    · exact placeBookState_room (s := setYield _ s) hlist ..
    · exact finishYield_room hlist ..
  · subst ha
    intro finishing
    have hfinish {fin : AcctState} {notify : Bool} {n : Nat} {out : ExcOut}
        (hout : transferOutcome y.acct p out s = finishYield y fin notify (dropHolds n s)) : finishing fin notify n out := by
      rw [dropHolds_running hrun, finishYield_room (s := holdsDropped n s) hlist] at hout
      have hu := unitOutcome_transfer href hbody out s
      rw [hout, placeOutRemoval_absent (s := listed _ (setYield _ (holdsDropped n s))) hnone] at hu
      simp only [finishing, hu]
      exact ⟨rfl, rfl, rfl, rfl, rfl⟩
    exact ⟨fun n => hfinish (transferOutcome_dropped hyield hstage n node),
      hfinish (n := 0) (transferOutcome_repeated hyield hstage node), hfinish (transferOutcome_unknown hyield hstage node)⟩
  · subst ha
    have hlist : ListOpen s := ⟨herasing, by simp only [listRoom, decide_eq_true_eq]; omega⟩
    intro dropped u
    have hu : u = _ := unitOutcome_transferFailed hyield hstage href hbody hfind he hrem herasing hlen hrun last
    have hgone := findEntry_withdrawTransfer hfind he hbody hrem hlist
    rw [hu]
    refine ⟨hgone, ?_⟩
    rw [withdrawTransfer_failed hfind he hbody hrem hlist]
    exact ⟨List.append_assoc .., rfl, rfl, rfl, rfl⟩
  · subst ha
    intro staged
    refine ⟨fun hstage hopen => ⟨fun hready hlist => ?_, fun hepoch hlist => ?_, fun hepoch => ?_⟩,
      fun p res hstage hwork hjobs hres => ?_, fun hstage => ⟨fun acc hacct => ?_, fun r hr => ?_⟩⟩
    · exact congrArg Host.Outcome.next ((yieldRetry_askWait hyield hstage).trans (askTransfer_ready hready hlist y))
    · exact congrArg Host.Outcome.next ((yieldRetry_askWait hyield hstage).trans ((askTransfer_exhausted hopen hepoch y).trans
        (placeBookState_room (s := setYield _ s) hlist ..)))
    · exact congrArg Host.Outcome.next ((yieldRetry_askWait hyield hstage).trans (askTransfer_notTaken hopen hepoch y))
    · exact excWorkEnded_transferRefused hwork hjobs hyield hres
    · refine (bookStateEnded_reopened hyield hstage).trans ?_
      rw [takeAccount_of_account hacct]
      rfl
    · exact bookStateEnded_reopenFailed hyield hstage hr
  · subst ha
    have htake := takeAccount_of_account hacct (.setState fin)
    have hend := bookStateEnded_finished hyield hstage
    rw [htake] at hend
    refine ⟨fun hn => ?_, fun hn htarget hline => ?_, fun n hfin => ?_, fun r hr => bookStateEnded_finishFailed hyield hstage hr⟩
    · exact hend.trans (if_neg (by simp [hn]))
    · exact (hend.trans (if_pos hn)).trans (notifyOpened_line (s := dropYield _ _) htarget hline)
    · subst hfin
      rfl

end Sys2Proof.Machine
end

section
/-! The choice of copies at start-up (O14). -/

namespace Sys2Proof.Machine
open Sys2Proof

/-- R66: `best` is the slot and the write count of the newest candidate of a record among some slots. -/
def IsBest (k : RecKey) (xs : List Slot) : Option (Nat × Nat) → Prop
  | none => ∀ (j : Nat) (z : Slot) (d : Copy), xs[j]? = some z → candidate z = some d → d.key ≠ k
  | some (i, w) => (∃ x c, xs[i]? = some x ∧ candidate x = some c ∧ c.key = k ∧ c.wc = w) ∧
      ∀ (j : Nat) (z : Slot) (d : Copy), xs[j]? = some z → candidate z = some d → d.key = k → d.wc < w ∨ (d.wc = w ∧ i ≤ j)

section
variable {k : RecKey} {pre : List Slot} {x : Slot}

/-- A slot behind others is one of those, or the last. -/
theorem getElem?_append_singleton_cases {j : Nat} {z : Slot} (h : (pre ++ [x])[j]? = some z) :
    pre[j]? = some z ∨ (j = pre.length ∧ z = x) := by
  rw [List.getElem?_append] at h
  split at h
  · exact .inl h
  · obtain ⟨hj, hz⟩ := List.getElem?_eq_some_iff.1 h
    rw [List.length_singleton] at hj
    exact .inr ⟨by omega, by simpa using hz.symm⟩

/-- One slot more, which holds no candidate of the record. -/
theorem IsBest.skip {best : Option (Nat × Nat)} (h : IsBest k pre best) (hx : ∀ c, candidate x = some c → c.key ≠ k) :
    IsBest k (pre ++ [x]) best := by
  match best with
  | none =>
    intro j z d hz hd
    obtain hz | ⟨-, rfl⟩ := getElem?_append_singleton_cases hz
    · exact h j z d hz hd
    · exact hx d hd
  | some (i, w) =>
    obtain ⟨⟨y, c, hy, hc⟩, hmax⟩ := h
    refine ⟨⟨y, c, ?_, hc⟩, fun j z d hz hd hk => ?_⟩
    · rw [List.getElem?_append_left (List.getElem?_eq_some_iff.1 hy).1, hy]
    · obtain hz | ⟨-, rfl⟩ := getElem?_append_singleton_cases hz
      · exact hmax j z d hz hd hk
      · exact absurd hk (hx d hd)

/-- One slot more, with a candidate of the record that is newer than those before it. -/
theorem IsBest.take {c : Copy} (hx : candidate x = some c) (hkey : c.key = k)
    (hold : ∀ (j : Nat) (z : Slot) (d : Copy), pre[j]? = some z → candidate z = some d → d.key = k → d.wc < c.wc) :
    IsBest k (pre ++ [x]) (some (pre.length, c.wc)) := by
  refine ⟨⟨x, c, by simp, hx, hkey, rfl⟩, fun j z d hz hd hk => ?_⟩
  obtain hz | ⟨rfl, rfl⟩ := getElem?_append_singleton_cases hz
  · exact .inl (hold j z d hz hd hk)
  · obtain rfl := Option.some.inj (hx.symm.trans hd)
    exact .inr ⟨rfl, le_rfl⟩

/-- One slot more, with a candidate of the record that is not newer than the best. -/
theorem IsBest.keep {c : Copy} {i w : Nat} (h : IsBest k pre (some (i, w))) (hx : candidate x = some c) (hw : c.wc ≤ w) :
    IsBest k (pre ++ [x]) (some (i, w)) := by
  obtain ⟨⟨y, d, hy, hd⟩, hmax⟩ := h
  have hi := (List.getElem?_eq_some_iff.1 hy).1
  refine ⟨⟨y, d, by rw [List.getElem?_append_left hi, hy], hd⟩, fun j z e hz he hk => ?_⟩
  obtain hz | ⟨rfl, rfl⟩ := getElem?_append_singleton_cases hz
  · exact hmax j z e hz he hk
  · obtain rfl := Option.some.inj (hx.symm.trans he)
    omega

end

/-- The search goes on with the best of the slots passed. -/
theorem isBest_bestCopy (k : RecKey) (xs pre : List Slot) (best : Option (Nat × Nat)) (h : IsBest k pre best) :
    IsBest k (pre ++ xs) (bestCopy k xs pre.length best) := by
  induction xs generalizing pre best with
  | nil => simpa [bestCopy] using h
  | cons x xs ih =>
    have hstep := ih (pre ++ [x]) ?_ ?_
    · rwa [List.append_assoc, List.singleton_append, List.length_append, List.length_singleton] at hstep
    match hx : candidate x, best with
    | none, best => exact h.skip fun c hc => by simp [hx] at hc
    | some c, none =>
      dsimp only
      by_cases hk : c.key = k
      · rw [if_pos hk]
        exact .take hx hk fun j z d hz hd hkd => absurd hkd (h j z d hz hd)
      · rw [if_neg hk]
        exact h.skip fun d hd => by rwa [← Option.some.inj (hx.symm.trans hd)]
    | some c, some (i, w) =>
      dsimp only
      by_cases hk : c.key = k ∧ w < c.wc
      · rw [if_pos hk]
        refine .take hx hk.1 fun j z d hz hd hkd => ?_
        have := h.2 j z d hz hd hkd
        omega
      · rw [if_neg hk]
        by_cases hkey : c.key = k
        · exact h.keep hx (by simpa [hkey] using hk)
        · exact h.skip fun d hd => by rwa [← Option.some.inj (hx.symm.trans hd)]

/-- A slot is the best of its record exactly when its candidate is the newest, in the lowest-numbered slot among equals. -/
theorem isBest_slot_iff {k : RecKey} {xs : List Slot} {best : Option (Nat × Nat)} (h : IsBest k xs best) {i : Nat} {x : Slot} {c : Copy}
    (hx : xs[i]? = some x) (hc : candidate x = some c) (hk : c.key = k) :
    best.map (·.1) = some i ↔ ∀ (j : Nat) (z : Slot) (d : Copy), xs[j]? = some z → candidate z = some d → d.key = k →
      d.wc < c.wc ∨ (d.wc = c.wc ∧ i ≤ j) := by
  match best with
  | none => exact absurd hk (h i x c hx hc)
  | some (i', w) =>
    obtain ⟨⟨y, d, hy, hd, hdk, rfl⟩, hmax⟩ := h
    constructor
    · intro hi
      obtain rfl : i' = i := by simpa using hi
      obtain rfl := Option.some.inj (hx.symm.trans hy)
      obtain rfl := Option.some.inj (hc.symm.trans hd)
      exact hmax
    · intro hall
      have h1 := hall i' y d hy hd hdk
      have h2 := hmax i x c hx hc hk
      have : i' = i := by omega
      simp [this]

/-- Settles O14: the search for the best copy keeps the best of the slots that it has passed. -/
theorem scanChoosesNewest : Obligations.ScanChoosesNewest := by
  intro xs i x c hx hc hst ys
  have hbest : IsBest c.key xs (bestCopy c.key xs 0 none) := isBest_bestCopy c.key xs [] none (by simp [IsBest])
  rw [← isBest_slot_iff hbest hx hc rfl]
  have hy : ys[i]? = some (if (bestCopy c.key xs 0 none).map (·.1) = some i then { x with state := .current } else x) := by
    simp [ys, chooseCopies, List.getElem?_mapIdx, hx, hc]
  rw [hy]
  split
  next hi => simp [hi]
  next hi => simp [hi, hst]

end Sys2Proof.Machine
end

section
/-! The STORE's operations, one rule each: a request taken and ended, a record write, a removal, the erasure (R52, R54, R55, R58, R59, R70). -/

namespace Sys2Proof.Machine
open Sys2Proof

/-! ### A request taken, and a request ended (R54, R58, R61) -/

/-- R54: the request has left the list, and no operation is in progress. -/
def requestEnded (s : State) : State := { s with store := { s.store with
  cur := none, listed := false, idx := 0, op := none, list := s.store.list.tail } }

/-- R54: the request at the front of the list is in progress, at its first write. -/
def requestTaken (r : Request) (s : State) : State := s.onStore fun st => { st with cur := some r, listed := true, idx := 0 }

/-- R60: the copy that a slot holds is written again, which is no request of the list; `rest` are the slots still due. -/
def refreshTaken (rest : List Nat) (c : Copy) (s : State) : State := s.onStore fun st => { st with
  refresh := rest, cur := some ⟨.refresh, .group [.refresh c]⟩, listed := false, idx := 0 }

/-- R58, R61: STORE FULL is counted, and STORE_EVENT raised. -/
def fullCounted (s : State) : State := flagged .storeEvent { s with store := { s.store with
  cnt := { s.store.cnt with storeFull := bump s.store.cnt.storeFull } } }

/-- R58, R61: STORE FAULT is counted, and STORE_EVENT raised. -/
def faultCounted (s : State) : State := flagged .storeEvent { s with store := { s.store with
  cnt := { s.store.cnt with storeFaults := bump s.store.cnt.storeFaults } } }

section
variable {s : State} {r : Request} {ws : List RecWrite} {w : RecWrite} {k : RecKey} {i n : Nat}

theorem countResult_full (hrun : s.sys.phase = .running) (i : Nat) : countResult (.full i) s = fullCounted s := raise_running _ _ hrun

theorem countResult_fault (hrun : s.sys.phase = .running) (i : Nat) : countResult (.fault i) s = faultCounted s := raise_running _ _ hrun

theorem deliver_endRequest (hcur : s.store.cur = some r) (hlisted : s.store.listed = true) (res : StoreRes) :
    deliver (endRequest res s) = storeOutcome r.owner res (countResult res (requestEnded s)) := by
  simp only [endRequest, hlisted, hcur, if_true, deliver, Option.map_some]
  rfl

theorem deliver_endRequest_done (hcur : s.store.cur = some r) (hlisted : s.store.listed = true) :
    deliver (endRequest .done s) = storeOutcome r.owner .done (requestEnded s) := deliver_endRequest hcur hlisted .done

theorem deliver_endRequest_full (hcur : s.store.cur = some r) (hlisted : s.store.listed = true) (hrun : s.sys.phase = .running) (i : Nat) :
    deliver (endRequest (.full i) s) = storeOutcome r.owner (.full i) (fullCounted (requestEnded s)) := by
  rw [deliver_endRequest hcur hlisted, countResult_full (s := requestEnded s) hrun]

theorem deliver_endRequest_fault (hcur : s.store.cur = some r) (hlisted : s.store.listed = true) (hrun : s.sys.phase = .running) (i : Nat) :
    deliver (endRequest (.fault i) s) = storeOutcome r.owner (.fault i) (faultCounted (requestEnded s)) := by
  rw [deliver_endRequest hcur hlisted, countResult_fault (s := requestEnded s) hrun]

/-! ### One record write (R55, R58) -/

/-- R55: what the step `o` is, that has attempt `n` of write `w` of the request `r` begin in `u`. -/
def WriteBegins (o : Host.Outcome State Fault Refusal) (r : Request) (n : Nat) (w : RecWrite) (u : State) : Prop :=
  (4294967295 ≤ currentCount u.store (writeKey w) →
    o = .next (storeOutcome r.owner (.fault u.store.idx) (faultCounted (requestEnded u)))) ∧
  (currentCount u.store (writeKey w) < 4294967295 →
    (∀ i, lowest isFree u.store = some i → o = .next (setOp (.write i (composeCopy u w) n) u)) ∧
    (∀ i, lowest isFree u.store = none → lowest isDirty u.store = some i → o = .next (setOp (.erase i .room n) u)) ∧
    (lowest isFree u.store = none → lowest isDirty u.store = none →
      o = .next (storeOutcome r.owner (.full u.store.idx) (fullCounted (requestEnded u)))))

theorem beginWrite_free (hcount : currentCount s.store (writeKey w) < 4294967295) (hfree : lowest isFree s.store = some i) :
    beginWrite n w s = (setOp (.write i (composeCopy s w) n) s, none) := by
  simp [beginWrite, Nat.not_le.2 hcount, hfree]

theorem writeBegins_beginWrite (hcur : s.store.cur = some r) (hlisted : s.store.listed = true) (hrun : s.sys.phase = .running)
    (n : Nat) (w : RecWrite) : WriteBegins (.next (deliver (beginWrite n w s))) r n w s := by
  refine ⟨fun hpast => ?_, fun hcount => ⟨fun i hfree => ?_, fun i hfree hdirty => ?_, fun hfree hdirty => ?_⟩⟩
  · rw [beginWrite, if_pos hpast, deliver_endRequest_fault hcur hlisted hrun]
  · rw [beginWrite_free hcount hfree]
    rfl
  · simp only [beginWrite, Nat.not_le.2 hcount, if_false, hfree, hdirty]
    rfl
  · simp only [beginWrite, Nat.not_le.2 hcount, if_false, hfree, hdirty]
    rw [deliver_endRequest_full hcur hlisted hrun]

theorem currentWrite_group (hcur : s.store.cur = some r) (hwork : r.work = .group ws) : currentWrite s = ws[s.store.idx]? := by
  obtain ⟨o, _⟩ := r
  subst hwork
  simp only [currentWrite, hcur]

theorem nextWrite_some (hw : currentWrite s = some w) : nextWrite n s = beginWrite n w s := by simp only [nextWrite, hw]

/-- R54, R55: the write at which its group has arrived begins. -/
theorem writeBegins_nextWrite (hcur : s.store.cur = some r) (hlisted : s.store.listed = true) (hrun : s.sys.phase = .running)
    (hwork : r.work = .group ws) (hw : ws[s.store.idx]? = some w) (n : Nat) : WriteBegins (.next (deliver (nextWrite n s))) r n w s := by
  rw [nextWrite_some ((currentWrite_group hcur hwork).trans hw)]
  exact writeBegins_beginWrite hcur hlisted hrun n w

theorem nextWrite_none (hw : currentWrite s = none) : nextWrite n s = endRequest .done s := by simp only [nextWrite, hw]

/-! ### Removal (R59) -/

theorem nextRemoval_older (h : lowest (fun x => isDirty x && headerNames k x) s.store = some i) :
    nextRemoval k s = (setOp (.erase i .older 1) s, none) := by simp only [nextRemoval, h]

theorem nextRemoval_last (h : lowest (fun x => isDirty x && headerNames k x) s.store = none) (hc : currentSlot s.store k = some i) :
    nextRemoval k s = (setOp (.erase i .last 1) (s.onStore fun st => st.onSlot i fun x => { x with state := .dirty }), none) := by
  simp only [nextRemoval, h, hc]

theorem nextRemoval_absent (h : lowest (fun x => isDirty x && headerNames k x) s.store = none) (hc : currentSlot s.store k = none) :
    nextRemoval k s = endRequest .done s := by simp only [nextRemoval, h, hc]

/-! ### The oldest request (R54, R57) -/

theorem exec_storeTakeRequest (s : State) : exec .storeTakeRequest s = .next (deliver (takeRequest s)) := rfl

/-- R57: the reserve refuses a group with creations that would leave fewer than 8 slots FREE or DIRTY. -/
theorem reserveRefuses_iff (st : Store) (ws : List RecWrite) : reserveRefuses st ws = true ↔
    0 < (ws.filter (reservedCreation st)).length ∧
      countState .free st + countState .dirty st < 8 + (ws.filter (reservedCreation st)).length := by
  unfold reserveRefuses spareSlots
  exact Bool.and_eq_true_iff.trans (and_congr decide_eq_true_iff decide_eq_true_iff)

section
variable {o : Owner} {rest : List Request} (hrun : s.sys.phase = .running) (herasing : s.store.erasing = none)
  (hop : s.store.op = none) (hcur : s.store.cur = none)
include hrun herasing hop hcur

theorem takeRequest_group (hlist : s.store.list = ⟨o, .group ws⟩ :: rest) : takeRequest s =
    if reserveRefuses s.store ws then endRequest (.full 0) (requestTaken ⟨o, .group ws⟩ s)
    else nextWrite 1 (requestTaken ⟨o, .group ws⟩ s) := by
  simp only [takeRequest, storeRuns, hrun, herasing, hop, hcur, hlist]
  rfl

theorem takeRequest_removal (hlist : s.store.list = ⟨o, .removal k⟩ :: rest) :
    takeRequest s = nextRemoval k (requestTaken ⟨o, .removal k⟩ s) := by
  simp only [takeRequest, storeRuns, hrun, herasing, hop, hcur, hlist]
  rfl

theorem takeRequest_calPage {f : CalFields} (hlist : s.store.list = ⟨o, .calPage f⟩ :: rest) (hpages : calCount s.store < 4) :
    takeRequest s = (setOp (.calPage f) (requestTaken ⟨o, .calPage f⟩ s), none) := by
  simp only [takeRequest, storeRuns, hrun, herasing, hop, hcur, hlist]
  exact if_pos hpages

/-- R57: a group that the reserve refuses ends STORE FULL. -/
theorem storeTakeRequest_refused (hlist : s.store.list = ⟨o, .group ws⟩ :: rest) (hrefused : reserveRefuses s.store ws = true) :
    exec .storeTakeRequest s =
      .next (storeOutcome o (.full 0) (fullCounted (requestEnded (requestTaken ⟨o, .group ws⟩ s)))) := by
  rw [exec_storeTakeRequest, takeRequest_group hrun herasing hop hcur hlist, if_pos hrefused]
  exact congrArg Host.Outcome.next (deliver_endRequest_full (s := requestTaken ⟨o, .group ws⟩ s) rfl rfl hrun 0)

/-- R55: the first write of a group that the reserve does not refuse begins. -/
theorem storeTakeRequest_writes (hlist : s.store.list = ⟨o, .group (w :: ws)⟩ :: rest)
    (hgranted : reserveRefuses s.store (w :: ws) = false) :
    WriteBegins (exec .storeTakeRequest s) ⟨o, .group (w :: ws)⟩ 1 w (requestTaken ⟨o, .group (w :: ws)⟩ s) := by
  rw [exec_storeTakeRequest, takeRequest_group hrun herasing hop hcur hlist, if_neg (by simp [hgranted])]
  exact writeBegins_nextWrite (s := requestTaken ⟨o, .group (w :: ws)⟩ s) (w := w) rfl rfl hrun rfl rfl 1

end

/-! ### A pending request, and the background work (R54, R60) -/

theorem placePending_plain {rest : List Request} (hpend : s.store.pend = r :: rest) (hroom : s.store.list.length < 8)
    (herasing : s.store.erasing = none) (hplain : ∀ c, r.owner ≠ .pool c) (hrise : s.cgt.riseWaits = false) :
    placePending s = { s with store := { s.store with list := s.store.list ++ [r], pend := rest } } := by
  have hplace : placePending s = returnIfListed (listRequest r (s.onStore fun st => { st with pend := rest })) := by
    simp [placePending, hpend, hroom, herasing]
  rw [hplace, listRequest_plain hplain, returnIfListed, if_neg (by simp [hrise])]
  rfl

section
variable (hrun : s.sys.phase = .running) (herasing : s.store.erasing = none) (hop : s.store.op = none)
  (hcur : s.store.cur = none) (hlist : s.store.list = [])
include hrun herasing hop hcur hlist

theorem backgroundStart_erase (hdue : dueRefresh s.store = []) (hdirty : lowest isDirty s.store = some i) :
    backgroundStart s = setOp (.erase i .background 1) s := by
  simp [backgroundStart, hrun, herasing, hop, hcur, hlist, hdue, hdirty]

theorem backgroundStart_refresh {rest : List Nat} {c : Copy} {b x : Bool} (hdue : dueRefresh s.store = i :: rest)
    (hslot : s.store.slots[i]? = some ⟨.copy c b true, .current, x⟩) :
    backgroundStart s = (beginWrite 1 (.refresh c) (refreshTaken rest c s)).1 := by
  simp [backgroundStart, refreshTaken, hrun, herasing, hop, hcur, hlist, hdue, hslot, nextWrite, currentWrite]

end

end

/-- Settles O48: by the request's work, and for a group by what its first write meets. -/
theorem storeTakesRequests : Obligations.StoreTakesRequests := by
  intro s
  refine ⟨fun r rest hpend hroom herasing hplain hrise => ?_, fun ws => ?_, fun hrun herasing hop hcur => ⟨?_, ?_⟩⟩
  · exact congrArg Host.Outcome.next (placePending_plain hpend hroom herasing hplain hrise)
  · intro creations slots
    have hcreation : reservedCreation s.store = fun w =>
        (currentSlot s.store (writeKey w)).isNone && writeKey w != .origin && writeKey w != .node :=
      funext fun w => by simp only [reservedCreation, Bool.not_or, Bool.and_assoc, bne]
    rw [reserveRefuses_iff, hcreation]
    rfl
  · intro o work rest hlist taken ends full
    have hended : requestEnded (requestTaken ⟨o, work⟩ s) = ends s.store.cnt := by
      simp only [requestEnded, requestTaken, ends, onStore_store, hlist, List.tail_cons]
      rfl
    have hfull : fullCounted (requestEnded (requestTaken ⟨o, work⟩ s)) = full := by rw [hended]; rfl
    refine ⟨fun ws hwork hrefused => ?_, fun w ws hwork hgranted hpast => ?_, fun w ws hwork hgranted hcount => ?_,
      fun k i hwork hold => ?_, fun k hwork hold => ⟨fun i hc => ?_, fun hc => ?_⟩, fun f hwork hpages => ?_⟩ <;> subst hwork
    · rw [storeTakeRequest_refused hrun herasing hop hcur hlist hrefused, hfull]
    · rw [(storeTakeRequest_writes hrun herasing hop hcur hlist hgranted).1 hpast, hended]
      rfl
    · obtain ⟨hfree, hdirty, hnone⟩ := (storeTakeRequest_writes hrun herasing hop hcur hlist hgranted).2 hcount
      rw [hfull] at hnone
      exact ⟨hnone, hfree, hdirty⟩
    · rw [exec_storeTakeRequest, takeRequest_removal hrun herasing hop hcur hlist, nextRemoval_older (s := requestTaken _ s) hold]
      rfl
    · rw [exec_storeTakeRequest, takeRequest_removal hrun herasing hop hcur hlist, nextRemoval_last (s := requestTaken _ s) hold hc]
      rfl
    · rw [exec_storeTakeRequest, takeRequest_removal hrun herasing hop hcur hlist, nextRemoval_absent (s := requestTaken _ s) hold hc,
        deliver_endRequest_done (s := requestTaken _ s) rfl rfl, hended]
    · rw [exec_storeTakeRequest, takeRequest_calPage hrun herasing hop hcur hlist hpages]
      rfl
  · intro hlist
    refine ⟨fun i hdue hdirty => ?_, fun i rest j x c b hdue hslot hfree hcount => ?_⟩
    · exact congrArg Host.Outcome.next (backgroundStart_erase hrun herasing hop hcur hlist hdue hdirty)
    · have hstart := backgroundStart_refresh hrun herasing hop hcur hlist hdue hslot
      rw [beginWrite_free (s := refreshTaken rest c s) (w := .refresh c) hcount hfree] at hstart
      exact congrArg Host.Outcome.next hstart

end Sys2Proof.Machine
end

section
/-! The ends of the STORE's operations (O49). -/

namespace Sys2Proof.Machine
open Sys2Proof

theorem exec_storeWriteEnd (verified : Bool) (s : State) : exec (.storeWriteEnd verified) s = .next (deliver (writeEnd verified s)) := rfl

theorem exec_storeEraseEnd (verified : Bool) (s : State) : exec (.storeEraseEnd verified) s = .next (deliver (eraseEnd verified s)) := rfl

theorem exec_storeCalPageEnd (verified : Bool) (s : State) :
    exec (.storeCalPageEnd verified) s = .next (deliver (calPageEnd verified s)) := rfl

/-! ### What the end of an operation leaves in its slot (R52, R55, R61) -/

/-- R55: the slots after a write that verifies: the new copy is CURRENT, the one before it DIRTY. -/
def writtenSlots (i : Nat) (c : Copy) (st : Store) : List Slot :=
  (match currentSlot st c.key with
    | some j => st.slots.modify j fun x => { x with state := .dirty }
    | none => st.slots).modify i fun x => { x with data := .copy c true false, state := .current }

/-- R52, R61: a slot is retired, with the counters as `cnt` has them, and STORE_EVENT raised. -/
def slotRetired (i : Nat) (cnt : StoreCounters) (s : State) : State := flagged .storeEvent { s with store := { s.store with
  slots := s.store.slots.modify i fun x => { x with state := .retired, retired := true }, cnt := cnt } }

/-- R55, R61: a write retry counted. -/
def retryCounted (s : State) : StoreCounters := { s.store.cnt with writeRetries := bump s.store.cnt.writeRetries }

/-- R52, R61: an erase failure counted. -/
def eraseFailureCounted (s : State) : StoreCounters := { s.store.cnt with eraseFailures := bump s.store.cnt.eraseFailures }

/-- R52: a slot is erased and FREE. -/
def slotFreed (i : Nat) (s : State) : State := { s with store := { s.store with
  slots := s.store.slots.modify i fun x => { x with data := .erased, state := .free } } }

/-- R54: no operation is in progress. -/
def opEnded (s : State) : State := s.onStore fun st => { st with op := none }

/-- R54: the request is at its write `n`. -/
def writeReached (n : Nat) (s : State) : State := s.onStore fun st => { st with idx := n, op := none }

/-- R62: a calibration page has taken what was written to it. -/
def pageWritten (p : CalPage) (s : State) : State := { s with store := { s.store with pages := writePage p s.store.pages } }

/-- R70: what the step `o` is, that has the erasure go on from slot `first` in `u`. -/
def ErasureGoes (o : Host.Outcome State Fault Refusal) (first : Nat) (u : State) : Prop :=
  (∀ j, findSlot (fun x => x.state != .retired) (u.store.slots.drop first) first = some j →
    o = .next { u with store := { u.store with
      slots := u.store.slots.modify j fun x => { x with state := .dirty }, erasing := some j, op := some (.erase j .erasure 1) } }) ∧
  (findSlot (fun x => x.state != .retired) (u.store.slots.drop first) first = none →
    o = .next (beginStartUp .erase { u with store := { u.store with op := none } }))

section
variable {s : State} {r : Request} {w : RecWrite} {ws : List RecWrite} {c : Copy} {k : RecKey} {f : CalFields} {i n : Nat}

theorem erasureGoes_eraseFrom (first : Nat) (u : State) : ErasureGoes (.next (eraseFrom first u)) first u := by
  refine ⟨fun j hj => ?_, fun hnone => ?_⟩
  · rw [eraseFrom, hj]
    rfl
  · rw [eraseFrom, hnone]
    rfl

@[simp] theorem noteFall_store (before : Nat) : (noteFall before s).store = s.store := by unfold noteFall; split <;> simp

@[simp] theorem noteFall_phase (before : Nat) : (noteFall before s).sys.phase = s.sys.phase := by unfold noteFall; split <;> simp

theorem slotWritten_store (i : Nat) (c : Copy) (s : State) :
    (slotWritten i c s).store = { s.store with slots := writtenSlots i c s.store } := by
  simp only [slotWritten, noteFall_store, onStore_store, writtenSlots]
  cases currentSlot s.store c.key <;> rfl

@[simp] theorem slotWritten_phase : (slotWritten i c s).sys.phase = s.sys.phase := noteFall_phase _

@[simp] theorem noteRenamed_store : (noteRenamed s).store = s.store := by unfold noteRenamed; split <;> rfl

@[simp] theorem noteRenamed_phase : (noteRenamed s).sys.phase = s.sys.phase := by unfold noteRenamed; split <;> rfl

@[simp] theorem noteWritten_store : (noteWritten w c s).store = s.store := by unfold noteWritten; split <;> simp

@[simp] theorem noteWritten_phase : (noteWritten w c s).sys.phase = s.sys.phase := by unfold noteWritten; split <;> simp

theorem slotErased_store (i : Nat) (verified : Bool) :
    ∃ slots cnt, (slotErased i verified s).store = { s.store with slots := slots, cnt := cnt } := by
  cases verified with
  | true => exact ⟨_, _, rfl⟩
  | false => exact ⟨_, _, raise_store ..⟩

@[simp] theorem slotErased_phase (verified : Bool) : (slotErased i verified s).sys.phase = s.sys.phase := by
  cases verified <;> simp [slotErased, retireSlot]

theorem slotErased_true : slotErased i true s = slotFreed i s := rfl

section
variable (hrun : s.sys.phase = .running)
include hrun

theorem slotFailed_running : slotFailed i s = slotRetired i (retryCounted s) s :=
  raise_running _ _ hrun

theorem slotErased_false : slotErased i false s = slotRetired i (eraseFailureCounted s) s := raise_running _ _ hrun

end

/-! ### The end of a write (R55, R58) -/

section
variable (hop : s.store.op = some (.write i c n))
include hop

theorem writeEnd_erasing (herasing : s.store.erasing.isSome = true) (verified : Bool) :
    writeEnd verified s = (eraseFrom 0 (if verified then slotWritten i c s else slotFailed i s), none) := by
  simp only [writeEnd, hop, herasing, if_true]

theorem writeEnd_verified (herasing : s.store.erasing = none) (hw : currentWrite s = some w) :
    writeEnd true s = nextWrite 1 (writeReached (s.store.idx + 1) (noteWritten w c (slotWritten i c s))) := by
  have hidx : (noteWritten w c (slotWritten i c s)).store.idx = s.store.idx := by rw [noteWritten_store, slotWritten_store]
  simp only [writeEnd, hop, herasing, hw, Option.isSome_none, Bool.false_eq_true, if_false, if_true, writeReached, State.onStore, hidx]

theorem writeEnd_again (herasing : s.store.erasing = none) (hn : n < 3) :
    writeEnd false s = nextWrite (n + 1) (opEnded (slotFailed i s)) := by
  simp [writeEnd, opEnded, hop, herasing, hn]

theorem writeEnd_third (herasing : s.store.erasing = none) (hn : 3 ≤ n) :
    writeEnd false s = endRequest (.fault (slotFailed i s).store.idx) (slotFailed i s) := by
  simp [writeEnd, hop, herasing, Nat.not_lt.2 hn]

end

/-! ### The end of an erase (R55, R59, R60) -/

section
variable {why : EraseFor} (hop : s.store.op = some (.erase i why n))
include hop

theorem eraseEnd_erasing (herasing : s.store.erasing.isSome = true) (verified : Bool) :
    eraseEnd verified s = (eraseFrom (if why = .erasure then i + 1 else 0) (slotErased i verified s), none) := by
  obtain ⟨slots, cnt, hstore⟩ := slotErased_store (s := s) i verified
  simp only [eraseEnd, hop, hstore, herasing, if_true]

end

section
variable (herasing : s.store.erasing = none) (verified : Bool)
include herasing

/-- R55: the write goes on for which the erase made room. -/
theorem eraseEnd_room (hop : s.store.op = some (.erase i .room n)) :
    eraseEnd verified s = nextWrite n (opEnded (slotErased i verified s)) := by
  obtain ⟨slots, cnt, hstore⟩ := slotErased_store (s := s) i verified
  simp [eraseEnd, opEnded, hop, hstore, herasing]

/-- R59: the removal goes on after an older copy. -/
theorem eraseEnd_older (hop : s.store.op = some (.erase i .older n)) (hcur : s.store.cur = some r) (hwork : r.work = .removal k) :
    eraseEnd verified s = nextRemoval k (opEnded (slotErased i verified s)) := by
  obtain ⟨slots, cnt, hstore⟩ := slotErased_store (s := s) i verified
  obtain ⟨o, _⟩ := r
  subst hwork
  simp [eraseEnd, opEnded, hop, hstore, herasing, hcur]

theorem eraseEnd_last (hop : s.store.op = some (.erase i .last n)) :
    eraseEnd verified s = endRequest .done (opEnded (slotErased i verified s)) := by
  obtain ⟨slots, cnt, hstore⟩ := slotErased_store (s := s) i verified
  simp [eraseEnd, opEnded, hop, hstore, herasing]

theorem eraseEnd_background (hop : s.store.op = some (.erase i .background n)) :
    eraseEnd verified s = (opEnded (slotErased i verified s), none) := by
  obtain ⟨slots, cnt, hstore⟩ := slotErased_store (s := s) i verified
  simp [eraseEnd, opEnded, hop, hstore, herasing]

end

/-! ### The end of a calibration page (R62) -/

theorem calPageEnd_eq (hop : s.store.op = some (.calPage f)) (herasing : s.store.erasing = none) (verified : Bool) :
    calPageEnd verified s = endRequest (if verified then .done else .fault 0)
      (opEnded (pageWritten { fields := some f, marked := !verified } s)) := by
  simp [calPageEnd, opEnded, pageWritten, State.onStore, hop, herasing]

/-! ### The slots after a write that verifies (R55) -/

section
variable {x : Slot} (hslot : s.store.slots[i]? = some x) (hother : currentSlot s.store c.key ≠ some i)
include hslot hother

theorem writtenSlots_new : (writtenSlots i c s.store)[i]? = some { x with data := .copy c true false, state := .current } := by
  unfold writtenSlots
  cases hj : currentSlot s.store c.key with
  | none => simp [hslot]
  | some j =>
    have hji : j ≠ i := fun h => hother (h ▸ hj)
    simp [hslot, hji]

omit hslot in
theorem writtenSlots_old {j : Nat} {y : Slot} (hj : currentSlot s.store c.key = some j) (hy : s.store.slots[j]? = some y) :
    (writtenSlots i c s.store)[j]? = some { y with state := .dirty } := by
  have hij : i ≠ j := fun h => hother (h ▸ hj)
  simp [writtenSlots, hj, hy, hij]

end

theorem writtenSlots_other {j : Nat} (hji : j ≠ i) (hj : currentSlot s.store c.key ≠ some j) :
    (writtenSlots i c s.store)[j]? = s.store.slots[j]? := by
  unfold writtenSlots
  cases hl : currentSlot s.store c.key with
  | none => simp [hji.symm]
  | some l =>
    have hlj : l ≠ j := fun h => hj (h ▸ hl)
    simp [hji.symm, hlj]

/-! ### The ends of one request's operations -/

section
variable (hcur : s.store.cur = some r) (hlisted : s.store.listed = true) (herasing : s.store.erasing = none)
include hcur hlisted herasing

/-- R54, R55: the write of a group that verifies is the last, or the next write begins. -/
theorem storeWriteEnd_verified (hop : s.store.op = some (.write i c n)) (hwork : r.work = .group ws) (hw : ws[s.store.idx]? = some w) :
    let u := noteWritten w c (slotWritten i c s)
    (s.store.idx + 1 = ws.length → exec (.storeWriteEnd true) s = .next (storeOutcome r.owner .done (requestEnded u))) ∧
    (∀ w', ws[s.store.idx + 1]? = some w' → s.sys.phase = .running →
      WriteBegins (exec (.storeWriteEnd true) s) r 1 w' (writeReached (s.store.idx + 1) u)) := by
  intro u
  have hu : u.store = { s.store with slots := writtenSlots i c s.store } := by rw [noteWritten_store, slotWritten_store]
  have hthis : currentWrite s = some w := (currentWrite_group hcur hwork).trans hw
  have hcur' : (writeReached (s.store.idx + 1) u).store.cur = some r := by simp [writeReached, hu, hcur]
  have hlisted' : (writeReached (s.store.idx + 1) u).store.listed = true := by simp [writeReached, hu, hlisted]
  have hrun' : (writeReached (s.store.idx + 1) u).sys.phase = s.sys.phase := by simp [writeReached, u]
  rw [exec_storeWriteEnd, writeEnd_verified hop herasing hthis]
  refine ⟨fun hlast => ?_, fun w' hw' hrun => writeBegins_nextWrite hcur' hlisted' (hrun'.trans hrun) hwork hw' 1⟩
  have hnone : currentWrite (writeReached (s.store.idx + 1) u) = none :=
    (currentWrite_group hcur' hwork).trans (List.getElem?_eq_none hlast.ge)
  rw [nextWrite_none hnone, deliver_endRequest_done hcur' hlisted']
  rfl

/-- R55, R58: a write that fails is tried again, or its request ends STORE FAULT. -/
theorem storeWriteEnd_failed (hop : s.store.op = some (.write i c n)) (hwork : r.work = .group ws) (hw : ws[s.store.idx]? = some w)
    (hrun : s.sys.phase = .running) :
    let u := slotRetired i (retryCounted s) s
    (3 ≤ n → exec (.storeWriteEnd false) s = .next (storeOutcome r.owner (.fault s.store.idx) (faultCounted (requestEnded u)))) ∧
    (n < 3 → WriteBegins (exec (.storeWriteEnd false) s) r (n + 1) w (opEnded u)) := by
  intro u
  have hu : slotFailed i s = u := slotFailed_running hrun
  refine ⟨fun hn => ?_, fun hn => ?_⟩
  · rw [exec_storeWriteEnd, writeEnd_third hop herasing hn, hu]
    exact congrArg Host.Outcome.next (deliver_endRequest_fault (s := u) hcur hlisted hrun _)
  · rw [exec_storeWriteEnd, writeEnd_again hop herasing hn, hu]
    exact writeBegins_nextWrite (s := opEnded u) hcur hlisted hrun hwork hw (n + 1)

/-- R55: an erase that makes room ends, and the write takes up its attempt. -/
theorem storeEraseEnd_room (hop : s.store.op = some (.erase i .room n)) (hwork : r.work = .group ws) (hw : ws[s.store.idx]? = some w)
    (hrun : s.sys.phase = .running) (verified : Bool) :
    WriteBegins (exec (.storeEraseEnd verified) s) r n w (opEnded (slotErased i verified s)) := by
  obtain ⟨slots, cnt, hstore⟩ := slotErased_store (s := s) i verified
  rw [exec_storeEraseEnd, eraseEnd_room herasing verified hop]
  exact writeBegins_nextWrite (by simp [opEnded, hstore, hcur]) (by simp [opEnded, hstore, hlisted]) (by simp [opEnded, hrun]) hwork
    (by simp [opEnded, hstore, hw]) n

/-- R59: the last erase of a removal ends, verified or not. -/
theorem storeEraseEnd_last (hop : s.store.op = some (.erase i .last n)) (verified : Bool) :
    exec (.storeEraseEnd verified) s = .next (storeOutcome r.owner .done (requestEnded (slotErased i verified s))) := by
  obtain ⟨slots, cnt, hstore⟩ := slotErased_store (s := s) i verified
  rw [exec_storeEraseEnd, eraseEnd_last herasing verified hop,
    deliver_endRequest_done (r := r) (by simp [opEnded, hstore, hcur]) (by simp [opEnded, hstore, hlisted])]
  rfl

omit hlisted in
/-- R59: after an older copy the next is erased, or the CURRENT slot. -/
theorem storeEraseEnd_older (hop : s.store.op = some (.erase i .older n)) (hwork : r.work = .removal k) (verified : Bool) :
    exec (.storeEraseEnd verified) s = .next (deliver (nextRemoval k (opEnded (slotErased i verified s)))) := by
  rw [exec_storeEraseEnd, eraseEnd_older herasing verified hop hcur hwork]

/-- R62: a calibration page has been written, whether it verifies or not. -/
theorem storeCalPageEnd_listed (hop : s.store.op = some (.calPage f)) :
    exec (.storeCalPageEnd true) s =
      .next (storeOutcome r.owner .done (requestEnded (pageWritten { fields := some f } s))) ∧
    (s.sys.phase = .running → exec (.storeCalPageEnd false) s =
      .next (storeOutcome r.owner (.fault 0) (faultCounted (requestEnded (pageWritten { fields := some f, marked := true } s))))) := by
  refine ⟨?_, fun hrun => ?_⟩
  · rw [exec_storeCalPageEnd, calPageEnd_eq hop herasing]
    exact congrArg Host.Outcome.next (deliver_endRequest_done (s := opEnded (pageWritten _ s)) hcur hlisted)
  · rw [exec_storeCalPageEnd, calPageEnd_eq hop herasing]
    exact congrArg Host.Outcome.next (deliver_endRequest_fault (s := opEnded (pageWritten _ s)) hcur hlisted hrun 0)

end

end

/-- Settles O49: one rule for each operation and each way in which it ends. -/
theorem storeOperationsEnd : Obligations.StoreOperationsEnd := by
  refine ⟨fun s i herasing hrun => ?_, fun s r herasing => ?_⟩
  · intro goes erased retired unerased
    refine ⟨fun why n hop => ?_, fun c n hop => ?_⟩
    · have hgoes (verified : Bool) : ErasureGoes (exec (.storeEraseEnd verified) s) (if why = .erasure then i + 1 else 0)
          (slotErased i verified s) := by
        rw [exec_storeEraseEnd, eraseEnd_erasing hop herasing verified]
        exact erasureGoes_eraseFrom ..
      have hfalse := hgoes false
      rw [slotErased_false hrun] at hfalse
      refine ⟨fun hwhy => ?_, fun hwhy => ?_⟩
      · rw [if_pos hwhy] at hgoes hfalse
        exact ⟨hgoes true, hfalse⟩
      · rw [if_neg hwhy] at hgoes hfalse
        exact ⟨hgoes true, hfalse⟩
    · have hgoes (verified : Bool) : ErasureGoes (exec (.storeWriteEnd verified) s) 0
          (if verified then slotWritten i c s else slotFailed i s) := by
        rw [exec_storeWriteEnd, writeEnd_erasing hop herasing verified]
        exact erasureGoes_eraseFrom ..
      have hfalse := hgoes false
      rw [if_neg Bool.false_ne_true, slotFailed_running hrun] at hfalse
      exact ⟨hgoes true, hfalse⟩
  · intro ended fault full retired failed going begins
    refine ⟨fun hcur hlisted =>
      ⟨fun i c n ws w hop hwork hw => ?_, fun i n ws w hop hwork hw hrun => ?_, fun i n k hwork => ?_,
      fun f hop => ?_⟩, fun i n hop hrun => ?_, fun i c x hslot _ hother => ?_⟩
    · obtain ⟨hlast, hnext⟩ := storeWriteEnd_verified hcur hlisted herasing hop hwork hw
      refine ⟨hlast, hnext, fun hn hrun => ?_, fun hn hrun hcount => ?_⟩
      · exact (storeWriteEnd_failed hcur hlisted herasing hop hwork hw hrun).1 hn
      · exact ((storeWriteEnd_failed hcur hlisted herasing hop hwork hw hrun).2 hn).2 hcount
    · have hbegins := storeEraseEnd_room hcur hlisted herasing hop hwork hw hrun
      have hfalse := hbegins false
      rw [slotErased_false hrun] at hfalse
      exact ⟨hbegins true, hfalse⟩
    · intro erased
      refine ⟨fun hop => ⟨storeEraseEnd_last hcur hlisted herasing hop true, fun hrun => ?_⟩,
        fun j hop => ⟨fun hold => ?_, fun hold hc => ?_⟩⟩
      · rw [storeEraseEnd_last hcur hlisted herasing hop false, slotErased_false hrun]
        rfl
      · rw [storeEraseEnd_older hcur herasing hop hwork true, nextRemoval_older (s := opEnded (slotErased i true s)) hold]
        rfl
      · rw [storeEraseEnd_older hcur herasing hop hwork true, nextRemoval_last (s := opEnded (slotErased i true s)) hold hc]
        rfl
    · exact storeCalPageEnd_listed hcur hlisted herasing hop
    · refine ⟨?_, ?_⟩
      · rw [exec_storeEraseEnd, eraseEnd_background herasing true hop]
        rfl
      · rw [exec_storeEraseEnd, eraseEnd_background herasing false hop, slotErased_false hrun]
        rfl
    · intro t
      have hslots : t.store.slots = writtenSlots i c s.store := congrArg Store.slots (slotWritten_store i c s)
      rw [hslots]
      exact ⟨writtenSlots_new hslot hother, fun j y => writtenSlots_old hother, fun j => writtenSlots_other⟩

end Sys2Proof.Machine
end

section
/-! The millisecond of an empty queue, and the part right after power-on (O2, O6). -/

namespace Sys2Proof.Machine
open Sys2Proof

/-- R132: the offer timer of a lot runs while the lot is OFFERED and the LIF ACTIVE. -/
theorem tickLot_lineActive (s : State) (l : Lot) : tickLot s.lineActive l =
    if s.lif.state = .active ∧ l.state = .offered then { l with offer := countUp 15000 l.offer } else l := by
  simp [tickLot, State.lineActive]

/-- Settles O2: the tick, block by block, is what the statement writes out; only a lot's condition is told another way. -/
theorem emptyQueueTicks : Obligations.EmptyQueueTicks := by
  intro s hempty
  have hstep : step s = .next (tick s) := by rw [step, hempty]
  refine ⟨fun hstart => ?_, fun hrun => ?_⟩
  · rw [hstep, tick, if_neg hstart]
  · intro down
    have hlots : tickLot s.lineActive = _ := funext (tickLot_lineActive s)
    rw [hstep, tick, if_pos hrun, tickWgu, hlots]
    rfl

/-- Settles O6: each value is read off the state right after power-on. -/
theorem resetValues : Obligations.ResetValues := by
  refine ⟨rfl, rfl, rfl, rfl, rfl, rfl, rfl, rfl, rfl, rfl, rfl, rfl, rfl, rfl, rfl, rfl, rfl, rfl, rfl, rfl, rfl, fun d hd => ?_,
    rfl, rfl, rfl, rfl⟩
  obtain rfl := List.eq_of_mem_replicate hd
  rfl

end Sys2Proof.Machine
end

section
/-! Start-up begins, and an erasure begins (O23, O25). -/

namespace Sys2Proof.Machine
open Sys2Proof

section
variable {s : State}

/-! ### Start-up begins (R64, R83, R208) -/

/-- What clearing leaves, from a state `u` that differs from `s` outside the store, and in the slots and the operation in progress. -/
theorem startedUp_clearWorking {u : State} (hpending : u.pending = s.pending) (hsys : u.sys = { s.sys with free := u.sys.free })
    (hstore : u.store = { s.store with slots := u.store.slots, op := u.store.op }) (cause : StartCause) (phase : Phase) :
    StartedUp cause phase u.store.slots s (clearWorking cause phase u) ∧ (clearWorking cause phase u).store.pages = s.store.pages := by
  refine ⟨⟨hpending, ?_, rfl, rfl, rfl, rfl, ?_, rfl, rfl, rfl, rfl, rfl⟩, ?_⟩
  · simp only [clearWorking]
    rw [hsys]
  · simp only [clearWorking]
    rw [hstore]
  · simp only [clearWorking]
    rw [hstore]

theorem cutOperation_idle (hop : s.store.op = none) : cutOperation s = s := by simp only [cutOperation, hop]

/-- R64: a write in progress is abandoned: only its slot and the counter of the free values change. -/
theorem cutOperation_write {i n : Nat} {c : Copy} (hop : s.store.op = some (.write i c n)) : cutOperation s = { s with
    sys := { s.sys with free := s.sys.free + 1 }
    store := { s.store with slots := s.store.slots.modify i (cutWrite s.sys.free c), op := none } } := by
  simp only [cutOperation, hop]
  rfl

/-- R64: a write cut off leaves what the slot held, nothing readable, or the whole copy. -/
theorem cutWrite_cases (n : Nat) (c : Copy) (x : Slot) :
    cutWrite n c x = x ∨ cutWrite n c x = { x with data := .torn } ∨ cutWrite n c x = { x with data := .copy c true false } := by
  unfold cutWrite
  split <;> simp

theorem beginStartUp_idle (cause : StartCause) (hop : s.store.op = none) :
    beginStartUp cause s = clearWorking cause (if s.sys.resetLow then .held else .scanning) s := by
  rw [beginStartUp, cutOperation_idle hop]

/-- Start-up from a state `u` that differs from `s` outside the store, with no operation in progress. -/
theorem startedUp_beginStartUp {u : State} {phase : Phase} (hop : s.store.op = none) (hpending : u.pending = s.pending)
    (hsys : u.sys = s.sys) (hstore : u.store = s.store) (hphase : (if s.sys.resetLow then .held else .scanning) = phase) (cause : StartCause) :
    StartedUp cause phase s.store.slots s (beginStartUp cause u) ∧ (beginStartUp cause u).store.pages = s.store.pages := by
  rw [beginStartUp_idle cause (by rwa [hstore]), hsys, hphase, ← hstore]
  obtain ⟨hstarted, hpages⟩ := startedUp_clearWorking hpending (by rw [hsys]) (by rw [hstore]) cause phase
  exact ⟨hstarted, hpages.trans (by rw [hstore])⟩

/-- R208: a RESTART of good length begins start-up, the answer buffer carried out. -/
theorem takeRestart_taken (htaken : Taken s) : takeRestart true s = beginStartUp .restart (carryAnswer s) := by
  have hon : s.sys.phase ≠ .off := by rw [htaken.1]; decide
  simp [takeRestart, hon, portStarting_carryAnswer, htaken.not_starting]

/-- Settles O23: with no operation in progress nothing is cut off; a write cut off leaves one of three things in its slot. -/
theorem startUpBegins : Obligations.StartUpBegins := by
  intro s
  refine ⟨fun hop hhigh => ?_, fun hop hon => ?_, rfl, fun hop htaken hhigh => ?_, fun hon i c n x hop hslot => ?_⟩
  · exact ⟨_, rfl, startedUp_beginStartUp hop rfl rfl rfl (by simp [hhigh]) .power⟩
  · exact ⟨_, congrArg Host.Outcome.next (if_neg hon),
      startedUp_beginStartUp (s := { s with sys := { s.sys with resetLow := true } }) hop rfl rfl rfl (by simp) .pin⟩
  · exact ⟨_, congrArg Host.Outcome.next (takeRestart_taken htaken),
      startedUp_beginStartUp hop (by rw [carryAnswer_eq]) (by rw [carryAnswer_eq]) (by rw [carryAnswer_eq]) (by simp [hhigh]) .restart⟩
  · have hlost : supplyLost s = clearWorking .power .off (cutOperation s) := if_neg hon
    rw [cutOperation_write hop] at hlost
    obtain ⟨hstarted, hpages⟩ := startedUp_clearWorking (s := s) (u := { s with
      sys := { s.sys with free := s.sys.free + 1 }
      store := { s.store with slots := s.store.slots.modify i (cutWrite s.sys.free c), op := none } }) rfl rfl rfl .power .off
    refine ⟨_, _, cutWrite s.sys.free c x, congrArg Host.Outcome.next hlost, hstarted, hpages, ?_, fun j hj => ?_, cutWrite_cases ..⟩
    · simp [hslot]
    · simp [hj.symm]

end

/-! ### An erasure begins (R70, R208) -/

section
variable {s : State} {j : Nat}

/-- While the port is STARTING the status word says so. -/
theorem statusWord_starting (h : portStarting s = true) (f : PortFault) : (statusWord s f).extractLsb' 30 2 = 1 := by
  simp only [statusWord, portStateCode, h, if_true]
  iterate 9 rw [BitVec.extractLsb'_append_eq_of_le (by decide)]
  rfl

theorem eraseOwner_refused (hlock : s.port.lock = false) (hline : s.lif.state ≠ .offline) : eraseOwner s = refuse .notOffline s := by
  simp [eraseOwner, hlock, hline]

theorem eraseOwner_accepted (hlock : s.port.lock = false) (hline : s.lif.state = .offline) :
    eraseOwner s = finish .accepted (markErasure s) := by
  simp [eraseOwner, hlock, hline]

/-- R202: in any line state but OFFLINE an ERASE STORE is refused. -/
theorem frame_eraseOwner_refused (htaken : Taken s) (hlock : s.port.lock = false) (hline : s.lif.state ≠ .offline) :
    frame true none eraseOwner s = answered .notOffline .none s := by
  refine frame_effect htaken none (.inl rfl) eraseOwner _ _ ?_
  rw [carryAnswer_eq]
  exact eraseOwner_refused hlock hline

/-- R70: an accepted ERASE STORE is answered over the state whose requests are discarded. -/
theorem frame_eraseOwner_accepted (htaken : Taken s) (hlock : s.port.lock = false) (hline : s.lif.state = .offline) :
    frame true none eraseOwner s = answered .accepted .none (markErasure s) := by
  refine frame_effect htaken none (.inl rfl) eraseOwner _ _ ?_
  rw [carryAnswer_eq, carryAnswer_eq]
  exact eraseOwner_accepted hlock hline

/-- Settles O25: the frame composes its answer over the state whose requests are discarded, and the erasure begins after it. -/
theorem eraseStoreBegins : Obligations.EraseStoreBegins := by
  intro s j htaken hlock
  refine ⟨fun hline => ?_, fun hline hop hslot => ?_⟩
  · refine congrArg Host.Outcome.next ?_
    rw [takeEraseStore, frame_eraseOwner_refused htaken hlock hline]
    have hnone : (answered .notOffline .none s).store.erasing = none := htaken.2
    simp [hnone]
  · have hstarting : portStarting (markErasure s) = true := by simp [portStarting, markErasure]
    have hgo : takeEraseStore true s = eraseFrom 0 (answered .accepted .none (markErasure s)) := by
      have hidle : (answered .accepted .none (markErasure s)).store.op = none := hop
      rw [takeEraseStore, frame_eraseOwner_accepted htaken hlock hline, htaken.2]
      exact (if_pos rfl).trans (by rw [goErase, hidle])
    have hslot' : findSlot (fun x => x.state != .retired) ((answered .accepted .none (markErasure s)).store.slots.drop 0) 0 = some j := hslot
    rw [eraseFrom, hslot'] at hgo
    refine ⟨_, congrArg Host.Outcome.next hgo, rfl, ?_, statusWord_starting hstarting .none, rfl⟩
    simp [portStateCode, portStarting]

end

end Sys2Proof.Machine
end

section
/-! The slot scan, and the rebuild and the epoch advance at its end (R51, R62, R65 to R68). -/

namespace Sys2Proof.Machine
open Sys2Proof

section
variable {s : State} {ds : List (Nat × Decay)} {ps : List Nat} {b : Bool}

/-! ### The scan of slots and pages (R51, R62, R65) -/

/-- The choice of copies changes no contents. -/
theorem chooseCopies_data (xs : List Slot) (i : Nat) : ((chooseCopies xs)[i]?).map (·.data) = (xs[i]?).map (·.data) := by
  simp only [chooseCopies, List.getElem?_mapIdx, Option.map_map]
  congr 1
  funext x
  simp only [Function.comp_apply]
  split
  · split <;> rfl
  · rfl

theorem scanDecay_of_find {i : Nat} {d : Decay} (h : ds.find? (fun p => p.1 == i) = some (i, d)) : scanDecay ds i = d := by
  simp [scanDecay, h]

/-- R65: a slot that is not retired holds, after the scan, what the read of its contents found. -/
theorem scanStore_data {st : Store} {i : Nat} {x : Slot} (hslot : st.slots[i]? = some x) (hgood : x.retired = false) :
    ((scanStore ds ps b st).slots[i]?).map (·.data) = some (readData (scanDecay ds i) x.data) := by
  have hslots : (scanStore ds ps b st).slots = chooseCopies (st.slots.mapIdx (scanSlot ds)) := rfl
  rw [hslots, chooseCopies_data, List.getElem?_mapIdx, hslot]
  simp [scanSlot, hgood]

theorem decayBytes_pos (d : Decay) : decide (0 < decayBytes d) = (d.header == .corrected || d.body == .corrected) := by
  obtain ⟨h, b⟩ := d
  cases h <;> cases b <;> rfl

theorem readData_copy (d : Decay) (c : Copy) (k : Bool) : readData d (.copy c true k) =
    if d.header = .uncorrectable then .torn
    else if d.body = .uncorrectable then .copy c false false
    else .copy c true (d.header == .corrected || d.body == .corrected) := by
  simp only [readData, decayBytes_pos, Bool.true_and]

theorem readData_erased {d : Decay} (h : d.header ≠ .clean ∨ d.body ≠ .clean) : readData d .erased = .torn := by
  have hd : d ≠ {} := by rintro rfl; simp at h
  simp [readData, hd]

/-- R62: one of the four pages cannot be corrected, and its bad mark is not written. -/
theorem pageFails_iff (ps : List Nat) (st : Store) : pageFails ps st = true ↔
    ∃ n ∈ ps, 1 ≤ n ∧ n ≤ 4 ∧ ∀ p, st.pages[n - 1]? = some p → p.marked = false := by
  simp only [pageFails, List.any_eq_true, Bool.and_eq_true, List.contains_iff_mem]
  refine exists_congr fun n => ?_
  have hfour : n ∈ [1, 2, 3, 4] ↔ 1 ≤ n ∧ n ≤ 4 := by
    simp only [List.mem_cons, List.not_mem_nil, or_false]
    omega
  rw [hfour]
  cases st.pages[n - 1]? <;> simp <;> tauto

/-- R62: a page after the scan. -/
theorem scanStore_page {st : Store} {i : Nat} {p : CalPage} (h : st.pages[i]? = some p) :
    (scanStore ds ps b st).pages[i]? = some { p with readable := !ps.contains (i + 1) } := by
  have hpages : (scanStore ds ps b st).pages = st.pages.mapIdx fun i p => { p with readable := !ps.contains (i + 1) } := rfl
  rw [hpages, List.getElem?_mapIdx, h]
  rfl

/-! ### The end of the scan (R62, R67, R68) -/

theorem flags_or_none (f : BitVec 12) : f ||| (0 : BitVec 12) = f := BitVec.or_zero

/-- What the end of the scan leaves before the epoch advance: the store scanned, the tables rebuilt, STORE_EVENT kept for the hand-over. -/
def scanned (ds : List (Nat × Decay)) (ps : List Nat) (b : Bool) (s : State) : State :=
  let st := scanStore ds ps b s.store
  { s with
    sys := { s.sys with lateFlags := s.sys.lateFlags ||| (if pageFails ps s.store then flagBit .storeEvent else 0) }
    store := st
    book := { s.book with accounts := restoredAccounts st, marks := rebuildMarks st (restoredAccounts st) }
    node := restoredNode st }

theorem scanEnds_scanning (hscan : s.sys.phase = .scanning) : scanEnds ds ps b s = advanceEpoch (scanned ds ps b s) := by
  have hstart : s.sys.phase ≠ .running := by rw [hscan]; decide
  rw [scanEnds, if_neg (not_not.2 hscan), scanned]
  dsimp only
  split
  · rw [raise_starting _ _ hstart]
    rfl
  · rw [flags_or_none]
    rfl

theorem advanceEpoch_commit (hlist : ListOpen s) (hepoch : greatestEpoch s.store < 65534) : advanceEpoch s =
    listed ⟨.startEpoch (greatestEpoch s.store + 1), .group [.node (.startEpoch (greatestEpoch s.store + 1))]⟩
      { s with sys := { s.sys with phase := .epochCommit, epoch := greatestEpoch s.store } } :=
  (if_pos hepoch).trans (placeGroup_room (s := s.onSys _) hlist.1 hlist.2 nofun)

end

end Sys2Proof.Machine
end

section
/-! The hand-over (R49, R69, R112), and what a scan's end and the epoch's commit lead to (O24). -/

namespace Sys2Proof.Machine
open Sys2Proof

section
variable {s : State}

/-! ### The parts of the hand-over -/

/-- R69, R201: the port is FRESH, what start-up raised is latched, and the LIF and the CGT have their values. -/
def portOpened (s : State) : State := { s with
  sys := { s.sys with phase := .running, lateFlags := 0 }
  port := { s.port with flags := s.port.flags ||| s.sys.lateFlags, fresh := true }
  lif := { s.lif with serial := if s.store.serialOk then s.store.serial else 0 }
  cgt := { s.cgt with startEpoch := s.sys.epoch } }

/-- R49, R112: the entries, the offered reading and the yields stand restored. -/
def tablesRestored (s : State) : State :=
  let t := wguAfterScan (excRestore s)
  t.book.accounts.foldl restoreYield t

theorem handOver_eq (s : State) : handOver s =
    if somethingDamaged (tablesRestored (portOpened s)).store then raise .damaged (tablesRestored (portOpened s))
    else tablesRestored (portOpened s) := rfl

/-- R120, R125: the working zero and the offered reading, from the calibration in force. -/
def wguScanned (st : Store) (w : Wgu) : Wgu :=
  match calInForce st with
  | some f => { w with zero := f.zero, offered := { noReading := true } }
  | none => w

theorem wguAfterScan_eq (s : State) : wguAfterScan s = { s with wgu := wguScanned s.store s.wgu } := by
  unfold wguAfterScan wguScanned
  cases calInForce s.store <;> rfl

/-! ### What the hand-over leaves unchanged -/

theorem placeStore_unchanged (r : Request) (s : State) : (placeStore r s).sys = s.sys ∧ (placeStore r s).port = s.port := by
  obtain ⟨-, h⟩ | ⟨-, -, h⟩ | ⟨-, -, h⟩ := placeStore_cases r s <;> rw [h]
  · exact ⟨rfl, rfl⟩
  · unfold listRequest
    split <;> exact ⟨rfl, rfl⟩
  · exact ⟨rfl, rfl⟩

theorem excRestore_unchanged (s : State) : (excRestore s).sys = s.sys ∧ (excRestore s).port = s.port := by
  unfold excRestore
  refine List.foldlRecOn (motive := fun t : State => t.sys = s.sys ∧ t.port = s.port) _ _ ⟨rfl, rfl⟩ fun t ht o _ => ?_
  obtain ⟨hsys, hport⟩ := placeStore_unchanged ⟨.outRemoval o.posting.id, .removal (.outbound o.posting.id.epoch o.posting.id.number)⟩ t
  exact ⟨hsys.trans ht.1, hport.trans ht.2⟩

theorem restoreYield_unchanged (s : State) (a : Account) : (restoreYield s a).sys = s.sys ∧ (restoreYield s a).port = s.port := by
  unfold restoreYield
  split
  · split
    · exact ⟨rfl, rfl⟩
    · exact placeStore_unchanged _ (setYield _ s)
  · exact ⟨rfl, rfl⟩

theorem tablesRestored_unchanged (s : State) : (tablesRestored s).sys = s.sys ∧ (tablesRestored s).port = s.port := by
  obtain ⟨hsys, hport⟩ := excRestore_unchanged s
  rw [tablesRestored, wguAfterScan_eq]
  refine List.foldlRecOn (motive := fun t : State => t.sys = s.sys ∧ t.port = s.port) _ _ ⟨hsys, hport⟩ fun t ht a _ => ?_
  obtain ⟨hsys, hport⟩ := restoreYield_unchanged t a
  exact ⟨hsys.trans ht.1, hport.trans ht.2⟩

/-- R69: after the hand-over the part runs with its epoch, and the port is FRESH. -/
theorem handOver_running (s : State) :
    (handOver s).sys = { s.sys with phase := .running, lateFlags := 0 } ∧ (handOver s).port.fresh = true := by
  obtain ⟨hsys, hport⟩ := tablesRestored_unchanged (portOpened s)
  have hrun : (tablesRestored (portOpened s)).sys.phase = .running := by rw [hsys]; rfl
  rw [handOver_eq, raise_running _ _ hrun]
  split <;> exact ⟨hsys, by simp only [hport]; rfl⟩

/-- R68: past the last epoch the part runs with the epoch EXHAUSTED. -/
theorem advanceEpoch_exhausted (hepoch : 65534 ≤ greatestEpoch s.store) :
    (advanceEpoch s).sys.phase = .running ∧ (advanceEpoch s).sys.epochState = .exhausted ∧
      (advanceEpoch s).sys.epoch = greatestEpoch s.store ∧ (advanceEpoch s).port.fresh = true := by
  have hhand : advanceEpoch s = handOver ((s.onSys fun y => { y with phase := .epochCommit, epoch := greatestEpoch s.store }).onSys
      fun y => { y with epochState := .exhausted }) := if_neg (Nat.not_lt.2 hepoch)
  rw [hhand]
  obtain ⟨hsys, hfresh⟩ := handOver_running ((s.onSys fun y => { y with phase := .epochCommit, epoch := greatestEpoch s.store }).onSys
    fun y => { y with epochState := .exhausted })
  rw [hsys]
  exact ⟨rfl, rfl, rfl, hfresh⟩

/-! ### The entries restored (R112) -/

/-- R112: an OUTBOUND record restored to the table of entries. -/
def restoredEntry (seq : Nat) (o : OutRec) : Entry := { restoreEntry seq o with replaced := o.replaced }

/-- R112: the table holds the entries, and the places behind them are free. -/
def entriesRestored (es : List Entry) (s : State) : State :=
  s.onExc fun x => { x with entries := es, free := List.range' es.length (32 - es.length) }

/-- R112: every record is restored. -/
theorem excRestore_all {os : List OutRec} (hos : outRecords s.store = os) (hkept : ∀ o ∈ os, outDropped s.book.accounts os o = false)
    (hlen : os.length ≤ 32) : excRestore s = entriesRestored (os.mapIdx restoredEntry) s := by
  have hgone : os.filter (outDropped s.book.accounts os) = [] := by simpa [List.filter_eq_nil_iff] using hkept
  have hall : (os.filter fun o => !outDropped s.book.accounts os o) = os := by simpa [List.filter_eq_self] using hkept
  simp only [excRestore, hos, hgone, hall, List.take_of_length_le hlen]
  rfl

/-- R112: of two records the first is not restored; its removal is placed. -/
theorem excRestore_dropped {o p : OutRec} (hos : outRecords s.store = [o, p]) (ho : outDropped s.book.accounts [o, p] o = true)
    (hp : outDropped s.book.accounts [o, p] p = false) (hlist : ListOpen s) : excRestore s =
    listed ⟨.outRemoval o.posting.id, .removal (.outbound o.posting.id.epoch o.posting.id.number)⟩
      (entriesRestored [restoredEntry 0 p] s) := by
  have hgone : [o, p].filter (outDropped s.book.accounts [o, p]) = [o] := by simp [ho, hp]
  have hkept : ([o, p].filter fun x => !outDropped s.book.accounts [o, p] x) = [p] := by simp [ho, hp]
  simp only [excRestore, hos, hgone, hkept]
  exact placeRemoval_room (s := entriesRestored _ s) hlist.1 hlist.2 nofun

/-! ### The yields restored (R49) -/

theorem restoreYield_other {a : Account} (h : a.state ≠ .yielding) : restoreYield s a = s := if_neg h

theorem foldl_restoreYield_other {as : List Account} (h : ∀ a ∈ as, a.state ≠ .yielding) : as.foldl restoreYield s = s := by
  induction as with
  | nil => rfl
  | cons a as ih =>
    rw [List.foldl_cons, restoreYield_other (h a List.mem_cons_self)]
    exact ih fun x hx => h x (List.mem_cons_of_mem a hx)

/-- R49: a YIELDING record without its TRANSFER is committed as OPEN. -/
theorem restoreYield_opened {a : Account} (h : a.state = .yielding) (hnone : s.exc.entries = []) (hlist : ListOpen s) : restoreYield s a =
    listed ⟨.bookState a.number, .group [.account a.number (.setState .opened)]⟩
      (setYield ⟨a.number, 0, .finishing .opened true⟩ s) := by
  rw [restoreYield, if_pos h, hnone]
  exact finishYield_room hlist ..

/-- R49: a YIELDING record goes on with its TRANSFER. -/
theorem restoreYield_transfer {a : Account} {e : Entry} (h : a.state = .yielding) (he : s.exc.entries = [e]) (href : e.ref = .transfer a.number) :
    restoreYield s a = setYield ⟨a.number, e.dest.getD 0, .running⟩ s := by
  rw [restoreYield, if_pos h, he]
  simp [href]

/-! ### The whole hand-over -/

/-- R69, R112, R120: what the hand-over leaves where no record is YIELDING: the entries stand restored. -/
def handedOver (es : List Entry) (s : State) : State := { s with
  sys := { s.sys with phase := .running, lateFlags := 0 }
  port := { s.port with
    flags := s.port.flags ||| s.sys.lateFlags ||| (if somethingDamaged s.store then flagBit .damaged else 0)
    fresh := true }
  lif := { s.lif with serial := if s.store.serialOk then s.store.serial else 0 }
  exc := { s.exc with entries := es, free := List.range' es.length (32 - es.length) }
  wgu := wguScanned s.store s.wgu
  cgt := { s.cgt with startEpoch := s.sys.epoch } }

/-- The hand-over where no record is YIELDING, with the entries restored and `list` the request list after it. -/
theorem handOver_quiet {es : List Entry} {list : List Request} (hyield : ∀ a ∈ s.book.accounts, a.state ≠ .yielding)
    (hrestore : excRestore (portOpened s) =
      { entriesRestored es (portOpened s) with store := { s.store with list := list } }) :
    handOver s = { handedOver es s with store := { s.store with list := list } } := by
  have hquiet : tablesRestored (portOpened s) = wguAfterScan (excRestore (portOpened s)) :=
    foldl_restoreYield_other (by rw [wguAfterScan_eq, hrestore]; exact hyield)
  rw [handOver_eq, hquiet, wguAfterScan_eq, hrestore, handedOver, raise_running _ _ rfl]
  have hdamaged : somethingDamaged { s.store with list := list } = somethingDamaged s.store := rfl
  split
  next h =>
    rw [if_pos (hdamaged ▸ h)]
    rfl
  next h =>
    rw [if_neg (hdamaged ▸ h), flags_or_none]
    rfl

/-- The state in which the yields are restored, with the entries `es`. -/
def beforeYields (es : List Entry) (s : State) : State :=
  { entriesRestored es (portOpened s) with wgu := wguScanned s.store s.wgu }

/-- The hand-over of a book with one record: store, book and entries are as that record's yield leaves them. -/
theorem handOver_yielding {es : List Entry} {a : Account} (haccounts : s.book.accounts = [a])
    (hrestore : excRestore (portOpened s) = entriesRestored es (portOpened s)) :
    (handOver s).store = (restoreYield (beforeYields es s) a).store ∧ (handOver s).book = (restoreYield (beforeYields es s) a).book ∧
      (handOver s).exc = (restoreYield (beforeYields es s) a).exc := by
  have htables : tablesRestored (portOpened s) = restoreYield (beforeYields es s) a := by
    rw [tablesRestored, wguAfterScan_eq, hrestore]
    exact congrArg (List.foldl restoreYield _) haccounts
  rw [handOver_eq, htables]
  split <;> simp

section
variable {a : Account} (haccounts : s.book.accounts = [a]) (hst : a.state = .yielding) (hyields : s.book.yields = [])
include haccounts hst hyields

/-- R49: the hand-over has the YIELDING record without a TRANSFER committed as OPEN. -/
theorem handOver_opened (hos : outRecords s.store = []) (hlist : ListOpen s) :
    (handOver s).store.list = s.store.list ++ [⟨.bookState a.number, .group [.account a.number (.setState .opened)]⟩] ∧
    (handOver s).book.yields = [⟨a.number, 0, .finishing .opened true⟩] := by
  have hrestore : excRestore (portOpened s) = entriesRestored [] (portOpened s) :=
    excRestore_all (s := portOpened s) hos (by simp) (Nat.zero_le 32)
  obtain ⟨hstore, hbook, -⟩ := handOver_yielding haccounts hrestore
  rw [hstore, hbook, restoreYield_opened (s := beforeYields [] s) hst rfl hlist]
  have hempty : (beforeYields [] s).book.yields = [] := hyields
  refine ⟨rfl, ?_⟩
  simp only [listed, setYield, onBook_book, hempty]
  rfl

/-- R49, R112: the hand-over has the YIELDING record go on with its TRANSFER. -/
theorem handOver_transfer {o : OutRec} (hos : outRecords s.store = [o]) (href : o.ref = .transfer a.number)
    (hacct : o.posting.account = a.number) (hfirst : o.replaced = none) :
    (handOver s).exc.entries = [restoredEntry 0 o] ∧
    (handOver s).book = { s.book with yields := [⟨a.number, o.dest, .running⟩] } := by
  have hkept : ∀ x ∈ [o], outDropped s.book.accounts [o] x = false := by
    intro x hx
    obtain rfl := List.mem_singleton.1 hx
    simp [outDropped, hfirst, isYielding, findAccount, haccounts, hacct, hst]
  have hrestore : excRestore (portOpened s) = entriesRestored [restoredEntry 0 o] (portOpened s) :=
    excRestore_all (s := portOpened s) hos hkept (by simp)
  obtain ⟨-, hbook, hexc⟩ := handOver_yielding haccounts hrestore
  rw [hbook, hexc, restoreYield_transfer (s := beforeYields [restoredEntry 0 o] s) hst rfl href]
  have hempty : (beforeYields [restoredEntry 0 o] s).book.yields = [] := hyields
  refine ⟨rfl, ?_⟩
  simp only [setYield, onBook_book, hempty]
  rfl

end

/-! ### The end of the epoch's commit (R68) -/

/-- R68: the epoch and its state as the commit's end leaves them, with what its end raises. -/
def epochSettled (epoch : Nat) (state : EpochState) (raised : BitVec 12) (s : State) : State := { s with
  sys := { s.sys with epoch := epoch, epochState := state, lateFlags := s.sys.lateFlags ||| raised } }

theorem startEpoch_done (epoch : Nat) : storeOutcome (.startEpoch epoch) .done s = handOver (epochSettled epoch .inUse 0 s) := by
  rw [epochSettled, flags_or_none]
  rfl

theorem startEpoch_failed (hstart : s.sys.phase ≠ .running) (epoch : Nat) {res : StoreRes} (hres : res ≠ .done) :
    storeOutcome (.startEpoch epoch) res s = handOver (epochSettled s.sys.epoch .notTaken (flagBit .storeEvent) s) := by
  have hraise := raise_starting (s.onSys fun y => { y with epochState := .notTaken }) .storeEvent hstart
  cases res with
  | done => exact absurd rfl hres
  | full _ => exact congrArg handOver hraise
  | fault _ => exact congrArg handOver hraise

end

/-- Settles O24: the scan slot by slot and page by page, its end by the greatest epoch, and the hand-over by its restored entries. -/
theorem scanRebuilds : Obligations.ScanRebuilds := by
  refine ⟨fun s ds pages idBad => ?_, fun s e => ?_⟩
  · intro st
    refine ⟨fun i x c k d hslot hgood hfind => ?_, fun hscan => ?_, pageFails_iff .., fun i p hpage => ?_⟩
    · have hdata := scanStore_data (ds := ds) (ps := pages) (b := idBad) hslot hgood
      rw [scanDecay_of_find hfind] at hdata
      exact ⟨fun hx => by rw [hdata, hx, readData_copy], fun hx hd => by rw [hdata, hx, readData_erased hd]⟩
    · have hend : exec (.startupScanEnd ds pages idBad) s = .next (advanceEpoch (scanned ds pages idBad s)) :=
        congrArg Host.Outcome.next (scanEnds_scanning hscan)
      rw [hend]
      refine ⟨fun herasing hlist hpend hepoch => ?_, fun hepoch => ?_⟩
      · intro late
        have hopen : ListOpen (scanned ds pages idBad s) := ⟨herasing, by simp [listRoom, scanned, scanStore, hlist, hpend]⟩
        have hempty : (scanned ds pages idBad s).store.list = [] := hlist
        rw [advanceEpoch_commit hopen hepoch, listed]
        dsimp only
        rw [hempty]
        rfl
      · exact ⟨_, rfl, advanceEpoch_exhausted hepoch⟩
    · exact ⟨_, scanStore_page hpage, rfl, by simp [CalPage.spent], by simp [CalPage.taken, CalPage.spent, Bool.or_assoc]⟩
  · intro os entry running hphase
    have hstart : s.sys.phase ≠ .running := by rw [hphase]; decide
    have hrunning (epoch : Nat) (state : EpochState) (raised : BitVec 12) (es : List Entry) :
        handedOver es (epochSettled epoch state raised s) = running epoch state raised es := by
      simp only [handedOver, epochSettled, running, ← BitVec.or_assoc]
      rfl
    refine ⟨fun hyield hkept hlen => ?_, fun o p hyield hos hreplaced hself hfirst hkind hlist => ?_,
      fun a haccounts hst hyields => ⟨fun hos hlist => ?_, fun o hos href _ hacct hfirst => ?_⟩⟩
    · have hquiet (epoch : Nat) (state : EpochState) (raised : BitVec 12) :
          handOver (epochSettled epoch state raised s) = running epoch state raised (os.mapIdx entry) := by
        rw [← hrunning]
        exact handOver_quiet (list := s.store.list) hyield (excRestore_all (s := portOpened (epochSettled epoch state raised s)) rfl hkept hlen)
      exact ⟨(startEpoch_done e).trans (hquiet ..), fun r hr => (startEpoch_failed hstart e hr).trans (hquiet ..)⟩
    · have hdrop : outDropped s.book.accounts [o, p] o = true := by simp [outDropped, hreplaced]
      have hkeep : outDropped s.book.accounts [o, p] p = false := by simp [outDropped, hself, hfirst, hkind]
      have hrestore := excRestore_dropped (s := portOpened (epochSettled e .inUse 0 s)) hos hdrop hkeep hlist
      rw [startEpoch_done, handOver_quiet (s := epochSettled e .inUse 0 s) hyield hrestore, hrunning]
      rfl
    · rw [startEpoch_done]
      exact handOver_opened (s := epochSettled e .inUse 0 s) haccounts hst hyields hos hlist
    · rw [startEpoch_done]
      exact handOver_transfer (s := epochSettled e .inUse 0 s) haccounts hst hyields hos href hacct hfirst

end Sys2Proof.Machine
end

section
/-! The sending of messages: the one that starts, its end, its errors, and a waiting one that is placed (O28). -/

namespace Sys2Proof.Machine
open Sys2Proof

section
variable {s : State} {m : Msg}

/-! ### The message that is sent first (R74, R76) -/

/-- Lower classes go first, and within a class the message placed first (R76). -/
def Precedes (m x : Msg) : Prop := m.cls.code < x.cls.code ∨ (m.cls = x.cls ∧ m.stamp ≤ x.stamp)

theorem MsgClass.code_injective : Function.Injective MsgClass.code := by
  intro a b
  cases a <;> cases b <;> simp [MsgClass.code]

theorem Precedes.refl (m : Msg) : Precedes m m := .inr ⟨rfl, le_rfl⟩

theorem Precedes.trans {a b c : Msg} (hab : Precedes a b) (hbc : Precedes b c) : Precedes a c := by
  obtain hab | ⟨hab, hab'⟩ := hab <;> obtain hbc | ⟨hbc, hbc'⟩ := hbc
  · exact .inl (hab.trans hbc)
  · exact .inl (hbc ▸ hab)
  · exact .inl (hab ▸ hbc)
  · exact .inr ⟨hab.trans hbc, hab'.trans hbc'⟩

theorem precedes_of_not_earlier {a x : Msg} (h : ¬(x.cls.code < a.cls.code ∨ (x.cls = a.cls ∧ x.stamp < a.stamp))) : Precedes a x := by
  obtain ⟨hclass, hstamp⟩ := not_or.1 h
  obtain hlt | heq := (not_lt.1 hclass).lt_or_eq
  · exact .inl hlt
  · have hcls : a.cls = x.cls := MsgClass.code_injective heq
    exact .inr ⟨hcls, not_lt.1 fun hlt => hstamp ⟨hcls.symm, hlt⟩⟩

/-- The first message of a list is the earlier of its first two, or one further on that is earlier still. -/
theorem firstMsg_cons_cons (a x : Msg) (xs : List Msg) : firstMsg (a :: x :: xs) =
    firstMsg ((if x.cls.code < a.cls.code ∨ (x.cls = a.cls ∧ x.stamp < a.stamp) then x else a) :: xs) := by
  simp only [firstMsg, List.foldl_cons]
  split <;> rfl

theorem firstMsg_cons_spec (a : Msg) (xs : List Msg) (h : firstMsg (a :: xs) = some m) : m ∈ a :: xs ∧ ∀ x ∈ a :: xs, Precedes m x := by
  induction xs generalizing a with
  | nil =>
    obtain rfl : a = m := Option.some.inj h
    simpa using Precedes.refl a
  | cons x xs ih =>
    rw [firstMsg_cons_cons] at h
    split at h
    · next hearlier =>
      obtain ⟨hmem, hfirst⟩ := ih x h
      have hxa : Precedes x a := hearlier.imp_right fun ⟨hcls, hstamp⟩ => ⟨hcls, hstamp.le⟩
      exact ⟨.tail _ hmem, List.forall_mem_cons.2 ⟨(hfirst x List.mem_cons_self).trans hxa, hfirst⟩⟩
    · next hlater =>
      obtain ⟨hmem, hfirst⟩ := ih a h
      obtain ⟨hma, hrest⟩ := List.forall_mem_cons.1 hfirst
      refine ⟨?_, List.forall_mem_cons.2 ⟨hma, List.forall_mem_cons.2 ⟨hma.trans (precedes_of_not_earlier hlater), hrest⟩⟩⟩
      obtain rfl | hm := List.mem_cons.1 hmem
      · exact List.mem_cons_self
      · exact .tail _ (.tail _ hm)

/-- R76: the first message is one of the list, and none of the list goes before it. -/
theorem firstMsg_spec {ms : List Msg} (h : firstMsg ms = some m) : m ∈ ms ∧ ∀ x ∈ ms, Precedes m x := by
  cases ms with
  | nil => exact absurd h nofun
  | cons a xs => exact firstMsg_cons_spec a xs h

/-- R73: at a quiet time the first message starts. -/
theorem quietTime_first (hmay : maySend s.lif = true) (hfirst : firstMsg (s.lif.queue ++ s.lif.reserve) = some m) :
    quietTime s = { s with lif := { s.lif with tx := some ⟨m.stamp, m.onLine s.node.number⟩ } } := by
  simp only [quietTime, hmay, if_true, hfirst]
  rfl

/-! ### The end of a transmission (R74, R75, R80, R82) -/

/-- R75, R80: the message has left its queue, read back whole. -/
def messageSent (m : Msg) (s : State) : State := { s with lif := { s.lif with
  tx := none, queue := s.lif.queue.filter fun x => x.stamp != m.stamp, reserve := s.lif.reserve.filter fun x => x.stamp != m.stamp
  presentT := s.lif.presentT.map fun _ => 0
  cnt := { s.lif.cnt with consecErrors := 0, sent := bump s.lif.cnt.sent } } }

/-- R75: the message has left its queue after its fourth line error. -/
def messageDropped (m : Msg) (s : State) : State := countDropped (dropMsg m (countLineError m s))

theorem loseContention_sending (h : sending s = some m) : loseContention s = { s with lif := { s.lif with
    tx := none, cnt := { s.lif.cnt with contentionLosses := bump s.lif.cnt.contentionLosses } } } := by
  simp only [loseContention, h]
  rfl

theorem sendCompletes_sending (h : sending s = some m) :
    sendCompletes s = if s.lif.leaving = true then messageSent m s else reportSentTo m (messageSent m s) := by
  simp only [sendCompletes, h]
  rfl

/-- R75: a line error ends in LINE FAULT, in a message dropped, which is reported unless a LEAVE waits, or in one more attempt. -/
theorem lineErrs_sending (h : sending s = some m) : lineErrs s =
    if 16 ≤ bump s.lif.cnt.consecErrors then enterLineFault (messageDropped m s)
    else if 3 ≤ m.attempts then
      if s.lif.leaving = true then messageDropped m s else reportDroppedTo m (messageDropped m s)
    else countLineError m s := by
  simp only [lineErrs, h]
  rfl

theorem lineErrs_sixteenth (h : sending s = some m) (he : s.lif.cnt.consecErrors = 15) : lineErrs s = enterLineFault (messageDropped m s) := by
  rw [lineErrs_sending h, if_pos (by rw [he]; decide)]

/-- Before the sixteenth error in a row the errors in a row count one by one. -/
theorem lineErrs_early (h : sending s = some m) (he : s.lif.cnt.consecErrors < 15) : lineErrs s =
    if 3 ≤ m.attempts then
      if s.lif.leaving = true then messageDropped m s else reportDroppedTo m (messageDropped m s)
    else countLineError m s := by
  rw [lineErrs_sending h, if_neg (by rw [bump_of_lt (by omega)]; omega)]

/-- R75: a line error before the sixteenth in a row: the message's attempts and the counters rise. -/
def attemptFailed (m : Msg) (s : State) : State :=
  let rise (l : List Msg) : List Msg := l.map fun x => if x.stamp = m.stamp then { x with attempts := x.attempts + 1 } else x
  { s with lif := { s.lif with
    tx := none, queue := rise s.lif.queue, reserve := rise s.lif.reserve
    cnt := { s.lif.cnt with lineErrors := bump s.lif.cnt.lineErrors, consecErrors := s.lif.cnt.consecErrors + 1 } } }

theorem countLineError_early (he : s.lif.cnt.consecErrors < 15) (m : Msg) : countLineError m s = attemptFailed m s := by
  have hbump : bump s.lif.cnt.consecErrors = s.lif.cnt.consecErrors + 1 := bump_of_lt (by omega)
  rw [attemptFailed, ← hbump]
  rfl

theorem messageDropped_early (he : s.lif.cnt.consecErrors < 15) (m : Msg) :
    messageDropped m s = countDropped (dropMsg m (attemptFailed m s)) := by
  rw [messageDropped, countLineError_early he]

/-- R81: the sixteenth line error in a row takes the line to LINE FAULT, whatever the message's attempts. -/
theorem enterLineFault_messageDropped (he : s.lif.cnt.consecErrors = 15) (hrun : s.sys.phase = .running) (m : Msg) :
    enterLineFault (messageDropped m s) = lineDown (lineEmptied .lineFault .lineFault { s.lif with
      cnt := { s.lif.cnt with lineErrors := bump s.lif.cnt.lineErrors, consecErrors := 16, dropped := bump s.lif.cnt.dropped } }) s := by
  have hcount : (messageDropped m s).lif.cnt = { s.lif.cnt with
      lineErrors := bump s.lif.cnt.lineErrors, consecErrors := 16, dropped := bump s.lif.cnt.dropped } := by
    simp only [messageDropped, countDropped, onLineCounters, dropMsg, countLineError, onLif_lif, he]
    rfl
  have hdown : enterLineFault (messageDropped m s) =
      lineDown (lineEmptied .lineFault .lineFault { s.lif with cnt := (messageDropped m s).lif.cnt }) s :=
    enterDown_eq_lineDown (s := messageDropped m s) .lineFault hrun nofun
  rw [hdown, hcount]

/-! ### The reports to the blocks (R79, R95, R104) -/

theorem reportSentTo_silent (hexc : m.block ≠ .exc) (hjoin : m.block = .lif → ∀ r g n ep, m.body ≠ .join r g n ep) : reportSentTo m s = s := by
  unfold reportSentTo
  split
  · next h => exact absurd h hexc
  · next h =>
    unfold joinSent
    split
    · next hb => exact (hjoin h _ _ _ _ hb).elim
    · rfl
  · rfl

theorem reportDroppedTo_silent (hexc : m.block ≠ .exc) (hjoin : m.block = .lif → ∀ r g n ep, m.body ≠ .join r g n ep) :
    reportDroppedTo m s = s := by
  unfold reportDroppedTo
  split
  · next h => exact absurd h hexc
  · next h hb => exact (hjoin h _ _ _ _ hb).elim
  · rfl

/-- R79: the JOIN of an ANNOUNCE sent: the clash window starts. -/
theorem reportSentTo_join {r : Option Role} {g n ep : Nat} (hlif : m.block = .lif) (hbody : m.body = .join r g n ep)
    (hstate : s.lif.state = .announce) : reportSentTo m s = { s with lif := { s.lif with clashT := some 200 } } := by
  simp only [reportSentTo, hlif, joinSent, hbody]
  exact if_pos hstate

/-- R79: the JOIN of an ANNOUNCE dropped: LINE FAULT. -/
theorem reportDroppedTo_join {r : Option Role} {g n ep : Nat} (hlif : m.block = .lif) (hbody : m.body = .join r g n ep)
    (hstate : s.lif.state = .announce) : reportDroppedTo m s = enterLineFault s := by
  simp only [reportDroppedTo, hlif, hbody]
  exact if_pos hstate

section
variable {e : Entry} (hexc : m.block = .exc) (hfind : findEntry s m.seq = some e) (htok : e.tok = m.tok)
include hexc hfind htok

/-- R95: a request sent: the answer timeout of its entry starts. -/
theorem reportSentTo_request (hstate : e.state = .sent) : reportSentTo m s = putEntry { e with deadline := some 150 } s := by
  simp [reportSentTo, hexc, reportSent, hfind, htok, hstate]

/-- R104: a LOCATE sent: the collection window of its search opens. -/
theorem reportSentTo_locate {second : Bool} {homes : List Nat} {tens : Option Nat} (hstate : e.state = .unresolved)
    (hsearch : e.search = some (.placing second homes tens)) :
    reportSentTo m s = putEntry { e with search := some (.window second homes tens 150) } s := by
  simp [reportSentTo, hexc, reportSent, hfind, htok, hstate, locatePlaced, hsearch]

/-- R95: a request dropped: it is sent again, or its fourth send counts as a timeout. -/
theorem reportDroppedTo_request (hstate : e.state = .sent) : reportDroppedTo m s = if e.sends < 4 then sendEntry e s else timedOut e s := by
  simp [reportDroppedTo, hexc, reportDropped, hfind, htok, hstate]

/-- R104: a LOCATE dropped is placed again. -/
theorem reportDroppedTo_locate {second : Bool} {homes : List Nat} {tens : Option Nat} (hstate : e.state = .unresolved)
    (hsearch : e.search = some (.placing second homes tens)) : reportDroppedTo m s = placeLocate e second homes tens s := by
  simp [reportDroppedTo, hexc, reportDropped, hfind, htok, hstate, locatePlaced, hsearch]

end

/-! ### A request of the EXC on the line (R95, R104, R113) -/

/-- R95, R113: a request of an entry stands in the send queue under the next send token, and counts as a send. -/
def requestSent (e : Entry) (d : Nat) (b : ReqBody) (s : State) : State :=
  queued (newMsg .request d e.seq (.request e.account b) .exc s.exc.tok) (putEntry e { s with exc := { s.exc with
    tok := s.exc.tok + 1, cnt := { s.exc.cnt with sends := bump s.exc.cnt.sends } } })

@[simp] theorem requestSent_entries (e : Entry) (d : Nat) (b : ReqBody) (s : State) :
    (requestSent e d b s).exc.entries = setEntryIn e s.exc.entries := rfl

theorem placeRequest_open (h : LineOpen s) (m : Msg) : placeRequest m s = countSend (queued m s) := by
  simp only [placeRequest, placingOf_active h.1 h.2]
  rfl

/-- R95: the request of an entry with another node for destination, sent while the send queue takes it. -/
theorem sendEntry_line {e : Entry} {d : Nat} (hdest : e.dest = some d) (hself : d ≠ s.node.number) (ho : LineOpen s) :
    sendEntry e s = requestSent { e with state := .sent, sends := e.sends + 1, deadline := none, tok := s.exc.tok } d e.body s := by
  have hself : d ≠ s.self := hself
  simp only [sendEntry, hdest, if_neg hself, placingOf_active ho.1 ho.2]
  exact placeRequest_open (s := putEntry _ (takeToken s)) ho _

/-- R104: a LOCATE placed while the send queue takes it. -/
theorem placeLocate_line (e : Entry) (second : Bool) (homes : List Nat) (tens : Option Nat) (ho : LineOpen s) :
    placeLocate e second homes tens s =
      requestSent { e with search := some (.placing second homes tens), tok := s.exc.tok } 0 .locate s :=
  placeRequest_open (s := putEntry _ (takeToken s)) ho _

/-! ### A request without an answer after its fourth send (R96, R100) -/

/-- R96, R100: the counts of a fourth send without an answer. -/
def noAnswerCounted (s : State) : State := { s with exc := { s.exc with
  cnt := { s.exc.cnt with timeouts := bump s.exc.cnt.timeouts, failed := bump s.exc.cnt.failed } } }

theorem timedOut_plain {e : Entry} (hsends : 4 ≤ e.sends) (hpost : e.isPost = false) :
    timedOut e s = unitOutcome e (.failed .noAnswer) (freePlace e.seq (noAnswerCounted s)) := by
  rw [timedOut, if_neg (not_lt.2 hsends)]
  unfold failEntry
  split
  · next hbody => simp [Entry.isPost, hbody, ReqBody.isPost] at hpost
  · rfl

/-- R100, R102: a posting that no unit waits for any more becomes FAILED, and stays in the table. -/
theorem unitOutcome_discarded {e : Entry} (hout : unitInService s e.ref = false) (hfind : findEntry s e.seq = some e)
    (hstate : e.state = .failed) (o : ExcOut) : unitOutcome e o s = s := by
  simp [unitOutcome, hout, placeOutRemoval, hfind, hstate]

/-- R100: what the failure of a posting leaves before its unit is told. -/
def postFailed (e : Entry) (p : Posting) (s : State) : State :=
  raise .postingFailed (captureFailure e p .noAnswer
    (putEntry { e with state := .failed, last := some .noAnswer, deadline := none, tok := 0 } (noAnswerCounted s)))

theorem timedOut_post {e x : Entry} {p : Posting} (hsends : 4 ≤ e.sends) (hbody : e.body = .post p) (hfind : findEntry s e.seq = some x)
    (hout : unitInService s e.ref = false) : timedOut e s = postFailed e p s := by
  have hfail : timedOut e s = unitOutcome { e with state := .failed, last := some .noAnswer, deadline := none, tok := 0 }
      (.failed .noAnswer) (postFailed e p s) := by
    rw [timedOut, if_neg (not_lt.2 hsends)]
    unfold failEntry
    split
    · next q hq =>
      obtain rfl : p = q := ReqBody.post.inj (hbody.symm.trans hq)
      rfl
    · next hne => exact (hne p hbody).elim
  have hrole : (postFailed e p s).port.role = s.port.role := by simp [postFailed, captureFailure, putEntry, refreshReady, noAnswerCounted]
  rw [hfail, unitOutcome_discarded (e := { e with state := .failed, last := some .noAnswer, deadline := none, tok := 0 }) _ _ rfl]
  · simp only [unitInService, State.inService, hrole] at hout ⊢
    exact hout
  · have hput := findEntry_putEntry (s := noAnswerCounted s)
      (e' := { e with state := .failed, last := some .noAnswer, deadline := none, tok := 0 }) hfind
    simpa only [findEntry, postFailed, raise_exc, captureFailure, onExc_exc] using hput

/-! ### A waiting message is placed (R76, R113, R132) -/

/-- The entry whose answer was placed has ended (R23, R133). -/
theorem endHand_eq (e : Ends) (s : State) : endHand e s = { s with
    book := { s.book with hand := if e = .bookHand then none else s.book.hand }
    wgu := { s.wgu with lotHand := if e = .lotHand then none else s.wgu.lotHand } } := by
  cases e <;> rfl

/-- The waiting message stands in the send queue. -/
def waitingPlaced (w : Waiting) (rest : List Waiting) (s : State) : State := { s with lif := { s.lif with
  wait := rest, queue := insertMsg { w.msg with stamp := s.lif.stamp } s.lif.queue, stamp := s.lif.stamp + 1 } }

theorem placeWaiting_room {w : Waiting} {rest : List Waiting} (hstate : s.lif.state = .active) (hroom : s.lif.queue.length < 24)
    (hwait : s.lif.wait = w :: rest) : placeWaiting s = endHand w.ends (notePlaced w.msg (waitingPlaced w rest s)) := by
  simp only [placeWaiting, hwait, State.lineActive, hstate, hroom, decide_true]
  rfl

theorem notePlaced_plain (hreq : ∀ a b, m.body ≠ .request a b) (hlot : ∀ d, m.body ≠ .lot d) : notePlaced m s = s := by
  unfold notePlaced
  split
  · next h => exact (hreq _ _ h).elim
  · next h => exact (hlot _ h).elim
  · rfl

theorem notePlaced_request {a : Option Nat} {b : ReqBody} (h : m.body = .request a b) : notePlaced m s = countSend s := by
  simp only [notePlaced, h]

/-- R132: a LOT notice whose lot has gone, or is offered no more. -/
theorem notePlaced_notOffered {d : LotDesc} (h : m.body = .lot d) (hl : ∀ l, findLot s d.id.number = some l → l.state ≠ .offered) :
    notePlaced m s = s := by
  simp only [notePlaced, h]
  cases hf : findLot s d.id.number with
  | none => rfl
  | some l => simp [hl l hf, decideNoRing, hf]

/-- R132: a LOT notice of an OFFERED lot. -/
theorem notePlaced_offered {d : LotDesc} {l : Lot} (h : m.body = .lot d) (hf : findLot s d.id.number = some l) (hl : l.state = .offered)
    (hrun : s.sys.phase = .running) : notePlaced m s =
      ringDecided { l with offer := some 0 } { s with wgu := { s.wgu with lots := putLotIn { l with offer := some 0 } s.wgu.lots } } := by
  obtain ⟨hmem, hnum⟩ := findLot_number hf
  have hput : findLot (putLot { l with offer := some 0 } s) d.id.number = some { l with offer := some 0 } := by
    rw [← hnum]
    exact findLot_putLotIn (l := { l with offer := some 0 }) (.inl hmem)
  simp only [notePlaced, h, hf, if_pos hl]
  exact decideNoRing_eq_ringDecided hput hl hrun

/-! ### What a line error does while the errors in a row are few (R75, R96, R100) -/

section
variable (hsend : sending s = some m) (hearly : s.lif.cnt.consecErrors < 15)
include hsend hearly

theorem lineErrs_again (hattempts : m.attempts < 3) : lineErrs s = attemptFailed m s := by
  rw [lineErrs_early hsend hearly, if_neg (by omega), countLineError_early hearly]

/-- R75, R82: the fourth error of a message while a LEAVE waits: nothing is reported. -/
theorem lineErrs_leaving (hattempts : 3 ≤ m.attempts) (hleave : s.lif.leaving = true) :
    lineErrs s = countDropped (dropMsg m (attemptFailed m s)) := by
  rw [lineErrs_early hsend hearly, if_pos hattempts, if_pos hleave, messageDropped_early hearly]

/-- R75: the fourth error of a message drops it, and the block that placed it is told. -/
theorem lineErrs_reported (hattempts : 3 ≤ m.attempts) (hleave : s.lif.leaving = false) :
    lineErrs s = reportDroppedTo m (countDropped (dropMsg m (attemptFailed m s))) := by
  rw [lineErrs_early hsend hearly, if_pos hattempts, if_neg (by simp [hleave]), messageDropped_early hearly]

end

/-- R100: the posting's entry stays, FAILED, and the empty failure capture takes it. -/
theorem postFailed_spec {e : Entry} {p : Posting} (hrun : s.sys.phase = .running) (hcapture : s.exc.capture = none) :
    (postFailed e p s).port.flags = s.port.flags ||| flagBit .postingFailed ∧
    (postFailed e p s).exc.capture = some ⟨e.seq, p.kind, p.account, e.dest.getD 0, p.id, .noAnswer⟩ ∧
    (postFailed e p s).exc.entries = setEntryIn { e with state := .failed, last := some .noAnswer, deadline := none, tok := 0 } s.exc.entries ∧
    (postFailed e p s).exc.cnt = (noAnswerCounted s).exc.cnt ∧ (postFailed e p s).lif = s.lif := by
  rw [postFailed, raise_running]
  · refine ⟨rfl, ?_, rfl, rfl, rfl⟩
    simp only [captureFailure, onExc_exc, putEntry, refreshReady, noAnswerCounted, hcapture]
  · exact hrun

end

/-- Settles O28: the first message by class and stamp; the message being sent by the report that its end makes; a waiting message by what its
placing is noted as. -/
theorem lineSends : Obligations.LineSends := by
  intro s
  refine ⟨fun m hmay hfirst => ⟨congrArg Host.Outcome.next (quietTime_first hmay hfirst), firstMsg_spec hfirst⟩, fun m hsend => ?_,
    fun w rest hstate hroom hwait hrun => ?_⟩
  · intro rest rise
    have hcomplete (hleave : s.lif.leaving = false) : sendCompletes s = reportSentTo m (messageSent m s) := by
      rw [sendCompletes_sending hsend, if_neg (by simp [hleave])]
    refine ⟨congrArg Host.Outcome.next (loseContention_sending hsend), fun hleave => ?_, fun hearly => ?_, fun hleave => ?_,
      fun hlast hrun => ?_⟩
    · refine ⟨fun hexc hjoin => ?_, fun r g n ep hlif hbody hann => ?_, fun e hexc hfind htok => ⟨fun hst => ?_,
        fun second homes tens hst hsearch => ?_⟩⟩ <;> refine congrArg Host.Outcome.next ((hcomplete hleave).trans ?_)
      · exact reportSentTo_silent hexc hjoin
      · exact reportSentTo_join hlif hbody hann
      · exact reportSentTo_request (s := messageSent m s) hexc hfind htok hst
      · exact reportSentTo_locate (s := messageSent m s) hexc hfind htok hst hsearch
    · refine ⟨fun hattempts => congrArg Host.Outcome.next (lineErrs_again hsend hearly hattempts), fun hattempts => ?_⟩
      intro out
      have hreport (hleave : s.lif.leaving = false) : lineErrs s = reportDroppedTo m out :=
        lineErrs_reported hsend hearly hattempts hleave
      refine ⟨fun hsilent => congrArg Host.Outcome.next ?_, fun r g n ep hlif hbody hleave hann hrun => congrArg Host.Outcome.next ?_,
        fun e hexc hleave hfind hseq htok => ?_⟩
      · cases hleave : s.lif.leaving with
        | true => exact lineErrs_leaving hsend hearly hattempts hleave
        | false =>
          obtain ⟨hexc, hjoin⟩ := hsilent.resolve_right (by simp [hleave])
          exact (hreport hleave).trans (reportDroppedTo_silent hexc hjoin)
      · exact (hreport hleave).trans ((reportDroppedTo_join (s := out) hlif hbody hann).trans
          (enterDown_eq_lineDown (s := out) .lineFault hrun nofun))
      · have hrequest (hst : e.state = .sent) : lineErrs s = if e.sends < 4 then sendEntry e out else timedOut e out :=
          (hreport hleave).trans (reportDroppedTo_request (s := out) hexc hfind htok hst)
        refine ⟨fun d hst hdest hself hsends hopen => congrArg Host.Outcome.next ?_, fun hst hsends hpost => congrArg Host.Outcome.next ?_,
          fun p hst hsends hbody hrun hout hcapture => ⟨postFailed e p out, congrArg Host.Outcome.next ?_, postFailed_spec (s := out) hrun hcapture⟩,
          fun second homes tens hst hsearch hopen => congrArg Host.Outcome.next ?_⟩
        · rw [hrequest hst, if_pos hsends]
          exact sendEntry_line (s := out) hdest hself hopen
        · rw [hrequest hst, if_neg (not_lt.2 hsends)]
          exact timedOut_plain (s := out) hsends hpost
        · rw [hrequest hst, if_neg (not_lt.2 hsends)]
          exact timedOut_post (s := out) hsends hbody (hseq ▸ hfind) hout
        · exact (hreport hleave).trans ((reportDroppedTo_locate (s := out) hexc hfind htok hst hsearch).trans
            (placeLocate_line (s := out) e second homes tens hopen))
    · refine congrArg Host.Outcome.next ?_
      rw [sendCompletes_sending hsend, if_pos hleave]
      rfl
    · exact congrArg Host.Outcome.next ((lineErrs_sixteenth hsend hlast).trans (enterLineFault_messageDropped hlast hrun m))
  · intro placed ends
    have hends {t : State} (ht : notePlaced w.msg placed = t) : ends t := by
      refine congrArg Host.Outcome.next ((placeWaiting_room hstate hroom hwait).trans ?_)
      rw [← endHand_eq, ← ht]
      rfl
    refine ⟨fun hreq hlot => hends (notePlaced_plain hreq hlot), fun a b hbody => hends (notePlaced_request hbody),
      fun d hbody => ⟨fun hl => hends (notePlaced_notOffered (s := placed) hbody hl), fun l hf hl => hends ?_⟩⟩
    exact notePlaced_offered (s := placed) hbody hf hl hrun

end Sys2Proof.Machine
end

section
/-! The node leaves the line (O27), its PRESENT, and a peer that is heard no more (O29). -/

namespace Sys2Proof.Machine
open Sys2Proof

section
variable {s : State}

/-! ### LEAVE (R82) -/

/-- R82: the node is off the line: the LIF holds no peer and the EXC no home map, and the other blocks have been told. -/
def lineLeft (s : State) : State :=
  lineDown { lineEmptied .offline .left s.lif with leaving := false, peers := [] } { s with exc := { s.exc with homeMap := [] } }

theorem leaveNow_running (hrun : s.sys.phase = .running) : leaveNow s = lineLeft s := by
  let emptied : State := { s with lif := { s.lif with leaving := false, peers := [] }, exc := { s.exc with homeMap := [] } }
  have henter : leaveNow s = enterDown .offline .left emptied := by
    simp only [leaveNow, enterDown, emptyQueues, foldl_endHand]
    rfl
  exact henter.trans (enterDown_eq_lineDown (s := emptied) .left hrun nofun)

/-- What LEAVE does to each block before a WEIGH ends and the flag is raised. -/
def leftButWeigh (s : State) : State :=
  let waited (e : Ends) : Bool := s.lif.wait.any fun w => w.ends == e
  { s with
    lif := { lineEmptied .offline .left s.lif with leaving := false, peers := [] }
    exc := { s.exc with homeMap := [], entries := s.exc.entries.map (entryLineDown s.exc.entries), ready := [] }
    book := { s.book with
      wait := s.book.wait.filter fun r => !isHandOver r, hand := if waited .bookHand then none else s.book.hand }
    wgu := { s.wgu with lotHand := if waited .lotHand then none else s.wgu.lotHand } }

theorem lineLeft_eq (s : State) : lineLeft s = flagged .lineState (weighLineDown (leftButWeigh s)) := rfl

theorem readEnded_weigh (w : Wgu) : (readEnded w).weigh = w.weigh := by unfold readEnded; split <;> rfl

/-- The end of a read leaves the fields that it does not name. -/
theorem readEnded_lotHand (w : Wgu) (h : Option LotReq) : readEnded { w with lotHand := h } = { readEnded w with lotHand := h } := by
  unfold readEnded; split <;> rfl

theorem readEnded_weighEnded (w : Wgu) (r : Option WeighResult) (c : WguCounters) :
    readEnded { w with weigh := none, result := r, cnt := c } = { readEnded w with weigh := none, result := r, cnt := c } := by
  unfold readEnded; split <;> rfl

/-- An answer carried out stands beside the WEIGH that the line's going down ends. -/
theorem weighLineDown_carryAnswer (s : State) : weighLineDown (carryAnswer s) = carryAnswer (weighLineDown s) := by
  have hcnt (w : Wgu) : (readEnded w).cnt = w.cnt := by unfold readEnded; split <;> rfl
  simp only [carryAnswer_eq, weighLineDown, readEnded_weigh]
  rcases s.wgu.weigh with _ | ⟨boat, _, _, _, _, _, _ | _ | _⟩
  · rfl
  all_goals by_cases hrole : s.port.role = some .scale
  all_goals simp [hrole, dropAsk, readEnded_weighEnded, hcnt]

theorem lineLeft_carryAnswer (s : State) : lineLeft (carryAnswer s) = carryAnswer (lineLeft s) := by
  have hemptied : leftButWeigh (carryAnswer s) = carryAnswer (leftButWeigh s) := by
    have hhand : (readEnded s.wgu).lotHand = s.wgu.lotHand := by unfold readEnded; split <;> rfl
    simp only [carryAnswer_eq, leftButWeigh, readEnded_lotHand, hhand]
  have hflag (t : State) : flagged .lineState (carryAnswer t) = carryAnswer (flagged .lineState t) := by
    simp only [carryAnswer_eq, flagged]
  rw [lineLeft_eq, hemptied, weighLineDown_carryAnswer, hflag, lineLeft_eq]

theorem exec_leave {t : State} (htaken : Taken s) (h : takeLeave (carryAnswer s) = carryAnswer t) :
    exec (.leave true) s = .next (answered .done .none t) :=
  congrArg Host.Outcome.next (frame_effect htaken none (.inl rfl) _ _ _ (by rw [h]; rfl))

/-- Settles O27: by the line state and the transmission in progress. -/
theorem leaveGoesOffline : Obligations.LeaveGoesOffline := by
  intro s hrun gone
  have hgone : leaveNow (carryAnswer s) = carryAnswer gone := by
    rw [leaveNow_running (by rw [carryAnswer_eq]; exact hrun)]
    exact lineLeft_carryAnswer s
  have hlif : (carryAnswer s).lif = s.lif := by rw [carryAnswer_eq]
  refine ⟨fun htaken => ⟨fun hoff => ?_, fun hon htx => ?_, fun hon htx => ?_⟩, fun hleave => congrArg Host.Outcome.next ?_⟩
  · refine exec_leave htaken ?_
    rw [takeLeave, hlif, if_pos hoff]
  · refine exec_leave htaken ?_
    rw [takeLeave, hlif, if_neg hon, if_pos (by rw [htx]; rfl), hgone]
  · refine exec_leave htaken ?_
    rw [takeLeave, hlif, if_neg hon, if_neg (by simp [Option.isSome_iff_ne_none.1 htx]), carryAnswer_eq, carryAnswer_eq]
    rfl
  · rw [leaveDrained, if_pos hleave, leaveNow_running hrun]
    rfl

/-! ### PRESENT (R80) -/

theorem presentDue_places (htimer : s.lif.presentT = some 10000) (hline : LineOpen s) (hqueue : s.lif.queue.any isPresent = false)
    (hwait : (s.lif.wait.any fun w => isPresent w.msg) = false) : presentDue s = enqueueMsg (presentMsg s) s := by
  simp only [presentDue, htimer, State.lineActive, hline.1, hqueue, hwait]
  exact placeMsg_active .nothing hline.1 hline.2

/-! ### The age of a peer (R85, R132) -/

/-- R85: a peer has left the list, and with it the home map entries that name it. -/
def peerGone (node : Nat) (s : State) : State := { s with
  lif := { s.lif with
    peers := s.lif.peers.filter fun x => x.node != node
    cnt := { s.lif.cnt with peersRemoved := bump s.lif.cnt.peersRemoved } }
  exc := { s.exc with homeMap := s.exc.homeMap.filter fun e => e.2 != node } }

section
variable {node : Nat} {p : Peer} (hpeer : findPeer s.lif.peers node = some p)
include hpeer

theorem peerExpires_young (hage : p.age < 35000) : peerExpires node s = s := by
  simp only [peerExpires, hpeer, if_pos hage]

theorem peerExpires_old (hage : 35000 ≤ p.age) : peerExpires node s = wguPeerRemoved (peerGone node s) := by
  simp only [peerExpires, hpeer, if_neg (not_lt.2 hage)]
  rfl

end

theorem wguPeerRemoved_other (hrole : s.port.role ≠ some .scale) : wguPeerRemoved s = s := by
  simp [wguPeerRemoved, State.inService, hrole]

/-- The OFFERED lots of a table without repeated numbers are each found under its number. -/
theorem findLot_of_offered (hn : (s.wgu.lots.map (·.number)).Nodup) :
    ∀ l ∈ s.wgu.lots.filter (fun l => l.state == .offered), findLot s l.number = some l ∧ l.state = .offered := by
  intro l hl
  obtain ⟨hmem, hst⟩ := List.mem_filter.1 hl
  exact ⟨find_of_mem_lots hn hmem, by simpa using hst⟩

theorem nodup_offered (hn : (s.wgu.lots.map (·.number)).Nodup) :
    ((s.wgu.lots.filter fun l => l.state == .offered).map (·.number)).Nodup :=
  hn.sublist (List.filter_sublist.map _)

/-- R85, R132: at a SCALE that loses a peer, NO RING of every OFFERED lot is decided afresh. -/
theorem wguPeerRemoved_scale (hrole : s.port.role = some .scale) (hrun : s.sys.phase = .running)
    (hn : (s.wgu.lots.map (·.number)).Nodup) :
    wguPeerRemoved s = (s.wgu.lots.filter fun l => l.state == .offered).foldl (fun t l => ringDecided l t) s := by
  rw [wguPeerRemoved, if_pos (by simp [State.inService, hrole])]
  exact foldl_decideNoRing (nodup_offered hn) hrun (findLot_of_offered hn)

end

/-- Settles O29: the PRESENT timer, and a peer by its age and, for one that leaves, by the role. -/
theorem presentAndPeers : Obligations.PresentAndPeers := by
  intro s without
  refine ⟨fun htimer hactive hroom hqueue hwait => ?_, fun node p hpeer hage hrole => ?_, fun node p hpeer hage hrole hrun hn => ?_,
    fun node p hpeer hage => ?_⟩ <;> refine congrArg Host.Outcome.next ?_
  · exact presentDue_places htimer ⟨hactive, hroom⟩ hqueue hwait
  · exact (peerExpires_old hpeer hage).trans (wguPeerRemoved_other (s := peerGone node s) hrole)
  · exact (peerExpires_old hpeer hage).trans (wguPeerRemoved_scale (s := peerGone node s) hrole hrun hn)
  · exact peerExpires_young hpeer hage

end Sys2Proof.Machine
end

section
/-! JOIN, LISTEN, ANNOUNCE, and the node that becomes ACTIVE (O26). -/

namespace Sys2Proof.Machine
open Sys2Proof

section
variable {s : State}

/-! ### JOIN (R78, R205, R206) -/

/-- R205: the staged configuration is applied whole. -/
def stagedApplied (s : State) : State :=
  { s with port := { s.port with cfg := s.port.cfg.update s.port.staged, staged := {} } }

theorem bringIntoService_unchanged (h : s.port.role.isSome = true ∨ s.port.cfg.role = none) : bringIntoService s = s := by
  unfold bringIntoService
  split
  · next hrole hcfg => simp [hrole, hcfg] at h
  · rfl

theorem applyStaged_unchanged (h : s.port.role.isSome = true ∨ (stagedApplied s).port.cfg.role = none) : applyStaged s = stagedApplied s :=
  bringIntoService_unchanged (s := stagedApplied s) h

/-- R78: the rate and the errors in a row, which every accepted JOIN takes. -/
def rateTaken (s : State) : State :=
  { s with lif := { s.lif with rate := s.port.cfg.lineRate, cnt := { s.lif.cnt with consecErrors := 0 } } }

theorem joinAccepted_numbering (hnum : s.lif.numbering = true) : joinAccepted s = rateTaken s := by
  rw [joinAccepted]
  exact if_pos hnum


/-- R206: without a number its commit comes first. -/
theorem joinAccepted_unnumbered (hnum : s.lif.numbering = false) (hself : s.node.number = 0) (hlist : ListOpen s) :
    joinAccepted s = listed ⟨.number, .group [.node (.number (s.port.cfg.nodeNumber.getD 0))]⟩
      ((rateTaken s).onLif fun l => { l with numbering := true }) := by
  have hno : ¬ (rateTaken s).lif.numbering = true := by simp [rateTaken, hnum]
  rw [joinAccepted]
  exact (if_neg hno).trans ((if_pos hself).trans
    (placeGroup_room (s := (rateTaken s).onLif fun l => { l with numbering := true }) hlist.1 hlist.2 nofun))

/-- R79, R199: every entry to a line state is latched (R199). -/
theorem setLine_running (hrun : s.sys.phase = .running) (st : LineState) (f : Lif → Lif) :
    setLine st (s.onLif f) = flagged .lineState (s.onLif fun l => { f l with state := st }) :=
  raise_running _ _ hrun

/-- R78: a node whose number is fixed enters LISTEN. -/
theorem joinAccepted_fixed (hrun : s.sys.phase = .running) (hnum : s.lif.numbering = false) (hself : s.node.number ≠ 0) :
    joinAccepted s = flagged .lineState ((rateTaken s).onLif fun l => { l with state := .listen, listenT := some 2000 }) := by
  have hno : ¬ (rateTaken s).lif.numbering = true := by simp [rateTaken, hnum]
  have hlisten : joinAccepted s = enterListen (rateTaken s) := by
    rw [joinAccepted]
    exact (if_neg hno).trans (if_neg hself)
  rw [hlisten, enterListen, setLine_running (s := rateTaken s) hrun]
  simp only [flagged, rateTaken, State.onLif, hnum]

theorem joinOwner_online (h : s.lif.state ≠ .offline) : joinOwner s = refuse .notOffline s := if_pos h

section
variable (hoff : s.lif.state = .offline) (hrole : s.port.role.isSome = true ∨ (stagedApplied s).port.cfg.role = none)
include hoff hrole

/-- R78, R205: in OFFLINE a JOIN is judged once the staged configuration is applied. -/
theorem joinOwner_refused {c : PCode} (hc : joinRefusal (stagedApplied s) = some c) : joinOwner s = refuse c (stagedApplied s) := by
  simp only [joinOwner, if_neg (not_not.2 hoff), applyStaged_unchanged hrole, hc]

theorem joinOwner_accepted (hc : joinRefusal (stagedApplied s) = none) : joinOwner s = finish .accepted (joinAccepted (stagedApplied s)) := by
  simp only [joinOwner, if_neg (not_not.2 hoff), applyStaged_unchanged hrole, hc]

end

/-- What a frame that is a JOIN leaves, from what its owner does beside the answer carried out. -/
theorem exec_join {t : State} {c : PCode} (htaken : Taken s) (h : joinOwner (carryAnswer s) = (carryAnswer t, ⟨c, .none⟩)) :
    exec (.join true) s = .next (answered c .none t) :=
  congrArg Host.Outcome.next (frame_effect htaken none (.inl rfl) _ _ _ h)

theorem stagedApplied_carryAnswer (s : State) : stagedApplied (carryAnswer s) = carryAnswer (stagedApplied s) := by
  rw [carryAnswer_eq, carryAnswer_eq]
  rfl

theorem joinRefusal_carryAnswer (s : State) : joinRefusal (carryAnswer s) = joinRefusal s := by
  rw [carryAnswer_eq]
  rfl

section
variable (htaken : Taken s) (hoff : s.lif.state = .offline)
  (hrole : s.port.role.isSome = true ∨ (stagedApplied s).port.cfg.role = none)
include htaken hoff hrole

theorem exec_join_refused {c : PCode} (hc : joinRefusal (stagedApplied s) = some c) :
    exec (.join true) s = .next (answered c .none (stagedApplied s)) := by
  refine exec_join htaken ?_
  rw [joinOwner_refused (s := carryAnswer s) (by rwa [carryAnswer_eq]) (by rwa [stagedApplied_carryAnswer, carryAnswer_eq, carryAnswer_eq])
    (by rwa [stagedApplied_carryAnswer, joinRefusal_carryAnswer]), stagedApplied_carryAnswer]
  rfl

theorem exec_join_accepted {t : State} (hc : joinRefusal (stagedApplied s) = none)
    (h : joinAccepted (carryAnswer (stagedApplied s)) = carryAnswer t) :
    exec (.join true) s = .next (answered .accepted .none t) := by
  refine exec_join htaken ?_
  rw [joinOwner_accepted (s := carryAnswer s) (by rwa [carryAnswer_eq]) (by rwa [stagedApplied_carryAnswer, carryAnswer_eq, carryAnswer_eq])
    (by rwa [stagedApplied_carryAnswer, joinRefusal_carryAnswer]), stagedApplied_carryAnswer, h]
  rfl

end

/-! ### LISTEN (R78, R79) -/

/-- R79: 20 ms of idle line in LISTEN: the JOIN stands in the send queue. -/
theorem listenIdle_listen (hrun : s.sys.phase = .running) (h : s.lif.state = .listen) : listenIdle s =
    enqueueMsg (joinMsg s) (flagged .lineState (s.onLif fun l => { l with state := .announce, listenT := none })) := by
  rw [listenIdle, if_pos h, setLine_running hrun]
  rfl

theorem listenTimesOut_listen (hrun : s.sys.phase = .running) (h : s.lif.state = .listen) (ht : s.lif.listenT = some 0) :
    listenTimesOut s = lineDown (lineEmptied .lineFault .lineFault s.lif) s := by
  rw [listenTimesOut, if_pos ⟨h, by rw [ht]; rfl⟩]
  exact enterDown_eq_lineDown .lineFault hrun nofun

/-! ### The line comes up (R79, R95, R103, R111) -/

/-- R79: the LIF is ACTIVE, before the other blocks are told. -/
def lineEntered (s : State) : State := { s with
  lif := { s.lif with state := .active, lastJoin := .active, clashT := none, presentT := some 0 }
  port := { s.port with flags := s.port.flags ||| flagBit .lineState } }

theorem clashWindowEnds_active (hrun : s.sys.phase = .running) (h : s.lif.state = .announce) (ht : s.lif.clashT = some 0) :
    clashWindowEnds s =
      if (bookLineUp (excLineUp (lineEntered s))).port.role = some .scale then wguLineUp (bookLineUp (excLineUp (lineEntered s)))
      else bookLineUp (excLineUp (lineEntered s)) := by
  have hentered : setLine .active (s.onLif fun l => { l with lastJoin := .active, clashT := none, presentT := some 0 }) = lineEntered s :=
    setLine_running hrun ..
  rw [clashWindowEnds, if_pos ⟨h, by rw [ht]; rfl⟩]
  simp only [becomeActive, hentered, State.inService, beq_iff_eq]

@[simp] theorem markSearch_entries (e : Entry) (s : State) :
    (markSearch e s).exc.entries = setEntryIn { e with search := some (.placing false [] none), tok := 0 } s.exc.entries := rfl

/-- Where no entry waits to be resolved, nothing is. -/
theorem resolveAll_settled (h : ∀ e ∈ s.exc.entries, e.state ≠ .unresolved) : resolveAll s = s := by
  have hnone : s.exc.entries.filter (fun e => e.state == .unresolved) = [] := List.filter_eq_nil_iff.2 fun e he => by simpa using h e he
  rw [resolveAll, hnone]
  rfl

/-- An entry that is not QUEUED and searches for nothing has nothing to send. -/
theorem sendInTurn_settled (h : ∀ e ∈ s.exc.entries, e.state ≠ .queued ∧ e.search = none) (q : Nat) : sendInTurn s q = s := by
  cases hfind : findEntry s q with
  | none => simp only [sendInTurn, hfind]
  | some e =>
    obtain ⟨hstate, hsearch⟩ := h e (findEntry_mem hfind).1
    simp [sendInTurn, hfind, hsearch, mayBeSent, hstate]

theorem excLineUp_settled (h : ∀ e ∈ s.exc.entries, e.state ≠ .unresolved ∧ e.state ≠ .queued ∧ e.search = none) :
    excLineUp s = refreshReady s := by
  have hresolve : resolveAll (refreshReady s) = refreshReady s := resolveAll_settled (s := refreshReady s) fun e he => (h e he).1
  rw [excLineUp, hresolve]
  exact List.foldl_fixed' (sendInTurn_settled (s := refreshReady s) fun e he => (h e he).2) _

/-- R103: an account that neither the book nor the home map knows, and that no other entry searches for, is searched for. -/
theorem resolveWith_searches {e : Entry} {q a : Nat} (start : Entry → State → State) (hfind : findEntry s q = some e)
    (hactive : s.lif.state = .active) (hstate : e.state = .unresolved) (hsearch : e.search = none) (hacct : e.account = some a)
    (hlook : lookFor s e a = .searches) : resolveWith start q s = (start e s, none) := by
  simp [resolveWith, hfind, opens, hsearch, State.lineActive, hactive, hstate, hacct, hlook]

theorem lookFor_searches {e : Entry} {a : Nat} (hbook : accountOf s a = none) (hmap : mapFind s.exc.homeMap a = none)
    (hother : ∀ x ∈ s.exc.entries, x.seq ≠ e.seq → searching x = false) : lookFor s e a = .searches := by
  have hnone : (s.exc.entries.any fun x => x.seq != e.seq && x.account == some a && searching x) = false := by
    refine List.any_eq_false.2 fun x hx => ?_
    by_cases hseq : x.seq = e.seq
    · simp [hseq]
    · simp [hother x hx hseq]
  rw [accountOf] at hbook
  simp [lookFor, hbook, hmap, hnone]

/-! ### What waited for the line (R49, R132) -/

/-- Messages placed one after another change the send queue alone. -/
theorem foldl_queued (f : Nat → Msg) (as : List Nat) (s : State) : ∃ l : Lif, as.foldl (fun t a => queued (f a) t) s = { s with lif := l } ∧
    l.state = s.lif.state ∧ l.wait = s.lif.wait ∧ l.queue.length = s.lif.queue.length + as.length := by
  induction as generalizing s with
  | nil => exact ⟨s.lif, rfl, rfl, rfl, rfl⟩
  | cons a as ih =>
    obtain ⟨l, hfold, hstate, hwait, hlen⟩ := ih (queued (f a) s)
    exact ⟨l, hfold, hstate, hwait, by rw [hlen, List.length_cons, queued, insertMsg_length]; omega⟩

/-- R49, R132: where no entry waits, the OPENED notices and the notices of the OFFERED lots are placed one after another. -/
theorem clashWindowEnds_settled {offered : List Lot} (hrun : s.sys.phase = .running) (h : s.lif.state = .announce) (ht : s.lif.clashT = some 0)
    (hoffered : (if s.port.role = some .scale then s.wgu.lots.filter fun l => l.state == .offered else []) = offered)
    (hentries : ∀ e ∈ s.exc.entries, e.state ≠ .unresolved ∧ e.state ≠ .queued ∧ e.search = none)
    (hn : (s.wgu.lots.map (·.number)).Nodup)
    (hroom : s.lif.queue.length + s.lif.wait.length + s.book.openedWait.length + offered.length ≤ 24) :
    clashWindowEnds s = offered.foldl (fun t l => lotOffered l t)
      { s.book.openedWait.foldl (fun t a => queued (newMsg .notice 0 0 (.opened a) .book 0) t) (refreshReady (lineEntered s)) with
        book := { s.book with openedWait := [] } } := by
  obtain ⟨l, hfold, hstate, hwait, hlen⟩ :=
    foldl_queued (fun a => newMsg .notice 0 0 (.opened a) .book 0) s.book.openedWait (refreshReady (lineEntered s))
  have hopened : bookLineUp (refreshReady (lineEntered s)) =
      { refreshReady (lineEntered s) with lif := l, book := { s.book with openedWait := [] } } := by
    have hplaced := foldl_placeOpened (s := refreshReady (lineEntered s)) (as := s.book.openedWait) rfl
      (show s.lif.queue.length + s.lif.wait.length + s.book.openedWait.length ≤ 24 by omega)
    exact congrArg (State.onBook fun b => { b with openedWait := [] }) (hplaced.trans hfold)
  rw [clashWindowEnds_active hrun h ht, excLineUp_settled (s := lineEntered s) hentries, hopened, hfold]
  split at hoffered <;> subst hoffered
  · next hrole =>
    have hlen' : l.queue.length = s.lif.queue.length + s.book.openedWait.length := hlen
    have hwait' : l.wait = s.lif.wait := hwait
    have hplaces : l.queue.length + l.wait.length + (s.wgu.lots.filter fun l => l.state == .offered).length ≤ 24 := by
      rw [hlen', hwait']
      omega
    exact (if_pos hrole).trans (foldl_offerLot (nodup_offered hn) hrun hstate hplaces (findLot_of_offered (s := s) hn))
  · next hrole => exact if_neg hrole

/-! ### One entry to resolve and one to send (R95, R103, R111) -/

section
variable {x e : Entry} {a d : Nat}

/-- R103: the first of two entries is resolved afresh, and its search begins. -/
theorem resolveAll_pair (hactive : s.lif.state = .active) (hentries : s.exc.entries = [x, e]) (hseq : x.seq < e.seq)
    (hx : x.state = .unresolved) (hsearch : x.search = none) (hacct : x.account = some a) (hbook : accountOf s a = none)
    (hmap : mapFind s.exc.homeMap a = none) (he : e.state = .queued) :
    resolveAll s = markSearch x s := by
  have hfilter : s.exc.entries.filter (fun e => e.state == .unresolved) = [x] := by simp [hentries, hx, he]
  have hfind : findEntry s x.seq = some x := by simp [findEntry, hentries]
  have hlook : lookFor s x a = .searches := by
    refine lookFor_searches hbook hmap fun y hy hne => ?_
    obtain rfl | rfl : y = x ∨ y = e := by simpa [hentries] using hy
    · exact absurd rfl hne
    · simp [searching, he]
  rw [resolveAll, hfilter]
  simp only [List.map_cons, List.map_nil, List.foldl_cons, List.foldl_nil, hfind,
    resolveWith_searches markSearch hfind hactive hx hsearch hacct hlook]

/-- R95: the LOCATE of the search that has just begun, and then the request of the QUEUED entry. -/
theorem sendInTurn_pair {x' : Entry} (hopen : LineOpen s) (hroom : s.lif.queue.length + s.lif.wait.length < 23)
    (hentries : s.exc.entries = [x', e]) (hseq : x'.seq < e.seq) (hx : x'.state = .unresolved) (htok : x'.tok = 0)
    (hsearch : x'.search = some (.placing false [] none)) (he : e.state = .queued) (hnone : e.search = none) (hcommit : e.committing = false)
    (hdest : e.dest = some d) (hself : d ≠ s.node.number) :
    [x'.seq, e.seq].foldl sendInTurn s =
      requestSent { e with state := .sent, sends := e.sends + 1, deadline := none, tok := s.exc.tok + 1 } d e.body
        (requestSent { x' with search := some (.placing false [] none), tok := s.exc.tok } 0 .locate s) := by
  have hlocate : sendInTurn s x'.seq = requestSent { x' with search := some (.placing false [] none), tok := s.exc.tok } 0 .locate s := by
    have hfind : findEntry s x'.seq = some x' := by simp [findEntry, hentries]
    simp only [sendInTurn, hfind, hsearch, htok]
    exact placeLocate_line x' false [] none hopen
  simp only [List.foldl_cons, List.foldl_nil, hlocate]
  generalize ht : requestSent { x' with search := some (.placing false [] none), tok := s.exc.tok } 0 .locate s = t
  have hstand : t.exc.entries = [{ x' with search := some (.placing false [] none), tok := s.exc.tok }, e] := by
    simp [← ht, setEntryIn, hentries, hseq.ne']
  have hfind : findEntry t e.seq = some e := by simp [findEntry, hstand, hseq.ne]
  have hmay : mayBeSent t.exc.entries e = true := by simp [mayBeSent, he, hcommit, hstand, holdsBack, hx]
  have hopen' : LineOpen t := by
    rw [← ht]
    exact ⟨hopen.1, by simp [sendRoom, requestSent, queued, putEntry, refreshReady]; omega⟩
  have htok' : t.exc.tok = s.exc.tok + 1 := by rw [← ht]; rfl
  have hself' : d ≠ t.node.number := by rw [← ht]; exact hself
  rw [← htok', ← sendEntry_line hdest hself' hopen']
  simp only [sendInTurn, hfind, hnone, hmay, if_true]

/-- R95, R103, R111: the line comes up with one entry to resolve and one to send. -/
theorem excLineUp_pair (hactive : s.lif.state = .active) (hroom : s.lif.queue.length + s.lif.wait.length < 23)
    (hentries : s.exc.entries = [x, e]) (hseq : x.seq < e.seq) (hx : x.state = .unresolved) (hsearch : x.search = none)
    (hacct : x.account = some a) (hbook : accountOf s a = none) (hmap : mapFind s.exc.homeMap a = none) (he : e.state = .queued)
    (hnone : e.search = none) (hcommit : e.committing = false) (hdest : e.dest = some d) (hself : d ≠ s.node.number) :
    excLineUp s = requestSent { e with state := .sent, sends := e.sends + 1, deadline := none, tok := s.exc.tok + 1 } d e.body
      (requestSent { x with search := some (.placing false [] none), tok := s.exc.tok } 0 .locate (markSearch x (refreshReady s))) := by
  have hresolve : resolveAll (refreshReady s) = markSearch x (refreshReady s) :=
    resolveAll_pair (s := refreshReady s) hactive hentries hseq hx hsearch hacct hbook hmap he
  have hmarked : (markSearch x (refreshReady s)).exc.entries = [{ x with search := some (.placing false [] none), tok := 0 }, e] := by
    have hstand : (refreshReady s).exc.entries = [x, e] := hentries
    simp [setEntryIn, hstand, hseq.ne']
  have hsend := sendInTurn_pair (s := markSearch x (refreshReady s)) (x' := { x with search := some (.placing false [] none), tok := 0 })
    ⟨hactive, decide_eq_true (show s.lif.queue.length + s.lif.wait.length < 24 by omega)⟩ hroom hmarked hseq hx rfl rfl he hnone hcommit hdest
    hself
  simp only [excLineUp, hresolve, hmarked]
  exact hsend

/-- R49, R132: nothing waits for the line but the requests of the EXC. -/
theorem clashWindowEnds_sends (hrun : s.sys.phase = .running) (h : s.lif.state = .announce) (ht : s.lif.clashT = some 0) {t : State}
    (hsent : excLineUp (lineEntered s) = t) (hopened : t.book.openedWait = []) (hlots : t.wgu.lots = []) :
    clashWindowEnds s = t.onBook fun b => { b with openedWait := [] } := by
  have hbook : bookLineUp t = t.onBook fun b => { b with openedWait := [] } := by
    rw [bookLineUp, hopened]
    rfl
  have hscale : wguLineUp (t.onBook fun b => { b with openedWait := [] }) = t.onBook fun b => { b with openedWait := [] } := by
    rw [wguLineUp, offeredLots, onBook_wgu, hlots]
    rfl
  rw [clashWindowEnds_active hrun h ht, hsent, hbook, hscale, ite_self]

end

end

/-- Settles O26: JOIN by its checks, LISTEN by its timers, and the end of the clash window by what waits for it. -/
theorem joinTowardsActive : Obligations.JoinTowardsActive := by
  intro s hrun
  refine ⟨fun htaken hon => ?_, ?_, fun h => congrArg Host.Outcome.next (listenIdle_listen hrun h),
    fun h ht => congrArg Host.Outcome.next (listenTimesOut_listen hrun h ht), fun h ht => ⟨?_, ?_⟩⟩
  · refine exec_join htaken ?_
    rw [joinOwner_online (by rwa [carryAnswer_eq])]
    rfl
  · intro u htaken hoff hrole
    refine ⟨fun c hc => exec_join_refused htaken hoff hrole hc,
      fun hc hnum hself => exec_join_accepted htaken hoff hrole hc ?_,
      fun hc hnum hself hroom => exec_join_accepted htaken hoff hrole hc ?_,
      fun hc hnum => exec_join_accepted htaken hoff hrole hc ?_⟩
    all_goals rw [carryAnswer_eq, carryAnswer_eq]
    · exact joinAccepted_fixed hrun hnum hself
    · exact joinAccepted_unnumbered hnum hself ⟨htaken.2, hroom⟩
    · exact joinAccepted_numbering hnum
  · intro offered up opened hentries hn hroom
    exact congrArg Host.Outcome.next (clashWindowEnds_settled hrun h ht rfl hentries hn hroom)
  · intro x e a d hopened hlots hentries hseq hx hsearch hacct hbook hmap he hnone hcommit hdest hself hroom
    have hsent := excLineUp_pair (s := lineEntered s) rfl hroom hentries hseq hx hsearch hacct hbook hmap he hnone hcommit hdest hself
    refine ⟨_, congrArg Host.Outcome.next (clashWindowEnds_sends hrun h ht hsent hopened hlots), rfl, ?_, by rw [← hacct]; rfl⟩
    have hstand : (refreshReady (lineEntered s)).exc.entries = [x, e] := hentries
    simp only [onBook_exc, requestSent_entries, markSearch_entries, hstand]
    simp [setEntryIn, hseq.ne, hseq.ne', lineEntered]

end Sys2Proof.Machine
end

section
/-! What a node hears in every line state (O30). -/

namespace Sys2Proof.Machine
open Sys2Proof

/-! ### The bytes of a transmission (section 4.1, R71) -/

section
variable {w : RawLine}

theorem numAt_one {i : Nat} {bs : List Byte} {b : Byte} (h : bs[i]? = some b) : numAt i 1 bs = b.toNat := by
  obtain ⟨hi, rfl⟩ := List.getElem?_eq_some_iff.1 h
  rw [numAt, fieldAt, List.drop_eq_getElem_cons hi, List.take_succ_cons, List.take_zero]
  simp

theorem numAt_one_of_le {i : Nat} {bs : List Byte} (h : bs.length ≤ i) : numAt i 1 bs = 0 := by
  simp [numAt, fieldAt, List.drop_eq_nil_of_le h]

/-- R71 step 1: a transmission that is cut short, before its length or after it, or that has a bad stop bit. -/
theorem checkFails_of_cut
    (h : w.bytes.length < 5 ∨ (∃ n, w.bytes[4]? = some n ∧ w.bytes.length < n.toNat + 7) ∨ w.stopBad = true) : checkFails w = true := by
  obtain hshort | ⟨n, hn, hcut⟩ | hstop := h
  · simp [checkFails, numAt_one_of_le (show w.bytes.length ≤ 4 by omega), show w.bytes.length < 7 by omega]
  · simp [checkFails, numAt_one hn, hcut]
  · simp [checkFails, hstop]

theorem hearGarbled_checkError {s : State} (hon : s.lif.state ≠ .offline) (h : readLine w = .checkError) :
    hearGarbled w s = onLineCounters (fun c => { c with checkErrors := bump c.checkErrors }) s := by
  simp only [hearGarbled, if_neg hon, h]

theorem hearGarbled_formatError {s : State} (hon : s.lif.state ≠ .offline) (h : readLine w = .formatError) :
    hearGarbled w s = onLineCounters (fun c => { c with formatErrors := bump c.formatErrors }) s := by
  simp only [hearGarbled, if_neg hon, h]

theorem hearGarbled_message {s : State} {k : LineKind} {h : Hdr} {body : List Byte} (hr : readLine w = .message k h body) :
    hearGarbled w s = s := by
  simp only [hearGarbled, hr, ite_self]

/-- R71: a transmission that reads as a message is the row of its kind. -/
theorem step_withHeard_message {s : State} {k : LineKind} {h : Hdr} {body : List Byte} (hr : readLine w = .message k h body) :
    step (s.withHeard w) = exec (messageInstr s k h body) s := by
  have hinstr : lineInstr w s = messageInstr s k h body := by simp only [lineInstr, hr]
  simp only [step, State.withHeard, hinstr]

end

/-! ### The header (R71 step 2) -/

/-- The header that the layout and the kinds table ask of a kind: its class in the arbitration code, a source, a sequence, and a destination of
its form. -/
def HeaderFits (k : LineKind) (a b src dst seq : Byte) : Prop :=
  lineKindOf (b.toNat / 64) (b.toNat % 64) = some k ∧ a.toNat = 64 * (b.toNat / 64) + src.toNat ∧ 1 ≤ src.toNat ∧ src.toNat ≤ 62 ∧
    seq.toNat ≤ 31 ∧ if k.toAll then dst = 0 else 1 ≤ dst.toNat ∧ dst.toNat ≤ 62

theorem nodeOk_iff {n : Nat} : nodeOk n = true ↔ 1 ≤ n ∧ n ≤ 62 := by simp [nodeOk]

theorem headerOk_iff {toAll : Bool} {h : Hdr} : headerOk toAll h = true ↔
    (1 ≤ h.src ∧ h.src ≤ 62) ∧ h.seq ≤ 31 ∧ if toAll then h.dst = 0 else 1 ≤ h.dst ∧ h.dst ≤ 62 := by
  cases toAll <;> simp [headerOk, nodeOk_iff, and_assoc]

/-- R74: the arbitration code of a source that a node can have: the class in the two high bits, the source below. -/
theorem eq_arbitrationCode_iff {a : Byte} {c : MsgClass} {src : Nat} (h : src ≤ 62) :
    a = arbitrationCode c src ↔ a.toNat = 64 * c.code + src := by
  have hc : c.code ≤ 3 := by cases c <;> decide
  have hval : (arbitrationCode c src).toNat = 64 * c.code + src := by
    rw [arbitrationCode, BitVec.toNat_ofNat]
    omega
  rw [← BitVec.toNat_inj, hval]

theorem headerFits_iff {k : LineKind} {a b src dst seq : Byte} : HeaderFits k a b src dst seq ↔
    lineKindOf (b.toNat / 64) (b.toNat % 64) = some k ∧ a = arbitrationCode k.cls src.toNat ∧
      headerOk k.toAll ⟨src.toNat, dst.toNat, seq.toNat⟩ = true := by
  have hdst : dst = 0 ↔ dst.toNat = 0 := by rw [← BitVec.toNat_inj]; rfl
  rw [headerOk_iff, ← hdst]
  constructor
  · rintro ⟨hk, ha, hlow, hhigh, hseq, hform⟩
    rw [← (lineKindOf_codes hk).1] at ha
    exact ⟨hk, (eq_arbitrationCode_iff hhigh).2 ha, ⟨hlow, hhigh⟩, hseq, hform⟩
  · rintro ⟨hk, ha, ⟨hlow, hhigh⟩, hseq, hform⟩
    refine ⟨hk, ?_, hlow, hhigh, hseq, hform⟩
    rw [← (lineKindOf_codes hk).1]
    exact (eq_arbitrationCode_iff hhigh).1 ha

section
variable {a b src dst seq n : Byte} {body check : List Byte} (hbody : body.length = n.toNat) (hcheck : check.length = 2)
include hbody hcheck

theorem readLine_unsound (h : check ≠ beBytes 2 (lineCheck (b :: src :: dst :: seq :: n :: body)).toNat) :
    readLine ⟨a, b :: src :: dst :: seq :: n :: body ++ check, false⟩ = .checkError := by
  rw [readLine_whole a b src dst seq n hbody hcheck, if_pos (.inr h)]

variable (hsound : check = beBytes 2 (lineCheck (b :: src :: dst :: seq :: n :: body)).toNat)
include hsound

theorem readLine_misfit (h : ∀ k, ¬ HeaderFits k a b src dst seq) :
    readLine ⟨a, b :: src :: dst :: seq :: n :: body ++ check, false⟩ = .formatError := by
  rw [readLine_whole a b src dst seq n hbody hcheck, if_neg (by simp [hsound])]
  cases hk : lineKindOf (b.toNat / 64) (b.toNat % 64) with
  | none => rfl
  | some k => exact if_neg fun hfit => h k (headerFits_iff.2 ⟨hk, hfit⟩)

theorem readLine_fits {k : LineKind} (h : HeaderFits k a b src dst seq) :
    readLine ⟨a, b :: src :: dst :: seq :: n :: body ++ check, false⟩ = .message k ⟨src.toNat, dst.toNat, seq.toNat⟩ body := by
  obtain ⟨hk, hfit⟩ := headerFits_iff.1 h
  rw [readLine_whole a b src dst seq n hbody hcheck, if_neg (by simp [hsound]), hk]
  exact if_pos hfit

end

/-- Section 4.1: the pairs of class and kind code of the kinds table. -/
theorem lineKindOf_isSome_iff (cls code : Nat) : (lineKindOf cls code).isSome = true ↔
    (cls = 0 ∧ code = 1) ∨ (cls = 1 ∧ 1 ≤ code ∧ code ≤ 2) ∨ (cls = 2 ∧ 1 ≤ code ∧ code ≤ 6) ∨ (cls = 3 ∧ 1 ≤ code ∧ code ≤ 4) := by
  constructor
  · intro h
    obtain ⟨k, hk⟩ := Option.isSome_iff_exists.1 h
    obtain ⟨rfl, rfl⟩ := lineKindOf_codes hk
    cases k <;> decide
  · rintro (⟨rfl, rfl⟩ | ⟨rfl, hlow, hhigh⟩ | ⟨rfl, hlow, hhigh⟩ | ⟨rfl, hlow, hhigh⟩)
    · rfl
    all_goals interval_cases code <;> rfl

/-! ### JOIN, PRESENT and CLASH as bytes (section 4.1) -/

@[simp] theorem beBytes_length (n v : Nat) : (beBytes n v).length = n := by
  induction n generalizing v with
  | zero => rfl
  | succ n ih => simp [beBytes, ih]

theorem foldl_beBytes (n v acc : Nat) :
    (beBytes n v).foldl (fun v b => 256 * v + b.toNat) acc = acc * 256 ^ n + v % 256 ^ n := by
  induction n generalizing v with
  | zero => simp [beBytes, Nat.mod_one]
  | succ n ih =>
    have hbyte : (BitVec.ofNat 8 (v % 256)).toNat = v % 256 := by simp
    rw [beBytes, List.foldl_append, ih, List.foldl_cons, List.foldl_nil, hbyte, Nat.pow_succ', Nat.mod_mul]
    ring

/-- A binary field is read where it stands. -/
theorem numAt_beBytes {bs post : List Byte} (pre : List Byte) (n : Nat) {v : Nat} (hbs : bs = pre ++ beBytes n v ++ post) (hv : v < 256 ^ n) :
    numAt pre.length n bs = v := by
  rw [hbs, numAt, fieldAt, List.append_assoc, List.drop_left, List.take_left' (beBytes_length n v), foldl_beBytes, Nat.mod_eq_of_lt hv,
    Nat.zero_mul, Nat.zero_add]

theorem roleCode_lt (r : Role) : roleCode r < 256 := by cases r <;> decide

section
variable (s : State) (h : Hdr)

theorem messageInstr_join (role : Role) {ring serial epoch : Nat} (hring : ring < 256) (hserial : serial < 281474976710656)
    (hepoch : epoch < 65536) : messageInstr s .join h ((MsgBody.join (some role) ring serial epoch).bytes h.src) =
      .joinMessage h (roleCode role) ring serial epoch := by
  have hbytes : (MsgBody.join (some role) ring serial epoch).bytes h.src =
      beBytes 1 h.src ++ beBytes 1 (roleCode role) ++ beBytes 1 ring ++ beBytes 6 serial ++ beBytes 2 epoch := rfl
  have hrole := numAt_beBytes (post := beBytes 1 ring ++ beBytes 6 serial ++ beBytes 2 epoch) (beBytes 1 h.src) 1
    (hbytes.trans (by simp only [List.append_assoc])) (roleCode_lt role)
  have hring := numAt_beBytes (beBytes 1 h.src ++ beBytes 1 (roleCode role)) 1 (hbytes.trans (List.append_assoc ..)) hring
  have hserial := numAt_beBytes _ 6 hbytes hserial
  have hepoch := numAt_beBytes _ 2 (hbytes.trans (List.append_nil _).symm) hepoch
  simp only [List.length_append, beBytes_length, Nat.reduceAdd] at hrole hring hserial hepoch
  simp only [messageInstr, hrole, hring, hserial, hepoch]

theorem messageInstr_present (role : Role) {ring : Nat} (hring : ring < 256) :
    messageInstr s .present h ((MsgBody.present (some role) ring).bytes h.src) = .present h (roleCode role) ring := by
  have hbytes : (MsgBody.present (some role) ring).bytes h.src = beBytes 1 (roleCode role) ++ beBytes 1 ring := rfl
  have hrole := numAt_beBytes [] 1 hbytes (roleCode_lt role)
  have hring := numAt_beBytes _ 1 (hbytes.trans (List.append_nil _).symm) hring
  simp only [List.length_nil, beBytes_length] at hrole hring
  simp only [messageInstr, hrole, hring]

theorem messageInstr_clash {n j serial : Nat} (hn : n < 256) (hj : j < 281474976710656) (hserial : serial < 281474976710656) :
    messageInstr s .clash h ((MsgBody.clash n j serial).bytes h.src) = .clash h n j serial := by
  have hbytes : (MsgBody.clash n j serial).bytes h.src = beBytes 1 n ++ beBytes 6 j ++ beBytes 6 serial := rfl
  have hn := numAt_beBytes [] 1 (hbytes.trans (List.append_assoc ..)) hn
  have hj := numAt_beBytes (beBytes 1 n) 6 hbytes hj
  have hserial := numAt_beBytes _ 6 (hbytes.trans (List.append_nil _).symm) hserial
  simp only [List.length_nil, List.length_append, beBytes_length, Nat.reduceAdd] at hn hj hserial
  simp only [messageInstr, hn, hj, hserial]

end

/-! ### Hearing a message (R71 steps 2 to 5) -/

section
variable {s : State}

/-- R87: a message for another node is counted not addressed, and one that no owner takes not routed. -/
def dropCounted (self : Nat) (h : Hdr) (t : State) : State := { t with lif := { t.lif with cnt :=
  if h.dst = 0 ∨ h.dst = self then { t.lif.cnt with notRouted := bump t.lif.cnt.notRouted }
  else { t.lif.cnt with notAddressed := bump t.lif.cnt.notAddressed } } }

section
variable {toAll : Bool} {h : Hdr} {told : Option (Role × Nat)} {own deliver : State → State} {t : State}

theorem hear_offline (hoff : s.lif.state = .offline) : hear toAll h told own deliver s = s := if_pos hoff

variable (hon : s.lif.state ≠ .offline) (hheader : headerOk toAll h = true)
include hon hheader

/-- What becomes of a message once its source has been judged, which leaves `t`. -/
theorem hear_judged (ht : (if h.src = s.self then own s else hearPeer h.src told s) = t) (hself : t.node.number = s.node.number) :
    hear toAll h told own deliver s =
      if t.lif.state = .active ∧ (h.dst = 0 ∨ h.dst = s.node.number) then deliver t else dropCounted s.node.number h t := by
  have hself : t.self = s.node.number := hself
  simp only [hear, if_neg hon, hheader, Bool.not_true, Bool.false_eq_true, if_false, ht, hself]
  by_cases hdst : h.dst = 0 ∨ h.dst = s.node.number
  · have hmine : ¬ (h.dst ≠ 0 ∧ h.dst ≠ s.node.number) := by omega
    simp only [if_neg hmine, hdst, and_true, dropCounted, if_true]
    rfl
  · have hother : h.dst ≠ 0 ∧ h.dst ≠ s.node.number := by omega
    simp only [if_pos hother, hdst, and_false, dropCounted, if_false]
    rfl

theorem hear_dropped (ht : (if h.src = s.self then own s else hearPeer h.src told s) = t) (hself : t.node.number = s.node.number)
    (hdrop : t.lif.state ≠ .active ∨ (h.dst ≠ 0 ∧ h.dst ≠ s.node.number)) :
    hear toAll h told own deliver s = dropCounted s.node.number h t := by
  rw [hear_judged hon hheader ht hself, if_neg]
  rintro ⟨hactive, hdst⟩
  obtain hstate | hother := hdrop
  · exact hstate hactive
  · omega

/-- R87: a message of another node that is not for this node, or that finds the line not ACTIVE. -/
theorem hear_other (hsrc : h.src ≠ s.node.number) (hdrop : s.lif.state ≠ .active ∨ (h.dst ≠ 0 ∧ h.dst ≠ s.node.number)) :
    hear toAll h told own deliver s = dropCounted s.node.number h (hearPeer h.src told s) :=
  hear_dropped hon hheader (if_neg hsrc) rfl hdrop

end

/-! ### The own number (R78 to R80) -/

/-- R79 to R81: the line is in CONFLICT. -/
def lineConflict (s : State) : State := flagged .conflict (lineDown (lineEmptied .conflict .conflict s.lif) s)

theorem weighLineDown_sys (s : State) : (weighLineDown s).sys = s.sys := by
  unfold weighLineDown; split <;> [split; skip] <;> rfl

theorem weighLineDown_lif (s : State) : (weighLineDown s).lif = s.lif := by
  unfold weighLineDown; split <;> [split; skip] <;> rfl

theorem weighLineDown_node (s : State) : (weighLineDown s).node = s.node := by
  unfold weighLineDown; split <;> [split; skip] <;> rfl

@[simp] theorem lineConflict_state (s : State) : (lineConflict s).lif.state = .conflict := congrArg Lif.state (weighLineDown_lif _)

@[simp] theorem lineConflict_node (s : State) : (lineConflict s).node = s.node := weighLineDown_node _

theorem enterConflict_running (hrun : s.sys.phase = .running) : enterConflict s = lineConflict s := by
  have hphase : (lineDown (lineEmptied .conflict .conflict s.lif) s).sys.phase = .running :=
    (congrArg Sys.phase (weighLineDown_sys _)).trans hrun
  rw [enterConflict, enterDown_eq_lineDown (st := .conflict) .conflict hrun nofun, raise_running _ _ hphase]
  rfl

/-- A line state in which a message of the own number leads to CONFLICT (R78 to R80). -/
abbrev Joining (s : State) : Prop := s.lif.state = .listen ∨ s.lif.state = .announce ∨ s.lif.state = .active

/-- A line state in which the node has been taken off the line (R81). -/
abbrev Fallen (s : State) : Prop := s.lif.state = .conflict ∨ s.lif.state = .lineFault

theorem ownHeard_joining (hrun : s.sys.phase = .running) (h : Joining s) : ownHeard s = lineConflict s := by
  rw [← enterConflict_running hrun]
  obtain h | h | h := h <;> simp only [ownHeard, h]

theorem ownHeard_fallen (h : Fallen s) : ownHeard s = s := by obtain h | h := h <;> simp only [ownHeard, h]

section
variable {toAll : Bool} {h : Hdr} {told : Option (Role × Nat)} {own deliver : State → State} (hheader : headerOk toAll h = true)
  (hsrc : h.src = s.node.number)
include hheader hsrc

theorem hear_own_joining (hjoin : Joining s) (hown : own s = lineConflict s) :
    hear toAll h told own deliver s = dropCounted s.node.number h (lineConflict s) := by
  have hon : s.lif.state ≠ .offline := by obtain h | h | h := hjoin <;> rw [h] <;> decide
  exact hear_dropped hon hheader ((if_pos hsrc).trans hown) (by rw [lineConflict_node]) (.inl (by rw [lineConflict_state]; decide))

theorem hear_own_fallen (hfall : Fallen s) (hown : own s = s) :
    hear toAll h told own deliver s = dropCounted s.node.number h s := by
  have hstate : s.lif.state ≠ .offline ∧ s.lif.state ≠ .active := by obtain h | h := hfall <;> rw [h] <;> decide
  exact hear_dropped hstate.1 hheader ((if_pos hsrc).trans hown) rfl (.inl hstate.2)

end

/-! ### JOIN, PRESENT and CLASH as they are heard (R78 to R80, R84) -/

theorem headerOk_true_dst {h : Hdr} (hheader : headerOk true h = true) : h.dst = 0 := (headerOk_iff.1 hheader).2.2

section
variable {h : Hdr} {role ring serial : Nat} {told : Option (Role × Nat)}

theorem countBadNotice_told {t : Role × Nat} (ht : told = some t) : countBadNotice h told s = s := by simp [countBadNotice, ht]

theorem countBadNotice_own (hsrc : h.src = s.node.number) : countBadNotice h told s = s := by simp [countBadNotice, State.self, hsrc]

theorem countBadNotice_offline (hoff : s.lif.state = .offline) : countBadNotice h told s = s := by simp [countBadNotice, hoff]

theorem hearJoin_plain (hplain : countBadNotice h (readRoleRing role ring) s = s) :
    hearJoin h role ring serial s = hear true h (readRoleRing role ring) (ownJoin serial) countReceived s :=
  congrArg (hear true h (readRoleRing role ring) (ownJoin serial) countReceived) hplain

theorem hearPresent_plain (hplain : countBadNotice h (readRoleRing role ring) s = s) :
    hearPresent h role ring s = hear true h (readRoleRing role ring) ownHeard countReceived s :=
  congrArg (hear true h (readRoleRing role ring) ownHeard countReceived) hplain

/-- R79: a CLASH that does not name the own number to a node in ANNOUNCE. -/
theorem hearClash_plain {number : Nat} (hplain : ¬(s.lif.state = .announce ∧ number = s.node.number)) :
    hearClash h number s = hear true h none ownHeard countReceived s := by
  have hnames : clashNames number s = s := if_neg hplain
  rw [hearClash, hnames, ite_self]

/-- R79: a CLASH that names the own number to a node in ANNOUNCE. -/
theorem hearClash_named (hrun : s.sys.phase = .running) (hheader : headerOk true h = true) (hann : s.lif.state = .announce) :
    hearClash h s.node.number s = hear true h none ownHeard countReceived (lineConflict s) := by
  have hnames : clashNames s.node.number s = lineConflict s := (if_pos ⟨hann, rfl⟩).trans (enterConflict_running hrun)
  rw [hearClash, if_pos hheader, hnames]

/-- R80: the CLASH that answers a JOIN takes a place of the reserve. -/
theorem ownJoin_clash (hactive : s.lif.state = .active) (hserial : serial ≠ s.lif.serial) (hroom : s.lif.reserve.length < 4) :
    ownJoin serial s = { s with lif := { s.lif with
      reserve := s.lif.reserve ++ [{ clashMsg serial s with stamp := s.lif.stamp }]
      stamp := s.lif.stamp + 1
      cnt := { s.lif.cnt with reserveOverflows := min 65535 s.lif.cnt.reserveOverflows } } } := by
  rw [ownJoin, if_pos ⟨hactive, hserial⟩, reserveMsg]
  exact if_pos hroom

theorem ownJoin_heard (h : ¬(s.lif.state = .active ∧ serial ≠ s.lif.serial)) : ownJoin serial s = ownHeard s := if_neg h

end

/-! ### Arrivals of every kind -/

/-- Whether the kinds table addresses a row to 0, as against to a node. -/
def addressedToAll (i : Instr) : Bool :=
  i matches .joinMessage .. | .clash .. | .present .. | .opened .. | .home .. | .locate .. | .lot ..

/-- JOIN, PRESENT and CLASH are heard in ways of their own; the other arrivals differ in what their delivery does alone. -/
theorem arrival_cases {i : Instr} {h : Hdr} (hi : i.header? = some h) :
    (∃ role ring serial epoch, i = .joinMessage h role ring serial epoch) ∨ (∃ role ring, i = .present h role ring) ∨
      (∃ n j o, i = .clash h n j o) ∨
      ∃ deliver, ∀ s, exec i s = .next (hear (addressedToAll i) h none ownHeard deliver s) := by
  cases i with
  | joinMessage h' role ring serial epoch => cases hi; exact .inl ⟨role, ring, serial, epoch, rfl⟩
  | present h' role ring => cases hi; exact .inr (.inl ⟨role, ring, rfl⟩)
  | clash h' n j o => cases hi; exact .inr (.inr (.inl ⟨n, j, o, rfl⟩))
  | opened | home | answer | hold | release | post | locate | claim | lotReport | lot =>
    cases hi; exact .inr (.inr (.inr ⟨_, fun _ => rfl⟩))
  | _ => cases hi

/-- R71: in OFFLINE no message is heard. -/
theorem exec_arrival_offline {i : Instr} {h : Hdr} (hoff : s.lif.state = .offline) (hi : i.header? = some h) : exec i s = .next s := by
  obtain ⟨role, ring, serial, epoch, rfl⟩ | ⟨role, ring, rfl⟩ | ⟨n, j, o, rfl⟩ | ⟨deliver, hexec⟩ := arrival_cases hi
  · exact congrArg Host.Outcome.next ((hearJoin_plain (countBadNotice_offline hoff)).trans (hear_offline hoff))
  · exact congrArg Host.Outcome.next ((hearPresent_plain (countBadNotice_offline hoff)).trans (hear_offline hoff))
  · exact congrArg Host.Outcome.next ((hearClash_plain (by simp [hoff])).trans (hear_offline hoff))
  · rw [hexec, hear_offline hoff]

section
variable {i : Instr} {h : Hdr} (hi : i.header? = some h) (hheader : headerOk (addressedToAll i) h = true) (hsrc : h.src = s.node.number)
  (hother : ∀ role ring serial epoch, i ≠ .joinMessage h role ring serial epoch)
include hi hheader hsrc hother

/-- R79, R80: a message of the own number that is no JOIN, where the node is on the line. -/
theorem exec_own_joining (hrun : s.sys.phase = .running) (hjoin : Joining s) :
    exec i s = .next (dropCounted s.node.number h (lineConflict s)) := by
  obtain ⟨role, ring, serial, epoch, rfl⟩ | ⟨role, ring, rfl⟩ | ⟨n, j, o, rfl⟩ | ⟨deliver, hexec⟩ := arrival_cases hi
  · exact (hother role ring serial epoch rfl).elim
  · exact congrArg Host.Outcome.next ((hearPresent_plain (countBadNotice_own hsrc)).trans
      (hear_own_joining hheader hsrc hjoin (ownHeard_joining hrun hjoin)))
  · refine congrArg Host.Outcome.next ?_
    by_cases hnamed : s.lif.state = .announce ∧ n = s.node.number
    · obtain ⟨hann, rfl⟩ := hnamed
      have hfall : Fallen (lineConflict s) := .inl (lineConflict_state s)
      exact (hearClash_named hrun hheader hann).trans
        (hear_own_fallen hheader (by rw [lineConflict_node]; exact hsrc) hfall (ownHeard_fallen hfall) |>.trans (by rw [lineConflict_node]))
    · exact (hearClash_plain hnamed).trans (hear_own_joining hheader hsrc hjoin (ownHeard_joining hrun hjoin))
  · rw [hexec, hear_own_joining hheader hsrc hjoin (ownHeard_joining hrun hjoin)]

/-- R81: a message of the own number that is no JOIN, where the node has been taken off the line. -/
theorem exec_own_fallen (hfall : Fallen s) : exec i s = .next (dropCounted s.node.number h s) := by
  obtain ⟨role, ring, serial, epoch, rfl⟩ | ⟨role, ring, rfl⟩ | ⟨n, j, o, rfl⟩ | ⟨deliver, hexec⟩ := arrival_cases hi
  · exact (hother role ring serial epoch rfl).elim
  · exact congrArg Host.Outcome.next ((hearPresent_plain (countBadNotice_own hsrc)).trans
      (hear_own_fallen hheader hsrc hfall (ownHeard_fallen hfall)))
  · have hann : ¬(s.lif.state = .announce ∧ n = s.node.number) := by rintro ⟨hann, -⟩; simp [Fallen, hann] at hfall
    exact congrArg Host.Outcome.next ((hearClash_plain hann).trans (hear_own_fallen hheader hsrc hfall (ownHeard_fallen hfall)))
  · rw [hexec, hear_own_fallen hheader hsrc hfall (ownHeard_fallen hfall)]

end

section
variable {h : Hdr} (hon : s.lif.state ≠ .offline) (hsrc : h.src ≠ s.node.number)
  (hdrop : s.lif.state ≠ .active ∨ (h.dst ≠ 0 ∧ h.dst ≠ s.node.number))
include hon hsrc hdrop

/-- R84, R87: a message of another node that is neither JOIN nor PRESENT nor a CLASH that names the own number in ANNOUNCE. -/
theorem exec_other_dropped {i : Instr} (hi : i.header? = some h) (hheader : headerOk (addressedToAll i) h = true)
    (hjoin : ∀ role ring serial epoch, i ≠ .joinMessage h role ring serial epoch) (hpresent : ∀ role ring, i ≠ .present h role ring)
    (hclash : s.lif.state = .announce → ∀ j o, i ≠ .clash h s.node.number j o) :
    exec i s = .next (dropCounted s.node.number h (hearPeer h.src none s)) := by
  obtain ⟨role, ring, serial, epoch, rfl⟩ | ⟨role, ring, rfl⟩ | ⟨n, j, o, rfl⟩ | ⟨deliver, hexec⟩ := arrival_cases hi
  · exact (hjoin role ring serial epoch rfl).elim
  · exact (hpresent role ring rfl).elim
  · have hplain : ¬(s.lif.state = .announce ∧ n = s.node.number) := by
      rintro ⟨hann, rfl⟩
      exact hclash hann j o rfl
    exact congrArg Host.Outcome.next ((hearClash_plain hplain).trans (hear_other hon hheader hsrc hdrop))
  · rw [hexec, hear_other hon hheader hsrc hdrop]

/-- R84, R87: a JOIN or PRESENT of another node brings its role and ring, and is dropped. -/
theorem exec_told_dropped {role ring : Nat} {told : Role × Nat} (hheader : headerOk true h = true)
    (htold : readRoleRing role ring = some told) (serial epoch : Nat) :
    exec (.joinMessage h role ring serial epoch) s = .next (dropCounted s.node.number h (hearPeer h.src (some told) s)) ∧
      exec (.present h role ring) s = .next (dropCounted s.node.number h (hearPeer h.src (some told) s)) := by
  rw [← htold]
  exact ⟨congrArg Host.Outcome.next ((hearJoin_plain (countBadNotice_told htold)).trans (hear_other hon hheader hsrc hdrop)),
    congrArg Host.Outcome.next ((hearPresent_plain (countBadNotice_told htold)).trans (hear_other hon hheader hsrc hdrop))⟩

end

/-! ### A JOIN of the own number (R78 to R80) -/

section
variable {h : Hdr} {role ring serial epoch : Nat} (hsrc : h.src = s.node.number) (hheader : headerOk true h = true)
include hsrc hheader

theorem exec_ownJoin_clash (hactive : s.lif.state = .active) (hserial : serial ≠ s.lif.serial) (hroom : s.lif.reserve.length < 4) :
    exec (.joinMessage h role ring serial epoch) s = .next (countReceived (ownJoin serial s)) := by
  have hjudged := hear_judged (told := readRoleRing role ring) (deliver := countReceived) (by rw [hactive]; decide) hheader
    ((if_pos hsrc).trans (ownJoin_clash hactive hserial hroom)) rfl
  rw [if_pos ⟨hactive, .inl (headerOk_true_dst hheader)⟩, ← ownJoin_clash hactive hserial hroom] at hjudged
  exact congrArg Host.Outcome.next ((hearJoin_plain (countBadNotice_own hsrc)).trans hjudged)

theorem exec_ownJoin_joining (hrun : s.sys.phase = .running)
    (hjoin : s.lif.state = .listen ∨ s.lif.state = .announce ∨ (s.lif.state = .active ∧ serial = s.lif.serial)) :
    exec (.joinMessage h role ring serial epoch) s = .next (dropCounted s.node.number h (lineConflict s)) := by
  have hjoining : Joining s := hjoin.imp_right (.imp_right And.left)
  have hown : ownJoin serial s = lineConflict s := by
    rw [ownJoin_heard, ownHeard_joining hrun hjoining]
    rintro ⟨hactive, hserial⟩
    simp [hactive, hserial] at hjoin
  exact congrArg Host.Outcome.next ((hearJoin_plain (countBadNotice_own hsrc)).trans (hear_own_joining hheader hsrc hjoining hown))

theorem exec_ownJoin_fallen (hfall : Fallen s) :
    exec (.joinMessage h role ring serial epoch) s = .next (dropCounted s.node.number h s) := by
  have hown : ownJoin serial s = s := by
    rw [ownJoin_heard, ownHeard_fallen hfall]
    rintro ⟨hactive, -⟩
    simp [Fallen, hactive] at hfall
  exact congrArg Host.Outcome.next ((hearJoin_plain (countBadNotice_own hsrc)).trans (hear_own_fallen hheader hsrc hfall hown))

end

end

/-- Settles O30: a transmission by what its bytes are read as; a message by its source, the line state and its destination. -/
theorem lineStateMessages : Obligations.LineStateMessages := by
  intro s
  refine ⟨fun hoff => ⟨fun i h hi => exec_arrival_offline hoff hi, fun w => congrArg Host.Outcome.next (if_pos hoff)⟩,
    ⟨fun w hon hcut => ?_, fun a b src dst seq n body check hbody hcheck => ?_⟩, lineKindOf_isSome_iff,
    fun h role ring serial epoch n j hring hserial hepoch hn hj => ⟨messageInstr_join s h role hring hserial hepoch,
      messageInstr_present s h role hring, messageInstr_clash s h hn hj hserial⟩, fun h role ring serial epoch told hheard htold => ?_,
    fun h n j o hheard => ?_, ?_⟩
  · exact congrArg Host.Outcome.next (hearGarbled_checkError hon (if_pos (checkFails_of_cut hcut)))
  · intro w h sound good
    refine ⟨fun hon hbad => ?_, fun hon hsound hmisfit => ?_, fun k hsound hgood => ?_⟩
    · exact congrArg Host.Outcome.next (hearGarbled_checkError hon (readLine_unsound hbody hcheck hbad))
    · exact congrArg Host.Outcome.next (hearGarbled_formatError hon (readLine_misfit hbody hcheck hsound hmisfit))
    · have hread := readLine_fits (a := a) hbody hcheck hsound (k := k) hgood
      exact ⟨congrArg Host.Outcome.next (hearGarbled_message hread), step_withHeard_message hread⟩
  · intro l t
    have hhear (own : State → State) : hear true h (readRoleRing role ring) own countReceived s = t := by
      rw [hear_heard hheard, htold]
      rfl
    exact ⟨congrArg Host.Outcome.next ((hearJoin_plain (countBadNotice_told htold)).trans (hhear _)),
      congrArg Host.Outcome.next ((hearPresent_plain (countBadNotice_told htold)).trans (hhear _))⟩
  · exact congrArg Host.Outcome.next ((hearClash_plain (by simp [hheard.1])).trans (hear_heard hheard ..))
  · intro down unrouted sound hrun
    refine ⟨fun h role ring serial epoch hsrc hheader => ⟨fun hactive hserial hroom => ?_, exec_ownJoin_joining hsrc hheader hrun,
        exec_ownJoin_fallen hsrc hheader⟩,
      fun i h hsound hsrc hother => ⟨exec_own_joining hsound.1 hsound.2 hsrc hother hrun, exec_own_fallen hsound.1 hsound.2 hsrc hother⟩,
      fun h j o hann hsrc hheader => ?_,
      fun i h hsound hsrc hon hdrop => ⟨exec_other_dropped hon hsrc hdrop hsound.1 hsound.2,
        fun role ring serial epoch told htold hi => ?_⟩⟩
    · exact (exec_ownJoin_clash hsrc hheader hactive hserial hroom).trans
        (congrArg (fun t => Host.Outcome.next (countReceived t)) (ownJoin_clash hactive hserial hroom))
    · refine congrArg Host.Outcome.next ((hearClash_named hrun hheader hann).trans ?_)
      have hother := hear_other (s := lineConflict s) (h := h) (told := none) (own := ownHeard) (deliver := countReceived)
        (by simp) hheader (by simpa using hsrc) (.inl (by simp))
      rw [hother, lineConflict_node]
      rfl
    · obtain ⟨-, hheader⟩ := hsound
      obtain rfl | rfl := hi
      · exact (exec_told_dropped hon hsrc hdrop hheader htold serial epoch).1
      · exact (exec_told_dropped hon hsrc hdrop hheader htold serial epoch).2

end Sys2Proof.Machine
end

section
/-! What the operations of the EXC leave, once each: its table, its home map, an entry that becomes FAILED, a re-identification asked for
(R89, R100, R107, R110). -/

namespace Sys2Proof.Machine
open Sys2Proof

section
variable {s : State} {e : Entry} {q : Nat}

/-! ### The outbound table (R89) -/

/-- Every other entry is found as before. -/
theorem findEntry_putEntry_other {e' : Entry} (h : q ≠ e'.seq) : findEntry (putEntry e' s) q = findEntry s q := by
  have hset (l : List Entry) : (setEntryIn e' l).find? (fun x => x.seq == q) = l.find? (fun x => x.seq == q) := by
    induction l with
    | nil => rfl
    | cons x xs ih =>
      by_cases hx : x.seq = e'.seq
      · simpa [setEntryIn, hx, Ne.symm h] using ih
      · have hcons : setEntryIn e' (x :: xs) = x :: setEntryIn e' xs := by simp [setEntryIn, hx]
        rw [hcons, List.find?_cons, List.find?_cons, ih]
  exact hset s.exc.entries

theorem freePlace_found (h : findEntry s q = some e) : freePlace q s = refreshReady (s.onExc fun x =>
    { x with entries := x.entries.filter fun e => e.seq != q, free := x.free ++ [q] }) := by
  simp [freePlace, h]

/-! ### The home map (R107) -/

/-- A node entered for an account changes the home map and the count of replacements alone. -/
theorem mapEnter_eq (a n : Nat) (s : State) : ∃ m cnt, mapEnter a n s = { s with exc := { s.exc with homeMap := m, cnt := cnt } } := by
  unfold mapEnter
  split
  · exact ⟨s.exc.homeMap, s.exc.cnt, rfl⟩
  · simp only [State.onExc]
    split
    · exact ⟨_, s.exc.cnt, rfl⟩
    · exact ⟨_, _, rfl⟩

/-- So does a MOVED that is followed. -/
theorem mapMoved_eq (a n : Nat) (s : State) : ∃ m cnt, mapMoved a n s = { s with exc := { s.exc with homeMap := m, cnt := cnt } } := by
  unfold mapMoved
  split
  · exact ⟨_, s.exc.cnt, rfl⟩
  · exact mapEnter_eq a n s

/-! ### An entry becomes FAILED (R100) -/

/-- R100: POSTING_FAILED is latched, and the empty failure capture filled. -/
theorem raise_captureFailure (hrun : s.sys.phase = .running) (e : Entry) (p : Posting) (last : LastAns) :
    raise .postingFailed (captureFailure e p last s) = flagged .postingFailed { s with exc := { s.exc with
      capture := some (s.exc.capture.getD ⟨e.seq, p.kind, p.account, e.dest.getD 0, p.id, last⟩) } } := by
  refine (raise_running (captureFailure e p last s) .postingFailed hrun).trans ?_
  cases hcapture : s.exc.capture <;> simp [captureFailure, State.onExc, flagged, hcapture]

theorem failEntry_running (hrun : s.sys.phase = .running) (e : Entry) (last : LastAns) : failEntry e last s = entryFailed e last s := by
  unfold failEntry entryFailed
  cases e.body with
  | post p => exact congrArg (unitOutcome _ _) (raise_captureFailure (s := putEntry _ (s.onExc _)) hrun ..)
  | locate | hold | release | claim | lotReport => rfl

/-! ### A re-identification asked for (R110) -/

/-- The one job that waits is taken up, and its commit placed. -/
theorem runJobs_started {t : State} {j : ExcJob} (n : Nat) (hwork : s.exc.work = none) (hjobs : s.exc.jobs = [j])
    (hstart : startJob j (s.onExc fun x => { x with jobs := [] }) = (t, .started)) (hnext : t.exc.jobs = []) : runJobs (n + 1) s = t := by
  simp only [runJobs, hwork, hjobs, hstart]
  exact runJobs_idle n hnext

/-- R110: the commit of a posting's OUTBOUND record under a fresh identity stands on the store request list with the next number. -/
def reidentPlaced (e : Entry) (p : Posting) (s : State) : State :=
  let id : Ident := ⟨s.node.number, s.sys.epoch, s.node.nextPosting⟩
  listed ⟨.excWork, .group [.outbound ⟨{ p with id := id }, e.ref, e.dest.getD 0, some p.id⟩,
      .node (nodeAfter s.sys.epoch s.node.nextPosting 1)]⟩ { s with exc := { s.exc with work := some (.reident e.seq id) } }

theorem startJob_reident {p : Posting} (hepoch : s.sys.epochState = .inUse) (hnumber : s.node.nextPosting ≤ 65535) (hlist : ListOpen s)
    (hfind : findEntry s e.seq = some e) (hbody : e.body = .post p) :
    startJob (.reident e.seq) s = (reidentPlaced e p s, .started) := by
  have hadvance : needsAdvance s false 1 = false := by
    simp only [needsAdvance, Bool.false_and, Bool.or_false, decide_eq_false_iff_not]
    omega
  simp only [startJob, hepoch, reduceCtorEq, if_false, hadvance, Bool.false_eq_true, hfind, hbody]
  exact congrArg (·, JobRes.started) (placeGroup_room hlist.1 hlist.2 nofun)

/-- R110: with the epoch in use, a number left and no other commit, the commit of a fresh identity is placed at once. -/
theorem askReident_ready {p : Posting} (hready : CommitReady s) (hlist : ListOpen s) (hfind : findEntry s e.seq = some e)
    (hbody : e.body = .post p) : askReident e.seq s = reidentPlaced e p s := by
  obtain ⟨hepoch, hwork, hjobs, hnumber⟩ := hready
  have htaken : (s.onExc fun x => { x with jobs := x.jobs ++ [.reident e.seq] }).onExc (fun x => { x with jobs := [] }) = s := by
    simp only [State.onExc, ← hjobs]
  refine runJobs_started (j := .reident e.seq) 127 hwork (by simp [hjobs]) ?_ hjobs
  rw [htaken, startJob_reident hepoch hnumber hlist hfind hbody]

/-- R110: the entry that waits for its fresh identity, and the commit that brings it. -/
theorem askReident_putEntry {p : Posting} {e' : Entry} (hready : CommitReady s) (hlist : ListOpen s) (hfind : findEntry s e'.seq = some e)
    (hbody : e'.body = .post p) : askReident e'.seq (putEntry { e' with committing := true } s) = reidentAsked e' p s :=
  askReident_ready (s := putEntry { e' with committing := true } s) (e := { e' with committing := true }) hready hlist
    (findEntry_putEntry (e' := { e' with committing := true }) hfind) hbody

end

end Sys2Proof.Machine
end

section
/-! The sends, the answer timeouts and the defer waits of outbound entries (O46). -/

namespace Sys2Proof.Machine
open Sys2Proof

section
variable {s : State} {e : Entry}

/-! ### The events of an entry (R95, R96, R99) -/

theorem excSendNext_front {q : Nat} {rest : List Nat} (hactive : s.lif.state = .active) (hready : s.exc.ready = q :: rest)
    (hfind : findEntry s q = some e) : excSendNext s = sendEntry e s := by
  simp [excSendNext, State.lineActive, hactive, hready, hfind]

theorem answerTimeout_due (hfind : findEntry s e.seq = some e) (hstate : e.state = .sent) (hdue : e.deadline = some 0) :
    answerTimeout e.seq s = timedOut e s := by
  simp [answerTimeout, hfind, hstate, hdue]

theorem deferWaitEnd_due (hfind : findEntry s e.seq = some e) (hstate : e.state = .deferred) (hdue : e.deadline = some 0) :
    deferWaitEnd e.seq s = sendEntry e s := by
  simp [deferWaitEnd, hfind, hstate, hdue]

theorem answerTimeout_early (hfind : findEntry s e.seq = some e) (hearly : e.deadline ≠ some 0) : answerTimeout e.seq s = s := by
  simp [answerTimeout, hfind, due, hearly]

theorem deferWaitEnd_early (hfind : findEntry s e.seq = some e) (hearly : e.deadline ≠ some 0) : deferWaitEnd e.seq s = s := by
  simp [deferWaitEnd, hfind, due, hearly]

/-- R96: an answer timeout is counted. -/
def timeoutCounted (s : State) : State := { s with exc := { s.exc with cnt := { s.exc.cnt with timeouts := bump s.exc.cnt.timeouts } } }

theorem timedOut_again (hsends : e.sends < 4) : timedOut e s = sendEntry e (timeoutCounted s) := if_pos hsends

theorem timedOut_last (hsends : 4 ≤ e.sends) : timedOut e s = failEntry e .noAnswer (timeoutCounted s) := if_neg (not_lt.2 hsends)

/-! ### A send (R95) -/

theorem handToBook_room (hroom : bookRoom s = true) (r : BookReq) : handToBook r s = bookEnter r (countSend s) := by
  obtain ⟨-, h⟩ | ⟨hfull, -⟩ := handToBook_cases r s
  · exact h
  · simp [hroom] at hfull

/-- R95: the request of an entry whose destination is this node enters the queue of the own book. -/
theorem sendEntry_own {ask : BookAsk} (hdest : e.dest = some s.node.number) (hask : ownAsk e = some ask) (hroom : bookRoom s = true) :
    sendEntry e s = bookEnter ⟨.own e.seq, ask⟩ (countSend
      (putEntry { e with state := .sent, sends := e.sends + 1, deadline := none, tok := s.exc.tok } (takeToken s))) := by
  have hself : s.node.number = s.self := rfl
  simp only [sendEntry, hdest, hself, if_true, hask]
  exact handToBook_room (s := putEntry _ (takeToken s)) hroom _

/-- R76, R95: a request that finds no place in the send queue waits for one, and is not counted yet. -/
theorem sendEntry_waits {d : Nat} (hdest : e.dest = some d) (hother : d ≠ s.node.number) (hactive : s.lif.state = .active)
    (hfull : sendRoom s = false) : sendEntry e s =
      (putEntry { e with state := .sent, sends := e.sends + 1, deadline := none, tok := s.exc.tok } (takeToken s)).onLif fun l =>
        { l with wait := l.wait ++ [⟨newMsg .request d e.seq (.request e.account e.body) .exc s.exc.tok, .nothing⟩] } := by
  have hself : d ≠ s.self := hother
  have hwaits (t : State) (m : Msg) (hlif : t.lif = s.lif) : placingOf m t = .waits := by
    have hfull' : sendRoom t = false := by simpa [sendRoom, hlif] using hfull
    simp [placingOf, hlif, hactive, hfull']
  simp only [sendEntry, hdest, if_neg hself, hwaits s _ rfl, placeRequest, placeMsg]
  rw [hwaits (putEntry _ (takeToken s)) _ rfl]

end

/-- Settles O46: an event by what it asks of its entry, a send by its destination and the room there. -/
theorem entriesAreSent : Obligations.EntriesAreSent := by
  intro s e hfind sent out
  refine ⟨fun d hopen hdest hother => ?_, fun ask rest hactive hready hdest hask hroom => ?_,
    fun d rest hactive hfull hready hdest hother => ?_, fun p hstate hdue hsends hbody hrun hout hcapture => ?_,
    fun hstate hdue hsends hrun => ?_, fun hearly => ?_⟩
  · have hline : sendEntry e s = out d s.exc.cnt.timeouts := sendEntry_line hdest hother hopen
    refine ⟨fun rest hready => ?_, fun hstate hdue hsends => ?_, fun hstate hdue => ?_⟩
    · exact congrArg Host.Outcome.next ((excSendNext_front hopen.1 hready hfind).trans hline)
    · exact congrArg Host.Outcome.next ((answerTimeout_due hfind hstate hdue).trans ((timedOut_again hsends).trans
        (sendEntry_line (s := timeoutCounted s) hdest hother hopen)))
    · exact congrArg Host.Outcome.next ((deferWaitEnd_due hfind hstate hdue).trans hline)
  · exact congrArg Host.Outcome.next ((excSendNext_front hactive hready hfind).trans (sendEntry_own hdest hask hroom))
  · exact congrArg Host.Outcome.next ((excSendNext_front hactive hready hfind).trans (sendEntry_waits hdest hother hactive hfull))
  · exact ⟨_, congrArg Host.Outcome.next ((answerTimeout_due hfind hstate hdue).trans (timedOut_post hsends hbody hfind hout)),
      postFailed_spec hrun hcapture⟩
  · exact congrArg Host.Outcome.next ((answerTimeout_due hfind hstate hdue).trans ((timedOut_last hsends).trans
      (failEntry_running (s := timeoutCounted s) hrun e .noAnswer)))
  · exact ⟨congrArg Host.Outcome.next (answerTimeout_early hfind hearly), congrArg Host.Outcome.next (deferWaitEnd_early hfind hearly)⟩

end Sys2Proof.Machine
end

section
/-! RETRY and DISCARD of a FAILED posting (O45). -/

namespace Sys2Proof.Machine
open Sys2Proof

section
variable {s : State} {e : Entry} {q : Nat}

/-! ### The FAILED posting that a sequence names (R101) -/

theorem failedPost_spec (h : failedPost s q = some e) : findEntry s q = some e ∧ e.seq = q ∧ e.state = .failed := by
  unfold failedPost at h
  split at h
  · next x hfind =>
    split at h
    · next hfailed =>
      obtain rfl := Option.some.inj h
      exact ⟨hfind, (findEntry_mem hfind).2, hfailed.1⟩
    · cases h
  · cases h

theorem failedPost_carryAnswer (q : Nat) (s : State) : failedPost (carryAnswer s) q = failedPost s q := by
  rw [carryAnswer_eq]
  rfl

theorem frame_outboundCmd_badValue (h : Taken s) (hq : 31 < q) (f : Entry → State → State) :
    frame true none (outboundCmd f q) s = answered .badValue .none s :=
  frame_effect h none (.inl rfl) _ _ _ (if_pos hq)

section
variable (hq : q ≤ 31)
include hq

theorem frame_outboundCmd_notFailed (h : Taken s) (hnone : failedPost s q = none) (f : Entry → State → State) :
    frame true none (outboundCmd f q) s = answered .notFailed .none s := by
  refine frame_effect h none (.inl rfl) _ _ _ ?_
  rw [outboundCmd, if_neg (Nat.not_lt.2 hq), failedPost_carryAnswer, hnone]
  rfl

theorem frame_outboundCmd_done {t : State} {f : Entry → State → State} (h : Taken s) (hfailed : failedPost s q = some e)
    (hf : f e (carryAnswer s) = carryAnswer t) : frame true none (outboundCmd f q) s = answered .done .none t := by
  refine frame_effect h none (.inl rfl) _ _ _ ?_
  rw [outboundCmd, if_neg (Nat.not_lt.2 hq), failedPost_carryAnswer, hfailed]
  exact congrArg (·, _) hf

end

/-! ### RETRY (R101, R110) -/

theorem onExc_carryAnswer (f : Exc → Exc) (s : State) : (carryAnswer s).onExc f = carryAnswer (s.onExc f) := by
  rw [carryAnswer_eq, carryAnswer_eq]
  rfl

theorem putEntry_carryAnswer (e : Entry) (s : State) : putEntry e (carryAnswer s) = carryAnswer (putEntry e s) := by
  rw [carryAnswer_eq, carryAnswer_eq]
  rfl

theorem mapMoved_carryAnswer (a n : Nat) (s : State) : mapMoved a n (carryAnswer s) = carryAnswer (mapMoved a n s) := by
  have hself : (carryAnswer s).self = s.self := by rw [carryAnswer_eq]; rfl
  rw [mapMoved, mapMoved, mapRemove, mapRemove, mapEnter, mapEnter, hself, onExc_carryAnswer, onExc_carryAnswer,
    ← apply_ite carryAnswer, ← apply_ite carryAnswer]

theorem reidentAsked_carryAnswer (e : Entry) (p : Posting) (s : State) :
    reidentAsked e p (carryAnswer s) = carryAnswer (reidentAsked e p s) := by
  rw [carryAnswer_eq, carryAnswer_eq]
  rfl

theorem retryEntry_again (h : e.reident = none) :
    retryEntry e s = putEntry { e with state := .queued, sends := 0, deferrals := 0, moves := 0, deadline := none, tok := 0 } s := by
  simp only [retryEntry, h]

/-- R101, R110: the re-identification starts again at its step 1. -/
theorem retryEntry_reident {p : Posting} {a n : Nat} (hfind : findEntry s e.seq = some e) (hbody : e.body = .post p)
    (hacct : e.account = some a) (hre : e.reident = some n) (hready : CommitReady s) (hlist : ListOpen s) :
    retryEntry e s = reidentAsked
      { e with state := .queued, sends := 0, deferrals := 0, moves := 0, deadline := none, tok := 0, reident := none } p (mapMoved a n s) := by
  obtain ⟨m, cnt, hmap⟩ := mapMoved_eq a n s
  have hretry : retryEntry e s = askReident e.seq (putEntry { e with
      state := .queued, sends := 0, deferrals := 0, moves := 0, deadline := none, tok := 0, committing := true, reident := none }
      (mapMoved (e.account.getD 0) n s)) := by rw [retryEntry, hre]
  have hgiven : e.account.getD 0 = a := by rw [hacct]; rfl
  rw [hretry, hgiven, hmap]
  exact askReident_putEntry (s := { s with exc := { s.exc with homeMap := m, cnt := cnt } })
    (e' := { e with state := .queued, sends := 0, deferrals := 0, moves := 0, deadline := none, tok := 0, reident := none })
    hready hlist hfind hbody

/-! ### DISCARD (R101) -/

/-- R101, R102: the entry is given up, and as no unit waits for it the removal of its OUTBOUND record is placed. -/
theorem discardEntry_unserved {p : Posting} (hfind : findEntry s e.seq = some e) (hbody : e.body = .post p) (hrem : e.removing = false)
    (hlist : ListOpen s) (hout : unitInService s e.ref = false) : discardEntry e s =
      listed ⟨.outRemoval p.id, .removal (.outbound p.id.epoch p.id.number)⟩
        (putEntry { e with state := .doneToUnit, deadline := none, tok := 0, removing := true } (giveUpEntry e s)) := by
  have hgiven : findEntry (giveUpEntry e s) e.seq = some { e with state := .doneToUnit, deadline := none, tok := 0 } :=
    findEntry_putEntry (e' := { e with state := .doneToUnit, deadline := none, tok := 0 }) hfind
  have hout' : unitInService (giveUpEntry e s) e.ref = false := hout
  simp only [discardEntry, unitOutcome, hout', Bool.not_false, if_true]
  exact placeOutRemoval_ended (s := giveUpEntry e s) hgiven rfl hbody hrem hlist

end

/-- Settles O45: by the sequence, and for a FAILED posting by whether its re-identification had failed. -/
theorem retryAndDiscard : Obligations.RetryAndDiscard := by
  intro s q htaken
  refine ⟨fun hq => ?_, fun hq hnone => ?_, fun e hq hfailed hre => ?_, fun e p a n hq hfailed hbody hacct hre hready hlist => ?_,
    fun e p hq hfailed hbody hrem hroom hout => ?_⟩
  · exact ⟨congrArg Host.Outcome.next (frame_outboundCmd_badValue htaken hq retryEntry),
      congrArg Host.Outcome.next (frame_outboundCmd_badValue htaken hq discardEntry)⟩
  · exact ⟨congrArg Host.Outcome.next (frame_outboundCmd_notFailed hq htaken hnone retryEntry),
      congrArg Host.Outcome.next (frame_outboundCmd_notFailed hq htaken hnone discardEntry)⟩
  · refine congrArg Host.Outcome.next (frame_outboundCmd_done hq htaken hfailed ?_)
    rw [retryEntry_again hre, putEntry_carryAnswer]
  · obtain ⟨hfind, rfl, -⟩ := failedPost_spec hfailed
    refine congrArg Host.Outcome.next (frame_outboundCmd_done hq htaken hfailed ?_)
    rw [← reidentAsked_carryAnswer, ← mapMoved_carryAnswer]
    refine retryEntry_reident (s := carryAnswer s) ?_ hbody hacct hre ?_ ?_ <;> rw [carryAnswer_eq]
    exacts [hfind, hready, hlist]
  · obtain ⟨hfind, rfl, -⟩ := failedPost_spec hfailed
    have hdiscard : discardEntry e (carryAnswer s) = carryAnswer (listed ⟨.outRemoval p.id, .removal (.outbound p.id.epoch p.id.number)⟩
        (putEntry { e with state := .doneToUnit, deadline := none, tok := 0, removing := true } (giveUpEntry e s))) := by
      rw [carryAnswer_eq, carryAnswer_eq]
      exact discardEntry_unserved (s := { s with port := { s.port with sent := s.port.buf }, wgu := readEnded s.wgu }) hfind hbody hrem
        ⟨htaken.2, hroom⟩ hout
    exact ⟨_, congrArg Host.Outcome.next (frame_outboundCmd_done hq htaken hfailed hdiscard), rfl, rfl, rfl⟩

end Sys2Proof.Machine
end

section
/-! The events of searches, the local opening, and a request that waited for a place (O47). -/

namespace Sys2Proof.Machine
open Sys2Proof

section
variable {s : State} {e : Entry} {o : ExcOut} {q n : Nat}

/-! ### The result of a search at one entry (R103) -/

/-- R103: an entry whose account's home has been found. -/
def homeFound (n : Nat) (e : Entry) : Entry := { e with state := .queued, dest := some n, search := none, fromMap := false, tok := 0 }

theorem takeSearch_home (hfind : findEntry s q = some e) (hkind : e.body.kind = .hold ∨ e.body.kind = .release) (n : Nat) :
    takeSearch (.home n) s q = putEntry (homeFound n e) s := by
  obtain hkind | hkind := hkind <;> simp only [takeSearch, hfind, hkind] <;> rfl

theorem takeSearch_failed (hfind : findEntry s q = some e) (last : LastAns) : takeSearch (.failed last) s q = failEntry e last s := by
  simp only [takeSearch, hfind]

/-- R102, R103: any other result goes to the unit, and the place is freed; so does the home that a LOCATE has found. -/
theorem takeSearch_told (hfind : findEntry s q = some e) (hfailed : ∀ last, o ≠ .failed last) (hkind : (∃ n, o = .home n) → e.body = .locate) :
    takeSearch o s q = unitOutcome e o (freePlace q s) := by
  cases o with
  | failed last => exact absurd rfl (hfailed last)
  | home n => simp only [takeSearch, hfind, hkind ⟨n, rfl⟩, ReqBody.kind]
  | answer | noHome | opening | discarded => simp only [takeSearch, hfind]

/-! ### The end of a search (R103) -/

theorem findEntry_stopSearching (hfind : findEntry s e.seq = some e) : findEntry (stopSearching e s) e.seq = some { e with search := none } :=
  findEntry_putEntry (e' := { e with search := none }) hfind

theorem filter_setEntryIn (e : Entry) (es : List Entry) :
    (setEntryIn e es).filter (fun x => x.seq != e.seq) = es.filter fun x => x.seq != e.seq := by
  induction es with
  | nil => rfl
  | cons x xs ih =>
    simp only [setEntryIn] at ih
    by_cases hx : x.seq = e.seq <;> simp [setEntryIn, hx, ih]

/-- The place of an entry that has stopped searching is freed as if it had not. -/
theorem freePlace_stopSearching (hfind : findEntry s e.seq = some e) : freePlace e.seq (stopSearching e s) = freePlace e.seq s := by
  have hrest := filter_setEntryIn { e with search := none } s.exc.entries
  rw [freePlace_found (findEntry_stopSearching hfind), freePlace_found hfind]
  simp only [stopSearching, State.onExc]
  rw [hrest]

section
variable (halone : (s.exc.entries.filter fun x => x.seq == e.seq) = [e]) (hwaits : ∀ x ∈ s.exc.entries, x.search ≠ some .onOther)
  (hfind : findEntry s e.seq = some e)
include halone hwaits hfind

theorem endSearch_home (hkind : e.body.kind = .hold ∨ e.body.kind = .release) (n : Nat) :
    endSearch e (.home n) s = putEntry (homeFound n e) s := by
  rw [endSearch_alone _ halone hwaits, takeSearch_home (findEntry_stopSearching hfind) hkind]
  exact putEntry_stopSearching s rfl

theorem endSearch_told (hfailed : ∀ last, o ≠ .failed last) (hkind : (∃ n, o = .home n) → e.body = .locate) :
    endSearch e o s = unitOutcome { e with search := none } o (freePlace e.seq s) := by
  rw [endSearch_alone _ halone hwaits, takeSearch_told (findEntry_stopSearching hfind) hfailed hkind, freePlace_stopSearching hfind]

/-- R100, R104: the search of an entry without a posting ends FAILED. -/
theorem endSearch_failed (hpost : e.isPost = false) (last : LastAns) : endSearch e (.failed last) s =
    unitOutcome { e with search := none } (.failed last)
      (freePlace e.seq { s with exc := { s.exc with cnt := { s.exc.cnt with failed := bump s.exc.cnt.failed } } }) := by
  rw [endSearch_alone _ halone hwaits, takeSearch_failed (findEntry_stopSearching hfind)]
  unfold failEntry
  split
  · next p hbody =>
    have hbody : e.body = .post p := hbody
    simp [Entry.isPost, hbody, ReqBody.isPost] at hpost
  · exact congrArg (unitOutcome _ _)
      (freePlace_stopSearching (e := e) (s := { s with exc := { s.exc with cnt := { s.exc.cnt with failed := bump s.exc.cnt.failed } } }) hfind)

end

/-- R103: a search that one other entry waits on resolves both. -/
theorem endSearch_pair {x : Entry} (htakers : (s.exc.entries.filter fun y => y.seq == e.seq ||
      (y.state == .unresolved && y.account == e.account && y.search == some .onOther)) = [e, x])
    (hfind : findEntry s e.seq = some e) (hother : findEntry s x.seq = some x) (hne : x.seq ≠ e.seq)
    (hkind : e.body.kind = .hold ∨ e.body.kind = .release) (hkind' : x.body.kind = .hold ∨ x.body.kind = .release) (n : Nat) :
    endSearch e (.home n) s = putEntry (homeFound n x) (putEntry (homeFound n e) s) := by
  have hstands : findEntry (putEntry (homeFound n e) s) x.seq = some x := (findEntry_putEntry_other (e' := homeFound n e) hne).trans hother
  rw [endSearch, searchTakers, htakers]
  simp only [List.map_cons, List.map_nil, List.foldl_cons, List.foldl_nil]
  rw [takeSearch_home (findEntry_stopSearching hfind) hkind]
  exact (congrArg (takeSearch (.home n) · x.seq) (putEntry_stopSearching (e := e) (e' := homeFound n e) s rfl)).trans
    (takeSearch_home hstands hkind' n)

/-! ### The end of a window (R104) -/

theorem lowestNode_eq_min? (homes : List Nat) : lowestNode homes = homes.min? := by
  induction homes with
  | nil => rfl
  | cons m ms ih =>
    rw [lowestNode, ih, List.min?_cons]
    cases ms.min? <;> rfl

theorem lowestNode_of_le {homes : List Nat} (hmem : n ∈ homes) (hle : ∀ m ∈ homes, n ≤ m) : lowestNode homes = some n := by
  rw [lowestNode_eq_min?]
  exact List.min?_eq_some_iff.2 ⟨hmem, hle⟩

section
variable {second : Bool} {homes : List Nat} {tens : Option Nat} (hfind : findEntry s e.seq = some e)
include hfind

theorem locateWindowEnd_due (hsearch : e.search = some (.window second homes tens 0)) :
    locateWindowEnd e.seq s = windowEnd e second homes tens s := by
  simp only [locateWindowEnd, hfind, hsearch]

theorem searchDeferEnd_due (hsearch : e.search = some (.waiting homes 0)) : searchDeferEnd e.seq s = beginSearch e homes s := by
  simp only [searchDeferEnd, hfind, hsearch]

theorem openingRetry_due (hsearch : e.search = some (.openWait 0)) : openingRetry e.seq s = placeOpening e s := by
  simp only [openingRetry, hfind, hsearch]

/-- R106: the result of the search that a local opening ends with; `none` for a DEFER, which is waited out. -/
def OpenRes.out? (self : Nat) : OpenRes → Option ExcOut
  | .done => some (.home self)
  | .moved n => some (.home n)
  | .defer => none
  | .code c => some (.opening c)

theorem openingEnded_told (hsearch : e.search = some .opening) {r : OpenRes} (hr : r.out? s.self = some o) :
    openingEnded e.seq r s = endSearch e o s := by
  cases r with
  | defer => cases hr
  | done | moved | code => cases hr; simp only [openingEnded, hfind, hsearch, if_true]

theorem openingEnded_defer (hsearch : e.search = some .opening) :
    openingEnded e.seq .defer s = putEntry { e with search := some (.openWait 100) } s := by
  simp only [openingEnded, hfind, hsearch, if_true]

end

theorem windowEnd_home {second : Bool} {homes : List Nat} {tens : Option Nat} {a : Nat} (hmem : n ∈ homes) (hle : ∀ m ∈ homes, n ≤ m)
    (hacct : e.account = some a) : windowEnd e second homes tens s = endSearch e (.home n) (mapEnter a n s) := by
  have hgiven : e.account.getD 0 = a := by rw [hacct]; rfl
  simp only [windowEnd, lowestNode_of_le hmem hle, hgiven]

theorem windowEnd_deferred {w : Nat} (h : e.deferrals < 20) : windowEnd e true [] (some w) s =
    putEntry { e with deferrals := e.deferrals + 1, search := some (.waiting [] (w * 10)) } s := by
  simp [windowEnd, lowestNode, Nat.not_le.2 h]

theorem windowEnd_deferredOut {w : Nat} (h : 20 ≤ e.deferrals) :
    windowEnd e true [] (some w) s = endSearch e (.failed (.code .defer)) s := by
  simp [windowEnd, lowestNode, h]

/-- R113: a search that found no home is counted. -/
def noHomeCounted (s : State) : State := { s with exc := { s.exc with cnt := { s.exc.cnt with noHome := bump s.exc.cnt.noHome } } }

theorem windowEnd_noHome (h : e.openIfNone = false) : windowEnd e true [] none s = endSearch e .noHome (noHomeCounted s) :=
  if_neg (by simp [h])

theorem windowEnd_opens (h : e.openIfNone = true) : windowEnd e true [] none s = placeOpening e (noHomeCounted s) := if_pos h

/-- R106: the local opening stands in the queue of the own book. -/
theorem placeOpening_room {a : Nat} (hacct : e.account = some a) (hroom : bookRoom s = true) :
    placeOpening e s = bookEnter ⟨.own e.seq, .localOpen e.seq a⟩ (putEntry { e with search := some .opening } s) := by
  have hgiven : e.account.getD 0 = a := by rw [hacct]; rfl
  rw [placeOpening, hgiven]
  exact if_pos hroom

/-! ### A WEIGH whose local opening ends NOT ACTIVE (R106, R127, R130) -/

/-- R127, R130: the WEIGH has ended NOT ACTIVE. -/
def weighNotActive (g : Weigh) (s : State) : State := flagged .weighDone { s with wgu := { s.wgu with
  weigh := none, result := some { code := .notActive, boat := g.boat }
  cnt := { s.wgu.cnt with weighsFailed := bump s.wgu.cnt.weighsFailed } } }

theorem weighLocated_notActive {g : Weigh} (hrun : s.sys.phase = .running) (hweigh : s.wgu.weigh = some g)
    (hstage : g.stage = .resolving (some q)) : weighLocated q (.opening .notActive) s = weighNotActive g s := by
  simp only [weighLocated, hweigh, hstage, if_true]
  exact raise_running (s.onWgu _) .weighDone hrun

theorem unitOutcome_weighLocate (href : e.ref = .weighLocate) (hrole : s.port.role = some .scale) (o : ExcOut) :
    unitOutcome e o s = weighLocated e.seq o s := by
  have hservice : unitInService s .weighLocate = true := by simp [unitInService, Ref.role, State.inService, hrole]
  simp [unitOutcome, href, hservice, unitLocated]

theorem unitOutcome_weighNotActive {g : Weigh} (href : e.ref = .weighLocate) (hrole : s.port.role = some .scale)
    (hrun : s.sys.phase = .running) (hweigh : s.wgu.weigh = some g) (hstage : g.stage = .resolving (some e.seq))
    (hfind : findEntry s e.seq = some e) : unitOutcome { e with search := none } (.opening .notActive) (freePlace e.seq s) =
      freePlace e.seq (weighNotActive g s) := by
  rw [freePlace_found hfind, freePlace_found (s := weighNotActive g s) hfind]
  exact (unitOutcome_weighLocate (s := refreshReady (s.onExc _)) (e := { e with search := none }) href hrole _).trans
    (weighLocated_notActive (s := refreshReady (s.onExc _)) hrun hweigh hstage)

/-! ### A request that waited for a place (R89, R91) -/

/-- A RELEASE of the clock, with its destination (R152). -/
def clockRelease (k : Ident) (a d : Nat) : NewEntry := ⟨.release k, .cluRelease, some a, some d, false⟩

section
variable {k : Ident} {a d : Nat} {qs : List Nat}

theorem standEntries_clockRelease (hfree : s.exc.free = q :: qs) :
    standEntries ⟨.cluRelease, [clockRelease k a d]⟩ [] s = (entryMade q qs (clockRelease k a d) s, none) := by
  have hplaces : nextPlaces ⟨.cluRelease, [clockRelease k a d]⟩ s = [q] := by simp [nextPlaces, hfree]
  have hqueued : ((makeEntry q (clockRelease k a d)).state == .unresolved) = false := rfl
  have hhold : (⟨.cluRelease, [clockRelease k a d]⟩ : CreateReq).hasHold = false := rfl
  have hbodies (key : Ident) : fillBodies key [clockRelease k a d] [] = [clockRelease k a d] := rfl
  simp only [standEntries, hplaces, hbodies, List.zipWith_cons_cons, List.zipWith_nil_left, List.foldl_cons, List.foldl_nil,
    List.filter_cons, hqueued, List.filter_nil, hhold, State.onExc, hfree, List.length_singleton, List.drop_one, List.tail_cons,
    Bool.false_eq_true, if_false]
  rfl

theorem takeCreate_clockRelease (hplace : PlaceOpen q qs s) :
    takeCreate ⟨.cluRelease, [clockRelease k a d]⟩ s = (entryMade q qs (clockRelease k a d) s, .created [q] none) := by
  obtain ⟨hfree, hopen⟩ := hplace
  have hplaces : nextPlaces ⟨.cluRelease, [clockRelease k a d]⟩ s = [q] := by simp [nextPlaces, hfree]
  have hroom : ¬ openPlaces s.exc < [clockRelease k a d].length := by rw [List.length_singleton]; omega
  rw [takeCreate, if_neg hroom]
  simp only [standEntries_clockRelease hfree, hplaces]
  rfl

/-- R91: the first waiting request is made once there is a place for it. -/
theorem retryAsk_clockRelease {rest : List CreateReq} (hasks : s.exc.asks = ⟨.cluRelease, [clockRelease k a d]⟩ :: rest)
    (hplace : PlaceOpen q qs s) : retryAsk s = entryMade q qs (clockRelease k a d) (s.onExc fun x => { x with asks := rest }) := by
  have hfirst : (s.exc.asks.find? fun r => decide (r.items.length ≤ openPlaces s.exc)) = some ⟨.cluRelease, [clockRelease k a d]⟩ := by
    rw [hasks]
    exact List.find?_cons_of_pos (decide_eq_true hplace.2)
  have hleft : (s.onExc fun x => { x with asks := x.asks.erase ⟨.cluRelease, [clockRelease k a d]⟩ }) =
      s.onExc fun x => { x with asks := rest } := by
    simp only [State.onExc, hasks, List.erase_cons_head]
  simp only [retryAsk, hfirst, hleft, askUnit,
    takeCreate_clockRelease (s := s.onExc fun x => { x with asks := rest }) (k := k) (a := a) (d := d) hplace]
  rfl

end

end

/-- Settles O47: an event by what its entry waits for; a window by its HOMEs and its longest DEFER, a local opening by its outcome. -/
theorem searchesEnd : Obligations.SearchesEnd := by
  intro s e hfind located
  refine ⟨fun tens hopen hsearch => ?_, fun homes hopen hsearch => ?_, fun second homes tens n a hsearch hmem hle hacct hkind halone hwaits => ?_,
    fun homes tens n a x hsearch hmem hle hacct hkind hkind' hne hother htakers => ?_, ?_, fun a hsearch hacct hroom => ?_,
    fun a rest hsearch hfront => ⟨fun acc hacc hstate => ?_, fun g hnone hline hbody href hrole hweigh hstage hrun halone hwaits => ?_⟩,
    fun k a d q qs rest hasks hplace => congrArg Host.Outcome.next (retryAsk_clockRelease hasks hplace)⟩
  · exact congrArg Host.Outcome.next ((locateWindowEnd_due hfind hsearch).trans (placeLocate_line e true [] tens hopen))
  · exact congrArg Host.Outcome.next ((searchDeferEnd_due hfind hsearch).trans (placeLocate_line (s := countSearch s) e false homes none hopen))
  · obtain ⟨m, cnt, hmap⟩ := mapEnter_eq a n s
    refine congrArg Host.Outcome.next ((locateWindowEnd_due hfind hsearch).trans ((windowEnd_home hmem hle hacct).trans ?_))
    rw [hmap]
    exact endSearch_home (s := { s with exc := { s.exc with homeMap := m, cnt := cnt } }) halone hwaits hfind hkind n
  · obtain ⟨m, cnt, hmap⟩ := mapEnter_eq a n s
    refine congrArg Host.Outcome.next ((locateWindowEnd_due hfind hsearch).trans ((windowEnd_home hmem hle hacct).trans ?_))
    rw [hmap]
    exact endSearch_pair (s := { s with exc := { s.exc with homeMap := m, cnt := cnt } }) htakers hfind hother hne hkind hkind' n
  · intro done alone noHome
    refine ⟨fun w hsearch => ⟨fun hd => ?_, fun hd hpost halone => ?_⟩, fun hsearch => ⟨fun hclosed halone => ?_, fun a hopens hacct hroom => ?_⟩,
      fun hsearch hbody halone => ?_⟩
    · exact congrArg Host.Outcome.next ((locateWindowEnd_due hfind hsearch).trans (windowEnd_deferred hd))
    · exact congrArg Host.Outcome.next ((locateWindowEnd_due hfind hsearch).trans ((windowEnd_deferredOut hd).trans
        (endSearch_failed halone.1 halone.2 hfind hpost _)))
    · exact congrArg Host.Outcome.next ((locateWindowEnd_due hfind hsearch).trans ((windowEnd_noHome hclosed).trans
        (endSearch_told (s := noHomeCounted s) halone.1 halone.2 hfind nofun nofun)))
    · exact congrArg Host.Outcome.next ((locateWindowEnd_due hfind hsearch).trans ((windowEnd_opens hopens).trans
        (placeOpening_room (s := noHomeCounted s) hacct hroom)))
    · have htold (o : ExcOut) (hfailed : ∀ last, o ≠ .failed last) := endSearch_told halone.1 halone.2 hfind hfailed fun _ => hbody
      exact ⟨(openingEnded_told hfind hsearch rfl).trans (htold _ nofun),
        fun n => (openingEnded_told hfind hsearch rfl).trans (htold _ nofun),
        fun c => (openingEnded_told hfind hsearch rfl).trans (htold _ nofun)⟩
  · exact congrArg Host.Outcome.next ((openingRetry_due hfind hsearch).trans (placeOpening_room hacct hroom))
  · rw [bookTakeLocalOpening_told hfront (decideOpen_yielding hacc hstate 0) rfl]
    exact congrArg Host.Outcome.next (openingEnded_defer (s := bookTaken rest s) hfind hsearch)
  · rw [bookTakeLocalOpening_told hfront (decideOpen_notActive hnone hline 0) rfl]
    exact congrArg Host.Outcome.next ((openingEnded_told (s := bookTaken rest s) hfind hsearch rfl).trans
      ((endSearch_told (s := bookTaken rest s) (o := .opening .notActive) halone hwaits hfind nofun nofun).trans
        (unitOutcome_weighNotActive (s := bookTaken rest s) href hrole hrun hweigh hstage hfind)))

end Sys2Proof.Machine
end

section
/-! The matching of an ANSWER to its entry, and what a matched one does (R97 to R100, R108 to R110). -/

namespace Sys2Proof.Machine
open Sys2Proof

section
variable {s : State} {h : Hdr} {a : RawAnswer} {k : ReqKind} {sub : Subject} {c : AnsCode} {d : AnsData} {e : Entry} {src q node : Nat}

/-! ### An ANSWER of the line (R71, R97) -/

/-- R71, R84, R88: the sender of an ANSWER has been heard, and the ANSWER counted as received. -/
def answerHeard (h : Hdr) (s : State) : State :=
  let l := peerHeard h.src none s.lif
  { s with lif := { l with cnt := { l.cnt with received := bump l.cnt.received } } }

theorem exec_answer (hheard : Heard false h s) (a : RawAnswer) : exec (.answer h a) s = .next (takeAnswer h a (answerHeard h s)) :=
  congrArg Host.Outcome.next (hear_heard hheard none ownHeard fun s => takeAnswer h a (countReceived s))

theorem takeAnswer_noKind (hkind : a.kind = none) : takeAnswer h a s = countUnmatched s := by simp only [takeAnswer, hkind]

theorem takeAnswer_read (hkind : a.kind = some k) (hcode : ansCodeOf a.code = some c) (hsub : readSubject a.subject = some sub)
    (hdata : readAnsData a.data = some d) (hfits : ansDataFits k c d = true) :
    takeAnswer h a s = takeLineAnswer h.src h.seq k sub c d s := by
  simp only [takeAnswer, hkind, takeAnswerTo, hsub, hdata, hcode, hfits, if_true]

theorem wait_of_fits_defer (h : ansDataFits k .defer d = true) : ∃ w, d = .wait w := by
  cases d with
  | wait w => exact ⟨w, rfl⟩
  | none | amount | counts | dropped | newHome | lot | holder => simp [ansDataFits] at h

theorem newHome_of_fits_moved (h : ansDataFits k .moved d = true) : ∃ n, d = .newHome n := by
  cases d with
  | newHome n => exact ⟨n, rfl⟩
  | none | amount | counts | dropped | wait | lot | holder => simp [ansDataFits] at h

/-! ### An answer to a LOCATE (R97, R104) -/

theorem takeLineAnswer_deferSearch {acct w : Nat} (hfind : findEntry s q = some e) (hstate : e.state = .unresolved)
    (hacct : e.account = some acct) : takeLineAnswer src q .locate (.account acct) .defer (.wait w) s =
      (deferSearch e w s).getD (countUnmatched s) := by
  simp [takeLineAnswer, hfind, hstate, hacct]

theorem longerWait_eq (tens : Option Nat) (w : Nat) : longerWait tens w = some (max (tens.getD 0) w) := by
  cases tens with
  | some x => rfl
  | none => exact congrArg some (Nat.zero_max w).symm

theorem deferSearch_window {second : Bool} {homes : List Nat} {tens : Option Nat} {left : Nat} (w : Nat)
    (hsearch : e.search = some (.window second homes tens left)) : deferSearch e w s = some (putEntry { e with
      last := some (.code .defer), search := some (.window second homes (some (max (tens.getD 0) w)) left) } s) := by
  simp only [deferSearch, hsearch, longerWait_eq]

theorem deferSearch_placing {second : Bool} {homes : List Nat} {tens : Option Nat} (w : Nat)
    (hsearch : e.search = some (.placing second homes tens)) : deferSearch e w s = some (putEntry { e with
      last := some (.code .defer), search := some (.placing second homes (some (max (tens.getD 0) w))) } s) := by
  simp only [deferSearch, hsearch, longerWait_eq]

theorem deferSearch_waiting {homes : List Nat} {left : Nat} (w : Nat) (hsearch : e.search = some (.waiting homes left)) :
    deferSearch e w s = some s := by
  simp only [deferSearch, hsearch]

theorem deferSearch_none (w : Nat) (hsearch : ∀ second homes tens left, e.search ≠ some (.placing second homes tens) ∧
    e.search ≠ some (.window second homes tens left) ∧ e.search ≠ some (.waiting homes left)) : deferSearch e w s = none := by
  simp only [deferSearch]
  split
  · next second homes tens hs => exact absurd hs (hsearch second homes tens 0).1
  · next second homes tens left hs => exact absurd hs (hsearch second homes tens left).2.1
  · next homes left hs => exact absurd hs (hsearch false homes none left).2.2
  · rfl

/-- R97, R104: but for a DEFER to the search of its account, an answer to a LOCATE matches nothing. -/
theorem takeLineAnswer_locateUnmatched (hmiss : c ≠ .defer ∨ (∀ e, findEntry s q = some e → e.state ≠ .unresolved ∨
      e.account.map Subject.account ≠ some sub ∨ ∀ second homes tens left, e.search ≠ some (.placing second homes tens) ∧
        e.search ≠ some (.window second homes tens left) ∧ e.search ≠ some (.waiting homes left))) :
    takeLineAnswer src q .locate sub c d s = countUnmatched s := by
  unfold takeLineAnswer
  split
  · next e hfind =>
    rw [if_pos rfl]
    split
    · next w hmatch =>
      obtain ⟨hstate, hacct⟩ := of_decide_eq_true hmatch
      obtain hcode | hmiss := hmiss
      · exact absurd rfl hcode
      · obtain hother | hother | hsearch := hmiss e hfind
        · exact absurd hstate hother
        · exact absurd hacct hother
        · rw [deferSearch_none w hsearch, Option.getD_none]
    · rfl
  · rfl

/-! ### An answer to a request (R97) -/

theorem takeLineAnswer_unmatched (hk : k ≠ .locate) (hmiss : ∀ e, findEntry s q = some e → awaits e = false ∨ e.dest ≠ some src ∨
    e.body.kind ≠ k ∨ entrySubject e ≠ some sub ∨ codeAllowed e.body c = false) :
    takeLineAnswer src q k sub c d s = countUnmatched s := by
  cases hfind : findEntry s q with
  | none => simp only [takeLineAnswer, hfind]
  | some e => obtain hm | hm | hm | hm | hm := hmiss e hfind <;> simp [takeLineAnswer, hfind, hk, hm]

theorem takeLineAnswer_matched (hk : k ≠ .locate) (hfind : findEntry s q = some e) (hawaits : awaits e = true) (hdest : e.dest = some src)
    (hkind : e.body.kind = k) (hsub : entrySubject e = some sub) (hallowed : codeAllowed e.body c = true) :
    takeLineAnswer src q k sub c d s = takeMatched e c d src s := by
  simp [takeLineAnswer, hfind, hk, hawaits, hdest, hkind, hsub, hallowed]

/-! ### A final answer (R98, R102) -/

/-- R98: an entry that has its final answer. -/
def answeredEntry (c : AnsCode) (e : Entry) : Entry :=
  { e with state := .doneToUnit, last := some (.code c), sends := 0, deadline := none, tok := 0 }

theorem finalEntry_eq (e : Entry) (c : AnsCode) (d : AnsData) (node : Nat) (s : State) : finalEntry e c d node s =
    unitOutcome (answeredEntry c e) (.answer c d node) (if e.body.isPost then putEntry (answeredEntry c e) s else freePlace e.seq s) := by
  unfold finalEntry
  exact (apply_ite (unitOutcome (answeredEntry c e) (.answer c d node)) ..).symm

theorem takeMatched_final (hdefer : c ≠ .defer) (hmoved : c ≠ .moved) (hmalformed : c ≠ .malformed) (hunknown : c ≠ .unknown) :
    takeMatched e c d node s = finalEntry e c d node s := by
  unfold takeMatched
  split
  · exact absurd rfl hdefer
  · exact absurd rfl hmoved
  · exact absurd rfl hmalformed
  · exact absurd rfl hunknown
  · rfl

theorem isTransfer_iff : isTransfer e = true ↔ ∃ p, e.body = .post p ∧ p.kind = .transfer := by
  unfold isTransfer
  split
  · next p hbody => simp [hbody]
  · next hplain => simpa using fun p hbody => absurd hbody (hplain p)

/-- R98, R108: UNKNOWN is a final answer to a TRANSFER, and to a request whose destination the home map did not give. -/
theorem takeMatched_unknownFinal (hfinal : (∃ p, e.body = .post p ∧ p.kind = .transfer) ∨ (e.body.isPost = false ∧ e.fromMap = false)) :
    takeMatched e .unknown d node s = finalEntry e .unknown d node s := by
  obtain htransfer | ⟨hplain, hmap⟩ := hfinal
  · have hpost : e.isPost = true := by
      obtain ⟨p, hbody, -⟩ := htransfer
      rw [Entry.isPost, hbody]
      rfl
    simp [takeMatched, hpost, isTransfer_iff.2 htransfer]
  · have hpost : e.isPost = false := hplain
    simp [takeMatched, hpost, hmap]

/-- R152: a RELEASE of the clock that is answered DONE. -/
theorem unitOutcome_clockReleased (href : e.ref = .cluRelease) (hrole : s.port.role = some .clock) :
    unitOutcome e (.answer .done d node) s = s := by
  have hservice : unitInService s .cluRelease = true := by simp [unitInService, Ref.role, State.inService, hrole]
  simp [unitOutcome, href, hservice, cluReleaseOutcome]

theorem freePlace_role (q : Nat) (s : State) : (freePlace q s).port.role = s.port.role := by unfold freePlace; split <;> rfl

/-! ### A FAILED posting (R98, R100) -/

/-- R100: a DEFER, a MOVED or another failure changes nothing at a FAILED posting. -/
theorem takeMatched_failed (hfits : ansDataFits k c d = true) (hstate : e.state = .failed) (hawaits : awaits e = true)
    (hcode : c = .defer ∨ c = .moved ∨ c = .malformed ∨ (c = .unknown ∧ ¬ ∃ p, e.body = .post p ∧ p.kind = .transfer)) :
    takeMatched e c d node s = s := by
  have hfailed : (e.state == .failed) = true := by simp [hstate]
  obtain rfl | rfl | rfl | ⟨rfl, hother⟩ := hcode
  · obtain ⟨w, rfl⟩ := wait_of_fits_defer hfits
    exact if_pos hfailed
  · obtain ⟨n, rfl⟩ := newHome_of_fits_moved hfits
    exact if_pos hfailed
  · exact if_pos hfailed
  · have hpost : e.isPost = true := by simpa [awaits, hstate] using hawaits
    have hno : ¬ isTransfer e = true := fun htransfer => hother (isTransfer_iff.1 htransfer)
    simp [takeMatched, hpost, hno, hfailed]

section
variable (hstate : e.state ≠ .failed) (hrun : s.sys.phase = .running)
include hstate

/-! ### DEFER (R99) -/

/-- R99, R113: a DEFER to a request is counted. -/
def deferCounted (s : State) : State := { s with exc := { s.exc with cnt := { s.exc.cnt with defers := bump s.exc.cnt.defers } } }

theorem takeMatched_defer {w : Nat} (hdeferrals : e.deferrals < 20) : takeMatched e .defer (.wait w) node s = putEntry { e with
    state := .deferred, sends := 0, deferrals := e.deferrals + 1, deadline := some (w * 10), tok := 0
    last := some (.code .defer) } (deferCounted s) :=
  (if_neg (by simp [hstate])).trans (if_neg (Nat.not_le.2 hdeferrals))

include hrun in
theorem takeMatched_deferOut {w : Nat} (hdeferrals : 20 ≤ e.deferrals) : takeMatched e .defer (.wait w) node s =
    entryFailed { e with sends := 0, last := some (.code .defer) } (.code .defer) (deferCounted s) :=
  (if_neg (by simp [hstate])).trans ((if_pos hdeferrals).trans (failEntry_running (s := deferCounted s) hrun ..))

/-! ### MOVED (R109, R110) -/

/-- R109, R113: a MOVED that is followed is counted. -/
def movedCounted (s : State) : State := { s with exc := { s.exc with cnt := { s.exc.cnt with moved := bump s.exc.cnt.moved } } }

/-- R109: an entry that has been told of a new home. -/
def toldMoved (e : Entry) : Entry := { e with sends := 0, last := some (.code .moved), deadline := none, tok := 0 }

/-- R109: an entry that follows to node `n`. -/
def movedTo (n : Nat) (e : Entry) : Entry :=
  { toldMoved e with state := .queued, dest := some n, moves := e.moves + 1, fromMap := false }

include hrun in
theorem takeMatched_movedOut {n : Nat} (hmoves : 8 ≤ e.moves) :
    takeMatched e .moved (.newHome n) node s = entryFailed (toldMoved e) (.code .moved) s :=
  (if_neg (by simp [hstate])).trans ((if_pos hmoves).trans (failEntry_running hrun ..))

theorem takeMatched_readdressed {n acct : Nat} (hmoves : e.moves < 8) (hacct : e.account = some acct) (hplain : e.body.isPost = false) :
    takeMatched e .moved (.newHome n) node s = putEntry { movedTo n e with deferrals := 0 } (mapMoved acct n (movedCounted s)) := by
  have hgiven : e.account.getD 0 = acct := by rw [hacct]; rfl
  rw [← hgiven]
  exact (if_neg (by simp [hstate])).trans ((if_neg (Nat.not_le.2 hmoves)).trans (if_neg (by simp [Entry.isPost, hplain])))

theorem takeMatched_reidentified {n acct : Nat} {p : Posting} (hfind : findEntry s e.seq = some e) (hmoves : e.moves < 8)
    (hacct : e.account = some acct) (hbody : e.body = .post p) (hready : CommitReady s) (hlist : ListOpen s) :
    takeMatched e .moved (.newHome n) node s = reidentAsked (movedTo n e) p (mapMoved acct n (movedCounted s)) := by
  have hgiven : e.account.getD 0 = acct := by rw [hacct]; rfl
  have hpost : e.isPost = true := by rw [Entry.isPost, hbody]; rfl
  obtain ⟨m, cnt, hmap⟩ := mapMoved_eq acct n (movedCounted s)
  have hask : takeMatched e .moved (.newHome n) node s =
      askReident e.seq (putEntry { movedTo n e with committing := true } (mapMoved (e.account.getD 0) n (movedCounted s))) :=
    (if_neg (by simp [hstate])).trans ((if_neg (Nat.not_le.2 hmoves)).trans (if_pos hpost))
  rw [hask, hgiven, hmap]
  exact askReident_putEntry (s := { movedCounted s with exc := { (movedCounted s).exc with homeMap := m, cnt := cnt } })
    (e' := movedTo n e) hready hlist hfind hbody

/-! ### MALFORMED and UNKNOWN (R98, R100, R108) -/

include hrun in
theorem takeMatched_malformed : takeMatched e .malformed d node s = entryFailed { e with sends := 0 } (.code .malformed) s :=
  (if_neg (by simp [hstate])).trans (failEntry_running hrun ..)

include hrun in
theorem takeMatched_unknownFailed (hpost : e.body.isPost = true) (hother : ¬ ∃ p, e.body = .post p ∧ p.kind = .transfer) :
    takeMatched e .unknown d node s = entryFailed { e with sends := 0 } (.code .unknown) s := by
  have hno : ¬ isTransfer e = true := fun htransfer => hother (isTransfer_iff.1 htransfer)
  exact (if_pos hpost).trans ((if_neg hno).trans ((if_neg (by simp [hstate])).trans (failEntry_running hrun ..)))

end

theorem takeMatched_staleMap (hplain : e.body.isPost = false) (hmap : e.fromMap = true) :
    takeMatched e .unknown d node s = takeStaleMap e s :=
  (if_neg (by simp [Entry.isPost, hplain])).trans (if_pos hmap)

end

end Sys2Proof.Machine
end

section
/-! An UNKNOWN from a stale home map, and the ends of a re-identification's commit (R56, R103, R108, R110); how an ANSWER is matched (O34). -/

namespace Sys2Proof.Machine
open Sys2Proof

section
variable {s : State} {e : Entry} {q a n : Nat}

/-! ### The home map (R107) -/

theorem mapMoved_homeMap (a n : Nat) (s : State) : (mapMoved a n s).exc.homeMap =
    if n = s.node.number then s.exc.homeMap.filter fun x => x.1 != a
    else (a, n) :: (s.exc.homeMap.filter fun x => x.1 != a).take 15 := by
  have hself : s.self = s.node.number := rfl
  unfold mapMoved
  rw [hself]
  split
  · rfl
  · next hother =>
    simp only [mapEnter, hself, if_neg hother, onExc_exc]
    split
    · next hroom => rw [List.take_of_length_le (Nat.le_of_lt_succ hroom)]
    · rfl

theorem mapFind_filter (a : Nat) (m : List (Nat × Nat)) : mapFind (m.filter fun x => x.1 != a) a = none := by
  have hnone : (m.filter fun x => x.1 != a).find? (fun x => x.1 == a) = none :=
    List.find?_eq_none.2 fun x hx => by simpa using (List.mem_filter.1 hx).2
  simp [mapFind, hnone]

theorem placeLocate_homeMap (e : Entry) (second : Bool) (homes : List Nat) (tens : Option Nat) (s : State) :
    (placeLocate e second homes tens s).exc.homeMap = s.exc.homeMap := by
  unfold placeLocate
  obtain ⟨-, hplace⟩ | ⟨-, hplace⟩ | ⟨-, hplace⟩ := placeRequest_cases (newMsg .request 0 e.seq (.request e.account .locate) .exc s.exc.tok)
    (putEntry { e with search := some (.placing second homes tens), tok := s.exc.tok } (takeToken s)) <;> rw [hplace] <;> rfl

/-! ### An entry resolved afresh (R103) -/

theorem lookFor_account {acc : Account} (hacc : accountOf s a = some acc) : ∃ n moved, lookFor s e a = .node n moved false := by
  rw [accountOf] at hacc
  simp only [lookFor, hacc]
  split <;> exact ⟨_, _, rfl⟩

theorem lookFor_here {acc : Account} (hacc : accountOf s a = some acc) (hstate : acc.state = .opened ∨ acc.state = .yielding) :
    lookFor s e a = .node s.node.number false false := by
  rw [accountOf] at hacc
  obtain hstate | hstate := hstate <;> simp only [lookFor, hacc, hstate] <;> rfl

theorem lookFor_unmapped (hacc : accountOf s a = none) (hmap : mapFind s.exc.homeMap a = none) :
    lookFor s e a = .waits ∨ lookFor s e a = .searches := by
  rw [accountOf] at hacc
  simp only [lookFor, hacc, hmap]
  split <;> [exact .inl rfl; exact .inr rfl]

section
variable (start : Entry → State → State) (hfind : findEntry s q = some e) (hkind : e.body.kind ≠ .locate) (hstate : e.state = .unresolved)
  (hsearch : e.search = none) (hacct : e.account = some a)
include hfind hkind hstate hsearch hacct

theorem resolveWith_node {moved : Bool} (hlook : lookFor s e a = .node n moved false) : resolveWith start q s =
    (putEntry { e with state := .queued, dest := some n, fromMap := false, search := none
                       moves := if moved then e.moves + 1 else e.moves } s, none) := by
  have hno : opens e = false := by simp [opens, hsearch]
  simp [resolveWith, hfind, hno, hkind, hstate, hacct, hlook]

theorem resolveWith_waits (hlook : lookFor s e a = .waits) :
    resolveWith start q s = (putEntry { e with search := some .onOther } s, none) := by
  have hno : opens e = false := by simp [opens, hsearch]
  simp [resolveWith, hfind, hno, hkind, hstate, hacct, hlook]

/-- R103, R107: where the home map does not know the account, its resolution leaves the map as it is. -/
theorem resolveEntry_homeMap (hactive : s.lif.state = .active) (hmap : mapFind s.exc.homeMap a = none) :
    (resolveEntry q s).1.exc.homeMap = s.exc.homeMap := by
  unfold resolveEntry
  cases hacc : accountOf s a with
  | some acc =>
    obtain ⟨n, moved, hlook⟩ := lookFor_account (e := e) hacc
    rw [resolveWith_node _ hfind hkind hstate hsearch hacct hlook]
    rfl
  | none =>
    obtain hlook | hlook := lookFor_unmapped (e := e) hacc hmap
    · rw [resolveWith_waits _ hfind hkind hstate hsearch hacct hlook]
      rfl
    · rw [resolveWith_searches _ hfind hactive hstate hsearch hacct hlook]
      exact placeLocate_homeMap e false [] none (countSearch s)

end

/-! ### UNKNOWN from a stale home map (R108) -/

/-- R108: an entry that is resolved afresh. -/
def resolvedAfresh (e : Entry) : Entry := { e with
  state := .unresolved, dest := none, sends := 0, deferrals := 0, deadline := none, tok := 0, last := some (.code .unknown)
  fromMap := false, search := none }

/-- R108: the account has left the home map, and the entry stands to be resolved afresh. -/
def mapForgotten (e : Entry) (a : Nat) (s : State) : State := putEntry (resolvedAfresh e) (mapRemove a s)

theorem takeStaleMap_eq (hacct : e.account = some a) : takeStaleMap e s = (resolveEntry e.seq (mapForgotten e a s)).1 := by
  have hgiven : e.account.getD 0 = a := by rw [hacct]; rfl
  rw [← hgiven]
  rfl

theorem findEntry_mapForgotten (hfind : findEntry s e.seq = some e) (a : Nat) :
    findEntry (mapForgotten e a s) e.seq = some (resolvedAfresh e) :=
  findEntry_putEntry (s := mapRemove a s) (e' := resolvedAfresh e) hfind

section
variable (hfind : findEntry s e.seq = some e) (hkind : e.body.kind ≠ .locate) (hacct : e.account = some a)
include hfind hkind hacct

theorem takeStaleMap_homeMap (hactive : s.lif.state = .active) :
    (takeStaleMap e s).exc.homeMap = s.exc.homeMap.filter fun x => x.1 != a := by
  rw [takeStaleMap_eq hacct]
  exact resolveEntry_homeMap (s := mapForgotten e a s) (findEntry_mapForgotten hfind a) hkind rfl rfl hacct hactive (mapFind_filter ..)

theorem takeStaleMap_lif {acc : Account} (hacc : accountOf s a = some acc) : (takeStaleMap e s).lif = s.lif := by
  obtain ⟨n, moved, hlook⟩ := lookFor_account (s := mapForgotten e a s) (e := resolvedAfresh e) hacc
  rw [takeStaleMap_eq hacct, resolveEntry, resolveWith_node _ (findEntry_mapForgotten hfind a) hkind rfl rfl hacct hlook]
  rfl

theorem takeStaleMap_here {acc : Account} (hacc : accountOf s a = some acc) (hstate : acc.state = .opened ∨ acc.state = .yielding) :
    findEntry (takeStaleMap e s) e.seq = some { resolvedAfresh e with state := .queued, dest := some s.node.number } := by
  have hlook : lookFor (mapForgotten e a s) (resolvedAfresh e) a = .node s.node.number false false :=
    lookFor_here (s := mapForgotten e a s) hacc hstate
  rw [takeStaleMap_eq hacct, resolveEntry, resolveWith_node _ (findEntry_mapForgotten hfind a) hkind rfl rfl hacct hlook]
  exact findEntry_putEntry (s := mapForgotten e a s) (e' := { resolvedAfresh e with state := .queued, dest := some s.node.number })
    (findEntry_mapForgotten hfind a)

omit hkind in
/-- R103, R104: an account that nothing else tells of is searched for, with a LOCATE at once. -/
theorem takeStaleMap_searches (hopen : LineOpen s) (hacc : accountOf s a = none) (hnone : ∀ x ∈ s.exc.entries, x.state ≠ .unresolved) :
    takeStaleMap e s = requestSent { resolvedAfresh e with search := some (.placing false [] none), tok := s.exc.tok } 0 .locate
      (countSearch (mapForgotten e a s)) := by
  have hlook : lookFor (mapForgotten e a s) (resolvedAfresh e) a = .searches := by
    refine lookFor_searches (s := mapForgotten e a s) hacc (mapFind_filter ..) fun x hx hne => ?_
    have hx : x ∈ setEntryIn (resolvedAfresh e) s.exc.entries := hx
    obtain ⟨y, hy, hyx⟩ := List.mem_map.1 hx
    split at hyx
    · exact absurd (congrArg Entry.seq hyx).symm hne
    · simp [searching, ← hyx, hnone y hy]
  rw [takeStaleMap_eq hacct, resolveEntry,
    resolveWith_searches (s := mapForgotten e a s) _ (findEntry_mapForgotten hfind a) hopen.1 rfl rfl hacct hlook]
  exact placeLocate_line (s := countSearch (mapForgotten e a s)) (resolvedAfresh e) false [] none hopen

omit hkind in
theorem findEntry_takeStaleMap_searches (hopen : LineOpen s) (hacc : accountOf s a = none)
    (hnone : ∀ x ∈ s.exc.entries, x.state ≠ .unresolved) : findEntry (takeStaleMap e s) e.seq =
      some { resolvedAfresh e with search := some (.placing false [] none), tok := s.exc.tok } := by
  rw [takeStaleMap_searches hfind hacct hopen hacc hnone]
  exact findEntry_putEntry (s := countSearch (mapForgotten e a s))
    (e' := { resolvedAfresh e with search := some (.placing false [] none), tok := s.exc.tok }) (findEntry_mapForgotten hfind a)

end

/-! ### The OUTBOUND write of a re-identification (R55, R56, R110) -/

section
variable {id : Ident} {p : Posting}

@[simp] theorem slotWritten_exc (i : Nat) (c : Copy) (s : State) : (slotWritten i c s).exc = s.exc := by
  unfold slotWritten noteFall
  split <;> simp

/-- R110: the state after the OUTBOUND write of a re-identification, its entry renamed, and the NODE write next. -/
def outboundWritten (i : Nat) (c : Copy) (s : State) : State := writeReached 1 (noteRenamed (slotWritten i c s))

theorem outboundWritten_store (i : Nat) (c : Copy) (s : State) :
    (outboundWritten i c s).store = { (slotWritten i c s).store with idx := 1, op := none } := by
  simp [outboundWritten, writeReached]

/-- R55, R110: the OUTBOUND write verifies, and the NODE write begins. -/
theorem storeWriteEnd_outbound {i m j : Nat} {c : Copy} {o : OutRec} {ch : NodeChange} (herasing : s.store.erasing = none)
    (hop : s.store.op = some (.write i c m)) (hcur : s.store.cur = some ⟨.excWork, .group [.outbound o, .node ch]⟩) (hidx : s.store.idx = 0)
    (hfree : lowest isFree (slotWritten i c s).store = some j) (hcount : currentCount (slotWritten i c s).store .node < 4294967295) :
    exec (.storeWriteEnd true) s =
      .next (setOp (.write j (composeCopy (outboundWritten i c s) (.node ch)) 1) (outboundWritten i c s)) := by
  have hstore := outboundWritten_store i c s
  have hwrite : currentWrite s = some (.outbound o) := by
    rw [currentWrite_group hcur rfl, hidx]
    rfl
  have hnext : currentWrite (outboundWritten i c s) = some (.node ch) := by
    rw [currentWrite_group (r := ⟨.excWork, .group [.outbound o, .node ch]⟩) (by rw [hstore, slotWritten_store]; exact hcur) rfl, hstore]
    rfl
  have hend : writeEnd true s = nextWrite 1 (outboundWritten i c s) := by
    rw [writeEnd_verified hop herasing hwrite, hidx]
    rfl
  have hbegin := beginWrite_free (s := outboundWritten i c s) (w := .node ch) (n := 1) (i := j) (by rw [hstore]; exact hcount)
    (by rw [hstore]; exact hfree)
  rw [exec_storeWriteEnd, hend, nextWrite_some hnext, hbegin]
  rfl

theorem findEntry_outboundWritten {i : Nat} {c : Copy} (hwork : s.exc.work = some (.reident e.seq id)) (hfind : findEntry s e.seq = some e)
    (hbody : e.body = .post p) (hid : p.id ≠ id) : findEntry (outboundWritten i c s) e.seq =
      some { e with body := .post { p with id := id }, replaced := some p.id, sends := 0, deferrals := 0 } := by
  have hexc : (slotWritten i c s).exc = s.exc := slotWritten_exc i c s
  have hrenamed := findEntry_noteRenamed (s := slotWritten i c s) (by rw [hexc]; exact hwork) e.seq
  have hstands : findEntry (slotWritten i c s) e.seq = some e := by rw [findEntry, hexc]; exact hfind
  rw [hstands, Option.map_some, if_pos rfl, renamed_post hbody hid] at hrenamed
  exact hrenamed

theorem noteRenamed_work (s : State) : (noteRenamed s).exc.work = s.exc.work := by unfold noteRenamed; split <;> rfl

theorem outboundWritten_work (i : Nat) (c : Copy) (s : State) : (outboundWritten i c s).exc.work = s.exc.work :=
  (noteRenamed_work _).trans (congrArg Exc.work (slotWritten_exc i c s))

/-- R100, R102: no job comes of a failed posting that no unit waits for. -/
theorem entryFailed_jobs {x : Entry} (hbody : e.body = .post p) (hout : unitInService s e.ref = false) (hfind : findEntry s e.seq = some x)
    (last : LastAns) : (entryFailed e last s).exc.jobs = s.exc.jobs := by
  unfold entryFailed
  split
  · rw [unitOutcome_discarded]
    · rfl
    · exact hout
    · exact findEntry_putEntry (e' := { e with state := .failed, last := some last, deadline := none, tok := 0 }) hfind
    · rfl
  · next hplain => exact absurd hbody (hplain p)

/-! ### The outcome of a re-identification's commit (R93, R110) -/

/-- R110: the re-identification has ended, with `n` the next posting number, and the record under the old identity is removed. -/
def reidentDone (e : Entry) (old : Ident) (n : Nat) (s : State) : State :=
  listed ⟨.outRemoval old, .removal (.outbound old.epoch old.number)⟩
    (putEntry { e with committing := false, reident := none } { s with
      node := { s.node with nextPosting := n }
      exc := { s.exc with work := none, cnt := { s.exc.cnt with reidents := bump s.exc.cnt.reidents } } })

/-- R93: a NODE write that fails after the OUTBOUND writes uses its numbers up. -/
theorem numbersAfter_risen {res : StoreRes} (k : Nat) (hres : res ≠ .done) (hepoch : s.node.epoch = s.sys.epoch)
    (hnumber : s.node.nextPosting + k ≤ 65535) :
    numbersAfter k res s = { s with node := { s.node with nextPosting := s.node.nextPosting + k } } := by
  have hmin : min 65536 (s.node.nextPosting + k) = s.node.nextPosting + k := by omega
  have hrisen : numbersAfter k res s = adoptNumbers { s with node := { s.node with nextPosting := s.node.nextPosting + k } } := by
    cases res with
    | done => exact absurd rfl hres
    | full i | fault i => simp only [numbersAfter, numbersRisen, State.onNode, hmin]
  rw [hrisen]
  exact numbersAfter_done (s := { s with node := { s.node with nextPosting := s.node.nextPosting + k } }) k hepoch hnumber

section
variable (hwork : s.exc.work = some (.reident e.seq id)) (hjobs : s.exc.jobs = []) (hfind : findEntry s e.seq = some e)
  (hbody : e.body = .post p)
include hwork hjobs hfind hbody

theorem excWorkEnded_reidentDone {old : Ident} {res : StoreRes} {m : Nat} (hid : p.id = id) (hold : e.replaced = some old) (hlist : ListOpen s)
    (hdone : outboundsDone 1 res = true) (hnumbers : numbersAfter 1 res (s.onExc fun x => { x with work := none }) =
      { s with node := { s.node with nextPosting := m }, exc := { s.exc with work := none } }) :
    excWorkEnded res s = reidentDone e old m s := by
  subst hid
  have hfind' : findEntry (s.onExc fun x => { x with work := none }) e.seq = some e := hfind
  have hended : reidentEnded e.seq p.id res (s.onExc fun x => { x with work := none }) = reidentDone e old m s := by
    simp only [reidentEnded, reidentDone, hfind', hdone, if_true, renamed_same hbody, hold, hnumbers]
    exact placeRemoval_room (s := putEntry _ _) hlist.1 hlist.2 nofun
  simp only [excWorkEnded, hwork]
  rw [hended]
  exact runJobs_idle _ hjobs

/-- R100, R110: the OUTBOUND write failed, and the posting becomes FAILED with its new home. -/
theorem excWorkEnded_reidentFailed {res : StoreRes} (hrun : s.sys.phase = .running) (hout : unitInService s e.ref = false)
    (hres : outboundsDone 1 res = false) : excWorkEnded res s =
      entryFailed { e with committing := false, reident := e.dest } (.code .moved) { s with exc := { s.exc with work := none } } := by
  have hfind' : findEntry (s.onExc fun x => { x with work := none }) e.seq = some e := hfind
  have hended : reidentEnded e.seq id res (s.onExc fun x => { x with work := none }) =
      entryFailed { e with committing := false, reident := e.dest } (.code .moved) { s with exc := { s.exc with work := none } } := by
    simp only [reidentEnded, hfind', hres, Bool.false_eq_true, if_false, reidentFailed]
    exact failEntry_running (s := s.onExc _) hrun ..
  simp only [excWorkEnded, hwork]
  rw [hended]
  refine runJobs_idle _ ?_
  exact (entryFailed_jobs (s := { s with exc := { s.exc with work := none } }) (e := { e with committing := false, reident := e.dest })
    hbody hout hfind _).trans hjobs

end

end

end

/-- Settles O34: an ANSWER to a LOCATE by the search it meets, any other by whether it is matched, and a matched one by its code and the
state of its entry; the re-identification by the write or the outcome that ends. -/
theorem answersAreMatched : Obligations.AnswersAreMatched := by
  refine ⟨fun s h a hheard hkind => ?_, fun s h a k sub c d hheard hkind hcode hsub hdata hfits => ?_, fun s acct n => mapMoved_homeMap acct n s,
    fun s e p id hwork hjobs hfind hbody hrun hout => ⟨?_, ?_, ?_⟩⟩
  · exact (exec_answer hheard a).trans (congrArg Host.Outcome.next (takeAnswer_noKind hkind))
  · intro l t counted
    have hexec {u : State} (htake : takeLineAnswer h.src h.seq k sub c d t = u) : exec (.answer h a) s = .next u :=
      (exec_answer hheard a).trans (congrArg Host.Outcome.next ((takeAnswer_read hkind hcode hsub hdata hfits).trans htake))
    refine ⟨fun hk => ⟨fun w hc hd e acct hfind hstate hacct hsubj => ?_, fun hmiss => ?_⟩,
      fun hk hmiss => hexec (takeLineAnswer_unmatched (s := t) hk hmiss), fun e hk hfind hawaits hdest hbk hsubj hallowed => ?_⟩
    · subst hk hc hd hsubj
      have htake {u : State} (hu : deferSearch e w t = some u) : exec (.answer h a) s = .next u :=
        hexec ((takeLineAnswer_deferSearch (s := t) hfind hstate hacct).trans (by rw [hu, Option.getD_some]))
      exact ⟨fun second homes tens left hsearch => htake (deferSearch_window w hsearch),
        fun second homes tens hsearch => htake (deferSearch_placing w hsearch),
        fun homes left hsearch => htake (deferSearch_waiting w hsearch)⟩
    · subst hk
      exact hexec (takeLineAnswer_locateUnmatched (s := t) hmiss)
    · obtain ⟨-, hq⟩ := findEntry_mem hfind
      have hfind : findEntry t e.seq = some e := by rw [hq]; exact hfind
      have htake {u : State} (hu : takeMatched e c d h.src t = u) : exec (.answer h a) s = .next u :=
        hexec ((takeLineAnswer_matched hk (hq ▸ hfind) hawaits hdest hbk hsubj hallowed).trans hu)
      have hlocate : e.body.kind ≠ .locate := hbk.trans_ne hk
      intro isTransfer final
      have hfinal (hu : takeMatched e c d h.src t = finalEntry e c d h.src t) : final := htake (hu.trans (finalEntry_eq ..))
      refine ⟨fun hdefer hmoved hmalformed hunknown => hfinal (takeMatched_final hdefer hmoved hmalformed hunknown),
        fun hc href hrelease hrole => ?_, fun hc hown => ?_, fun hstate hlate => htake (takeMatched_failed hfits hstate hawaits hlate),
        fun hstate hrun => ⟨fun w hd hc => ?_, fun n hd hc => ?_, fun hc => ?_, fun hc hpost hother => ?_, fun acct hc hplain hmap hacct => ?_⟩⟩
      · subst hc
        have hplain : e.body.isPost = false := by
          cases hb : e.body with
          | post p => simp [hb, ReqBody.kind, hrelease] at hbk
          | locate | hold | release | claim | lotReport => rfl
        refine htake ((takeMatched_final (c := .done) nofun nofun nofun nofun).trans ((finalEntry_eq ..).trans ?_))
        rw [hplain]
        exact unitOutcome_clockReleased (e := answeredEntry .done e) href ((freePlace_role ..).trans hrole)
      · subst hc
        exact hfinal (takeMatched_unknownFinal hown)
      · subst hd hc
        exact ⟨fun hd => htake (takeMatched_defer hstate hd), fun hd => htake (takeMatched_deferOut (s := t) hstate hrun hd)⟩
      · subst hd hc
        exact ⟨fun hm => htake (takeMatched_movedOut (s := t) hstate hrun hm),
          fun acct hm hacct hplain => htake (takeMatched_readdressed hstate hm hacct hplain),
          fun acct p hm hacct hbody hready hlist => htake (takeMatched_reidentified (s := t) hstate hfind hm hacct hbody hready hlist)⟩
      · subst hc
        exact htake (takeMatched_malformed (s := t) hstate hrun)
      · subst hc
        exact htake (takeMatched_unknownFailed (s := t) hstate hrun hpost hother)
      · subst hc
        refine ⟨_, htake (takeMatched_staleMap hplain hmap), takeStaleMap_homeMap hfind hlocate hacct hheard.1, fun hknown => ?_,
          fun acc hacc hstate => takeStaleMap_here hfind hlocate hacct (s := t) hacc hstate, fun hnone hroom hsettled => ⟨?_, ?_⟩⟩
        · obtain ⟨acc, hacc⟩ := Option.isSome_iff_exists.1 hknown
          exact takeStaleMap_lif (s := t) hfind hlocate hacct hacc
        · exact findEntry_takeStaleMap_searches (s := t) hfind hacct ⟨hheard.1, hroom⟩ hnone hsettled
        · rw [takeStaleMap_searches (s := t) hfind hacct ⟨hheard.1, hroom⟩ hnone hsettled]
          rfl
  · intro i c n o ch j herasing hop hcur hidx hid hfree hcount
    exact ⟨_, storeWriteEnd_outbound herasing hop hcur hidx hfree hcount, outboundWritten_work i c s,
      findEntry_outboundWritten hwork hfind hbody hid⟩
  · intro old hid hold hlist hepoch ended
    refine ⟨fun hnumber => ?_, fun res hres hnumber => ?_⟩
    · exact excWorkEnded_reidentDone hwork hjobs hfind hbody hid hold hlist rfl
        (numbersAfter_done (s := s.onExc fun x => { x with work := none }) 1 hepoch hnumber)
    · have hdone : outboundsDone 1 res = true := by obtain rfl | rfl := hres <;> rfl
      have hfailed : res ≠ .done := by obtain rfl | rfl := hres <;> nofun
      exact excWorkEnded_reidentDone hwork hjobs hfind hbody hid hold hlist hdone
        (numbersAfter_risen (s := s.onExc fun x => { x with work := none }) 1 hfailed hepoch hnumber)
  · intro res hres
    have hundone : outboundsDone 1 res = false := by obtain rfl | rfl := hres <;> rfl
    exact excWorkEnded_reidentFailed hwork hjobs hfind hbody hrun hout hundone

end Sys2Proof.Machine
end

section
/-! What the commands of the Weighing Unit's station port share, and READ READING at every role (O20). -/

namespace Sys2Proof.Machine
open Sys2Proof

/-! ### A frame whose answer ends a READ READING (R125, R196) -/

section
variable {s : State}

@[simp] theorem carryAnswer_sys (s : State) : (carryAnswer s).sys = s.sys := by rw [carryAnswer_eq]
@[simp] theorem carryAnswer_role (s : State) : (carryAnswer s).port.role = s.port.role := by rw [carryAnswer_eq]
@[simp] theorem carryAnswer_lif (s : State) : (carryAnswer s).lif = s.lif := by rw [carryAnswer_eq]
@[simp] theorem carryAnswer_store (s : State) : (carryAnswer s).store = s.store := by rw [carryAnswer_eq]
@[simp] theorem carryAnswer_icm (s : State) : (carryAnswer s).icm = s.icm := by rw [carryAnswer_eq]
@[simp] theorem carryAnswer_cgt (s : State) : (carryAnswer s).cgt = s.cgt := by rw [carryAnswer_eq]
@[simp] theorem carryAnswer_wgu (s : State) : (carryAnswer s).wgu = readEnded s.wgu := by rw [carryAnswer_eq]

/-- R125: the frame that comes while a reading is held ends the hold. -/
theorem readEnded_reading {w : Wgu} (h : w.reading = true) :
    readEnded w = { w with reading := false, offered := w.waiting.getD w.offered, waiting := none } := if_pos h

/-- An owner that refuses leaves the state as the frame found it. -/
theorem frame_refused (h : Taken s) {role : Option Role} (hr : role = none ∨ role = s.port.role) {owner : State → State × Reply} {c : PCode}
    (ho : owner (carryAnswer s) = refuse c (carryAnswer s)) : frame true role owner s = answered c .none s :=
  frame_effect h role hr owner c .none ho

/-! ### READ READING (R125, R177, R192, R203) -/

theorem readingRole_of {r : Role} (hrole : s.port.role = some r) (hr : r ≠ .clock) : readingRole s = true := by
  simp [readingRole, hrole, hr]

theorem readingRole_none (h : s.port.role = none ∨ s.port.role = some .clock) : readingRole s = false := by
  obtain h | h := h <;> simp [readingRole, h]

@[simp] theorem readingRole_carryAnswer (s : State) : readingRole (carryAnswer s) = readingRole s := by simp [readingRole]

theorem readReadingOwner_wrongRole (h : readingRole s = false) (sel : ReadingSel) : readReadingOwner sel s = refuse .wrongRole s := by
  simp [readReadingOwner, h]

theorem readReadingOwner_badValue (h : readingRole s = true) : readReadingOwner .other s = refuse .badValue s := by
  simp [readReadingOwner, h]

theorem readReadingOwner_data {sel : ReadingSel} {d : PData} (h : readingRole s = true) (hsel : sel ≠ .other)
    (hd : readingData sel s = some d) :
    readReadingOwner sel s = (if s.inService .scale then s.onWgu fun w => { w with reading := true } else s, ⟨.done, d⟩) := by
  simp [readReadingOwner, h, hsel, hd]

/-- R125: the reading offered when the frame starts is shown, and its hold begins. -/
theorem frame_readReading_scale (h : Taken s) (hrole : s.port.role = some .scale) :
    let t := answered .done (.reading (readEnded s.wgu).offered (pageInForce s.store)) s
    frame true none (readReadingOwner .live) s = { t with wgu := { t.wgu with reading := true } } := by
  have hd : readingData .live (carryAnswer s) = some (.reading (readEnded s.wgu).offered (pageInForce s.store)) := by
    simp [readingData, hrole]
  have hservice : (carryAnswer s).inService .scale = true := by simp [State.inService, hrole]
  rw [frame_taken h none (.inl rfl), readReadingOwner_data (sel := .live) (by simp [readingRole_of hrole]) nofun hd, if_pos hservice,
    carryAnswer_eq]
  rfl

/-- R177, R192: at an ice node or a gate a read only answers. -/
theorem frame_readReading_data {r : Role} {sel : ReadingSel} {d : PData} (h : Taken s) (hrole : s.port.role = some r) (hr : r = .ice ∨ r = .gate)
    (hsel : sel ≠ .other) (hd : readingData sel s = some d) : frame true none (readReadingOwner sel) s = answered .done d s := by
  have hclock : r ≠ .clock := by obtain rfl | rfl := hr <;> nofun
  have hservice : (carryAnswer s).inService .scale = false := by obtain rfl | rfl := hr <;> simp [State.inService, hrole]
  have hdata : readingData sel (carryAnswer s) = some d := by
    rw [← hd]
    obtain rfl | rfl := hr <;> cases sel <;> simp [readingData, hrole]
  refine frame_effect h none (.inl rfl) _ _ _ ?_
  rw [readReadingOwner_data (by simp [readingRole_of hrole hclock]) hsel hdata, hservice]
  rfl

end

/-- Settles O20: by the role in service, and at an ice node by whether its order is metered. -/
theorem readReadingHolds : Obligations.ReadReadingHolds := by
  intro s h
  have hread {u : State} {sel : ReadingSel} (hu : frame true none (readReadingOwner sel) s = u) : exec (.readReading true sel) s = .next u :=
    congrArg Host.Outcome.next hu
  refine ⟨fun hrole => hread (frame_readReading_scale h hrole), fun hreading => ?_, fun hrole => ⟨fun hnone => ?_, fun o ho => ?_⟩,
    fun hrole => ?_, fun hrole => ?_, fun hrole => ?_, fun hrole sel => ?_, fun hrole hclock => ?_⟩
  · refine ⟨answered .done .none s, congrArg Host.Outcome.next (frame_effect h none (.inl rfl) _ _ _ rfl), rfl, ?_⟩
    exact readEnded_reading hreading
  · exact hread (frame_readReading_data h hrole (.inl rfl) nofun (by simp [readingData, hrole, hnone]))
  · refine ⟨o.shown, hread (frame_readReading_data h hrole (.inl rfl) nofun (by simp [readingData, hrole, ho])),
      rfl, rfl, rfl, rfl, rfl, rfl, fun hm => ?_, fun hm => ?_⟩ <;> simp [OrderRec.shown, hm]
  · exact hread (frame_readReading_data h hrole (.inl rfl) nofun (by simp [readingData, hrole]))
  · exact hread (frame_readReading_data h hrole (.inr rfl) nofun (by simp [readingData, hrole]))
  · exact hread (frame_readReading_data h hrole (.inr rfl) nofun (by simp [readingData, hrole]))
  · exact hread (frame_refused h (.inl rfl) (readReadingOwner_wrongRole (by simp [readingRole_none hrole]) sel))
  · obtain ⟨r, hr⟩ := Option.isSome_iff_exists.1 hrole
    have hreads : readingRole s = true := readingRole_of hr fun hc => hclock (hc ▸ hr)
    exact hread (frame_refused h (.inl rfl) (readReadingOwner_badValue (by simp [hreads])))

end Sys2Proof.Machine
end

section
/-! Requests of one entry without a number, and the arrivals of CLAIM, LOTREPORT and LOT at the roles (O33). -/

namespace Sys2Proof.Machine
open Sys2Proof

/-! ### A request of one entry that takes no number (R89, R91) -/

section
variable {s : State} {i : NewEntry} {ref : Ref} {q : Nat} {qs : List Nat}

/-- Whether a request takes a posting number or a hold number (R92). -/
def takesNumber : ReqBody → Bool
  | .post _ | .hold .. => true
  | _ => false

theorem fillBodies_plain (hplain : takesNumber i.body = false) (key : Ident) : fillBodies key [i] [] = [i] := by
  cases hbody : i.body <;> simp_all [fillBodies, takesNumber]

/-- Its entry stands in the place that has been free longest, and is resolved where it has no destination. -/
theorem standEntries_plain (hplain : takesNumber i.body = false) (hfree : s.exc.free = q :: qs) : standEntries ⟨ref, [i]⟩ [] s =
    if (makeEntry q i).state = .unresolved then resolveEntry q (entryMade q qs i s) else (entryMade q qs i s, none) := by
  have hplaces : nextPlaces ⟨ref, [i]⟩ s = [q] := by simp [nextPlaces, hfree]
  have hhold : (⟨ref, [i]⟩ : CreateReq).hasHold = false := by
    cases hbody : i.body <;> simp_all [CreateReq.hasHold, takesNumber]
  have hmade : (refreshReady (s.onExc fun x => { x with
      entries := putEntryIn (makeEntry q i) x.entries, free := x.free.drop [i].length
      holdNo := if (⟨ref, [i]⟩ : CreateReq).hasHold then x.holdNo + 1 else x.holdNo })) = entryMade q qs i s := by
    simp only [hhold, State.onExc, hfree]
    rfl
  have hseq : (makeEntry q i).seq = q := rfl
  simp only [standEntries, hplaces, fillBodies_plain hplain, List.zipWith_cons_cons, List.zipWith_nil_left, List.foldl_cons, List.foldl_nil,
    hmade]
  by_cases hstate : (makeEntry q i).state = .unresolved
  · simp [hstate, hseq]
  · simp [hstate]

theorem takeCreate_plain (hplain : takesNumber i.body = false) (hdest : i.dest.isSome = true ∨ i.body.resolves = true)
    (hplace : PlaceOpen q qs s) : takeCreate ⟨ref, [i]⟩ s =
      ((standEntries ⟨ref, [i]⟩ [] s).1, .created [q] (standEntries ⟨ref, [i]⟩ [] s).2) := by
  obtain ⟨hfree, hopen⟩ := hplace
  have hplaces : nextPlaces ⟨ref, [i]⟩ s = [q] := by simp [nextPlaces, hfree]
  have hroom : openPlaces s.exc ≠ 0 := Nat.ne_of_gt hopen
  have hnumber : (⟨ref, [i]⟩ : CreateReq).numbered = false ∧ (⟨ref, [i]⟩ : CreateReq).posts = [] ∧
      (⟨ref, [i]⟩ : CreateReq).hasHold = false := by
    cases hbody : i.body <;>
      simp_all [CreateReq.numbered, CreateReq.posts, CreateReq.hasHold, ReqBody.posting, takesNumber]
  obtain ⟨hnumbered, hposts, hhold⟩ := hnumber
  have hbad : (⟨ref, [i]⟩ : CreateReq).badDest = false := by
    obtain h | h := hdest <;> simp [CreateReq.badDest, h]
    exact fun hnone => by simp [hnone] at h
  simp [takeCreate, hroom, hnumbered, hposts, hhold, hbad, hplaces]

end

/-! ### Lot requests of the line (R77, R86, R133) -/

section
variable {s : State}

theorem lotArrive_room (h : s.wgu.lotQ.length < 8) (r : LotReq) : lotArrive r s = s.onWgu fun w => { w with lotQ := w.lotQ ++ [r] } := by
  simp [lotArrive, State.onWgu, h]

theorem lotArrive_full (h : 8 ≤ s.wgu.lotQ.length) (r : LotReq) :
    lotArrive r s = s.onWgu fun w => { w with cnt := { w.cnt with droppedReqs := bump w.cnt.droppedReqs } } := by
  simp [lotArrive, State.onWgu, Nat.not_lt.2 h]

theorem requestToScale_served (hrole : s.port.role = some .scale) (h : Hdr) (k : ReqKind) (lot : LotId) (r : LotReq) :
    requestToScale h k lot r s = lotArrive r (countReceived s) := if_pos (by simp [State.inService, hrole])

/-- R77: the UNKNOWN of another role takes a place of the reserve, or counts as an overflow there. -/
theorem requestToScale_other (hrole : s.port.role ≠ some .scale) (h : Hdr) (k : ReqKind) (lot : LotId) (r : LotReq) :
    requestToScale h k lot r s = { s with lif :=
      if s.lif.reserve.length < 4 then { s.lif with
        reserve := s.lif.reserve ++ [{ newMsg .answer h.src h.seq (.answer k (.lot lot) .unknown .none) .lif 0 with stamp := s.lif.stamp }]
        stamp := s.lif.stamp + 1
        cnt := { s.lif.cnt with reserveOverflows := min 65535 s.lif.cnt.reserveOverflows } }
      else { s.lif with cnt := { s.lif.cnt with reserveOverflows := bump s.lif.cnt.reserveOverflows } } } := by
  have hservice : s.inService .scale = false := by simpa [State.inService] using hrole
  have hclash : isClash (answerMsg .lif h.src h.seq k (.lot lot) .unknown .none) = false := rfl
  unfold requestToScale reserveMsg
  simp only [hservice, hclash, Bool.false_eq_true, if_false]
  split <;> rfl

end

/-! ### LOT notices (R86, R140) -/

section
variable {s : State} {raw : RawLot} {d : LotDesc}

theorem noticeToClock_other (hrole : s.port.role ≠ some .clock) :
    noticeToClock raw s = s.onLif fun l => { l with cnt := { l.cnt with notForRole := bump l.cnt.notForRole } } := by
  have hservice : s.inService .clock = false := by simpa [State.inService] using hrole
  simp only [noticeToClock, hservice, Bool.false_eq_true, if_false]
  rfl

theorem noticeToClock_read (hrole : s.port.role = some .clock) (hread : readLotDesc raw = some d) :
    noticeToClock raw s = cluNotice d (countReceived s) := by
  have hservice : s.inService .clock = true := by simp [State.inService, hrole]
  simp only [noticeToClock, hservice, if_true, hread]

theorem cluNotice_otherRing (hring : s.port.cfg.ring ≠ some d.ring) :
    cluNotice d s = s.onClu fun c => { c with cnt := { c.cnt with otherRing := bump c.cnt.otherRing } } := if_pos hring

/-- R140: a notice of the own ring makes a claim, whose CLAIM entry stands in the place that has been free longest. -/
theorem cluNotice_claims {q : Nat} {qs : List Nat} (hring : s.port.cfg.ring = some d.ring) (hmay : mayClaim s d.id = true)
    (hplace : PlaceOpen q qs s) : cluNotice d s =
      (entryMade q qs ⟨.claim d.id, .claim d.id, none, some d.id.scale, false⟩ s).onClu fun c => { c with
        claims := c.claims ++ [{ lot := d.id }], cnt := { c.cnt with claimsMade := bump c.cnt.claimsMade } } := by
  have hopen : openPlaces s.exc ≠ 0 := Nat.ne_of_gt hplace.2
  have hqueued : (makeEntry q ⟨.claim d.id, .claim d.id, none, some d.id.scale, false⟩).state ≠ .unresolved := nofun
  rw [cluNotice, if_neg (not_not.2 hring), if_pos hmay, askClaim, if_neg hopen]
  simp only [takeCreate_plain (ref := .claim d.id) (i := ⟨.claim d.id, .claim d.id, none, some d.id.scale, false⟩) rfl (.inl rfl) hplace,
    standEntries_plain (ref := .claim d.id) (i := ⟨.claim d.id, .claim d.id, none, some d.id.scale, false⟩) rfl hplace.1, if_neg hqueued]

end

/-- Settles O33: once the message is delivered, by the role, and then by the room in the lot request queue or by the notice's ring. -/
theorem lotMessages : Obligations.LotMessages := by
  intro s h scale number l received dropped unknown
  refine ⟨fun hh => ?_, fun hh raw d hread => ?_⟩
  · have hdeliver {k : ReqKind} {r : LotReq} {u : State} (hu : requestToScale h k ⟨scale, number⟩ r (hearPeer h.src none s) = u) :
        hear false h none ownHeard (requestToScale h k ⟨scale, number⟩ r) s = u := (hear_heard hh ..).trans hu
    refine ⟨fun hrole hroom => ?_, fun hrole hfull => ?_, fun hrole => ?_⟩
    · have harrives (k : ReqKind) (r : LotReq) :=
        hdeliver ((requestToScale_served (s := hearPeer h.src none s) hrole h k ⟨scale, number⟩ r).trans
          (lotArrive_room (s := countReceived (hearPeer h.src none s)) hroom r))
      exact ⟨congrArg Host.Outcome.next (harrives .claim _), fun sold => congrArg Host.Outcome.next (harrives .lotReport _)⟩
    · have hdrops (k : ReqKind) (r : LotReq) :=
        hdeliver ((requestToScale_served (s := hearPeer h.src none s) hrole h k ⟨scale, number⟩ r).trans
          (lotArrive_full (s := countReceived (hearPeer h.src none s)) hfull r))
      exact ⟨congrArg Host.Outcome.next (hdrops .claim _), fun sold => congrArg Host.Outcome.next (hdrops .lotReport _)⟩
    · have hunknown (k : ReqKind) (r : LotReq) :=
        hdeliver (requestToScale_other (s := hearPeer h.src none s) hrole h k ⟨scale, number⟩ r)
      exact ⟨congrArg Host.Outcome.next (hunknown .claim _), fun sold => congrArg Host.Outcome.next (hunknown .lotReport _)⟩
  · have hlot {u : State} (hu : noticeToClock raw (hearPeer h.src none s) = u) : exec (.lot h raw) s = .next u :=
      congrArg Host.Outcome.next ((hear_heard hh ..).trans hu)
    refine ⟨fun hrole => hlot (noticeToClock_other hrole), fun hrole hring => ?_, fun q qs hrole hring hmay hplace => ?_⟩
    · exact hlot ((noticeToClock_read (s := hearPeer h.src none s) hrole hread).trans (cluNotice_otherRing hring))
    · exact hlot ((noticeToClock_read (s := hearPeer h.src none s) hrole hread).trans
        (cluNotice_claims (s := countReceived (hearPeer h.src none s)) hring hmay hplace))

end Sys2Proof.Machine
end

section
/-! The forming of a reading and the readings that wait (R116 to R119, R124, R125). -/

namespace Sys2Proof.Machine
open Sys2Proof

/-! ### Rounding to the nearest (R116 to R118) -/

/-- `q` is the integer nearest to `n / d`, and the one away from zero where two are as near. -/
def RoundsTo (q n : Int) (d : Nat) : Prop :=
  2 * (q * d - n).natAbs ≤ d ∧ (2 * (q * d - n).natAbs = d → n.natAbs < (q * d).natAbs)

theorem roundDiv_roundsTo (n : Int) {d : Nat} (hd : 0 < d) : RoundsTo (roundDiv n d) n d := by
  set m := (2 * n.natAbs + d) / (2 * d) with hm
  have hlo : m * (2 * d) ≤ 2 * n.natAbs + d := Nat.div_mul_le_self ..
  have hhi : 2 * n.natAbs + d < m * (2 * d) + 2 * d := Nat.lt_div_mul_add (by omega)
  have hdouble : m * (2 * d) = 2 * (m * d) := by ring
  have hvalue : roundDiv n d * d = if n < 0 then -((m * d : Nat) : Int) else ((m * d : Nat) : Int) := by
    simp only [roundDiv, ← hm]
    split <;> push_cast <;> ring
  generalize m * d = p at *
  unfold RoundsTo
  rw [hvalue]
  split <;> omega

/-! ### STABLE (R118) -/

theorem historySpread_le_iff (h : List Int) (d : Nat) : historySpread h ≤ d ↔ ∀ x ∈ h, ∀ y ∈ h, x - y ≤ d := by
  cases h with
  | nil => simp [historySpread]
  | cons a as =>
    obtain ⟨hmax, hle⟩ := List.max?_eq_some_iff.1 (rfl : (a :: as).max? = some (as.foldl max a))
    obtain ⟨hmin, hge⟩ := List.min?_eq_some_iff.1 (rfl : (a :: as).min? = some (as.foldl min a))
    refine ⟨fun hspread x hx y hy => ?_, fun hall => hall _ hmax _ hmin⟩
    have hx := hle x hx
    have hy := hge y hy
    simp only [historySpread] at hspread
    omega

theorem isStable_iff (f : CalFields) (h : List Int) :
    isStable f h = true ↔ h.length = 16 ∧ ∀ x ∈ h, ∀ y ∈ h, x - y ≤ f.division := by
  simp [isStable, historySpread_le_iff]

/-! ### The current reading (R115 to R119) -/

section
variable {s t : State} {f : CalFields}

theorem currentAverage_full {w : Wgu} (h : w.window.length = 8) : currentAverage w = some (averageOf w.window) := if_pos h

theorem currentAverage_short {w : Wgu} (h : w.window.length ≠ 8) : currentAverage w = none := if_neg h

theorem liveReading_noCal (hcal : calInForce s.store = none) :
    liveReading s = { ctr := s.wgu.ctr, noCal := true, average := currentAverage s.wgu } := by simp only [liveReading, hcal]

theorem liveReading_noReading (hcal : calInForce s.store = some f) (havg : currentAverage s.wgu = none) :
    liveReading s = { ctr := s.wgu.ctr, noReading := true } := by simp only [liveReading, hcal, havg]

/-- The gross grams of an average, in whole divisions (R117, R118). -/
def grossShown (f : CalFields) (zero avg : Int) : Int := toDivision f (grossOf f zero avg)

theorem liveReading_formed {avg : Int} (hcal : calInForce s.store = some f) (havg : currentAverage s.wgu = some avg) :
    let gross := grossShown f s.wgu.zero avg
    let stable := isStable f s.wgu.history
    let heavy := isTooHeavy f gross
    liveReading s = { ctr := s.wgu.ctr, stable := stable, tooHeavy := heavy, moving := !stable && !heavy, average := some avg
                      gross := some gross, tare := some (tareInForce s), net := some (gross - tareInForce s) } := by
  simp only [liveReading, hcal, havg, grossShown]

/-- The reading is formed from the window, the history, the working zero, the tares and the page in force alone. -/
theorem liveReading_congr (hstore : calInForce t.store = calInForce s.store) (hcfg : t.port.cfg = s.port.cfg) (hctr : t.wgu.ctr = s.wgu.ctr)
    (hwindow : t.wgu.window = s.wgu.window) (hhistory : t.wgu.history = s.wgu.history) (hzero : t.wgu.zero = s.wgu.zero)
    (hcrate : t.wgu.crateTare = s.wgu.crateTare) (hmanual : t.wgu.manualTare = s.wgu.manualTare) : liveReading t = liveReading s := by
  simp only [liveReading, currentAverage, tareInForce, hstore, hcfg, hctr, hwindow, hhistory, hzero, hcrate, hmanual]

theorem liveReading_stable : (liveReading s).stable = match calInForce s.store, currentAverage s.wgu with
    | some f, some _ => isStable f s.wgu.history
    | _, _ => false := by
  cases hcal : calInForce s.store <;> cases havg : currentAverage s.wgu <;> simp [liveReading, hcal, havg]

theorem liveReading_gross : (liveReading s).gross = match calInForce s.store, currentAverage s.wgu with
    | some f, some avg => some (grossShown f s.wgu.zero avg)
    | _, _ => none := by
  cases hcal : calInForce s.store <;> cases havg : currentAverage s.wgu <;> simp [liveReading, hcal, havg, grossShown]

/-- R115: without samples nothing is STABLE and no gross is formed. -/
theorem liveReading_noSamples (h : s.wgu.window = []) : (liveReading s).stable = false ∧ (liveReading s).gross = none := by
  have havg : currentAverage s.wgu = none := currentAverage_short (by simp [h])
  rw [liveReading_stable, liveReading_gross, havg]
  cases calInForce s.store <;> exact ⟨rfl, rfl⟩

/-! ### Readings offered (R125) -/

/-- R125: while a read is held the reading waits, and one that replaces another is counted missed. -/
theorem offerReading_eq (r : Reading) (s : State) : offerReading r s = s.onWgu fun w => { w with
    offered := if w.reading = true then w.offered else r
    waiting := if w.reading = true then some r else w.waiting
    cnt := { w.cnt with missed := if w.reading ∧ w.waiting.isSome then bump w.cnt.missed else w.cnt.missed } } := by
  unfold offerReading State.onWgu
  cases hreading : s.wgu.reading <;> cases hwaiting : s.wgu.waiting <;> simp [hreading, hwaiting]

end

/-! ### Samples (R114, R118) -/

section
variable {s : State}

theorem pushNewest_room {n : Nat} {l : List Int} (h : l.length < n) (x : Int) : pushNewest n l x = l ++ [x] := by
  have hzero : l.length + 1 - n = 0 := by omega
  simp [pushNewest, hzero]

theorem pushNewest_full {n : Nat} {l : List Int} (h : l.length = n) (hn : 0 < n) (x : Int) : pushNewest n l x = l.tail ++ [x] := by
  have hone : l.length + 1 - n = 1 := by omega
  cases l with
  | nil => simp at h; omega
  | cons a as => rw [pushNewest, hone]; rfl

theorem pushNewest_getLast? {n : Nat} (hn : 0 < n) (l : List Int) (x : Int) : (pushNewest n l x).getLast? = some x := by
  rw [pushNewest, List.drop_append_of_le_length (by omega), List.getLast?_concat]

/-- The scale with one good sample more in its window (R114). -/
def sampled (count : BitVec 24) (w : Wgu) : Wgu :=
  { w with lossT := some 500, ctr := if w.ctr = 65535 then 0 else w.ctr + 1, window := pushNewest 8 w.window count.toInt }

/-- The reading history once the gross that the sample forms has joined it (R118). -/
def historyAfter (count : BitVec 24) (s : State) : List Int :=
  (liveReading (s.onWgu (sampled count))).gross.elim s.wgu.history (pushNewest 16 s.wgu.history)

theorem takeSample_eq (count : BitVec 24) (s : State) :
    takeSample count s = s.onWgu fun w => { sampled count w with history := historyAfter count s } := by
  unfold takeSample historyAfter
  rw [liveReading_gross]
  cases hcal : calInForce s.store <;> cases havg : currentAverage (sampled count s.wgu) <;>
    simp only [sampled] at havg <;> simp only [onWgu_store, onWgu_wgu, sampled, hcal, havg] <;> rfl

/-- The state in which a WEIGH examines the reading that a good sample forms: the sample is taken and the reading offered. -/
def sampleOffered (count : BitVec 24) (s : State) : State := offerReading (liveReading (takeSample count s)) (takeSample count s)

theorem execSampleFrame_good {count : BitVec 24} {parity whole : Bool} (hrole : s.port.role = some .scale)
    (hgood : whole = true ∧ parityGood count parity = true) :
    exec (.sampleFrame count parity whole) s = .next (examineReading (sampleOffered count s)) := by
  refine congrArg Host.Outcome.next ?_
  simp [takeFrame, State.inService, hrole, hgood, sampleOffered]

theorem execSampleFrame_bad {count : BitVec 24} {parity whole : Bool} (hrole : s.port.role = some .scale)
    (hbad : ¬(whole = true ∧ parityGood count parity = true)) : exec (.sampleFrame count parity whole) s =
      .next { s with wgu := { s.wgu with cnt := { s.wgu.cnt with sampleErrors := bump s.wgu.cnt.sampleErrors } } } := by
  refine congrArg Host.Outcome.next ?_
  have hframe : (whole && parityGood count parity) = false := by simpa using hbad
  have hservice : s.inService .scale = true := by simp [State.inService, hrole]
  simp only [takeFrame, hservice, hframe, Bool.not_true, Bool.false_eq_true, if_false]
  rfl

end

end Sys2Proof.Machine
end

section
/-! The end of a WEIGH, the capture of a STABLE reading and the commit group of its lot (R128 to R130). -/

namespace Sys2Proof.Machine
open Sys2Proof

section
variable {s : State} {g : Weigh} {home : Nat} {f : CalFields}

/-! ### The end of a WEIGH (R130) -/

/-- The scale once a WEIGH has ended with its result. -/
def weighClosed (r : WeighResult) (w : Wgu) : Wgu := { w with
  weigh := none, result := some r
  cnt := { w.cnt with weighsDone := if r.code = .done then bump w.cnt.weighsDone else w.cnt.weighsDone
                      weighsFailed := if r.code = .done then w.cnt.weighsFailed else bump w.cnt.weighsFailed } }

theorem endWeigh_running (hrun : s.sys.phase = .running) (r : WeighResult) :
    endWeigh r s = flagged .weighDone { s with wgu := weighClosed r s.wgu } :=
  raise_running (s.onWgu (weighClosed r)) .weighDone hrun

theorem listOpen_placeGroup (hlist : ListOpen s) {o : Owner} (ho : ∀ c, o ≠ .pool c) (ws : List RecWrite) :
    placeGroup o ws s = listed ⟨o, .group ws⟩ s := placeGroup_room hlist.1 hlist.2 ho

theorem listOpen_placeRemoval (hlist : ListOpen s) {o : Owner} (ho : ∀ c, o ≠ .pool c) (k : RecKey) :
    placeRemoval o k s = listed ⟨o, .removal k⟩ s := placeRemoval_room hlist.1 hlist.2 ho

/-! ### The lot of a WEIGH (R129) -/

/-- The lot that a WEIGH has recorded. -/
def weighedLot (g : Weigh) (home : Nat) (net : Int) (n : Nat) (offer : Option Nat) : Lot :=
  { number := n, boat := g.boat, boatHome := home, species := g.species, grade := g.grade, ring := g.ring, net := net.toNat
    ctype := g.ctype, count := g.count, unsold := 0, state := .offered, noRing := false, offer := offer }

/-- RECORDING: the commit group of the lot and of the next lot number stands on the store request list. -/
def lotRecording (g : Weigh) (home : Nat) (gross tare net : Int) (s : State) : State :=
  let n := chooseLotNumber s
  listed ⟨.lotCreate, .group [.lotCreate (weighedLot g home net n none), .node (.nextLot (nextNumber n))]⟩
    { s with wgu := { s.wgu with weigh := some { g with stage := .recording home gross tare net n } } }

theorem beginRecording_room (hlist : ListOpen s) (gross tare net : Int) :
    beginRecording g home gross tare net s = lotRecording g home gross tare net s :=
  listOpen_placeGroup (s := s.onWgu _) (o := .lotCreate) hlist nofun _

/-! ### The capture of a STABLE reading (R128) -/

/-- The tare of a capture, in whole divisions (R124). -/
def captureTare (f : CalFields) (s : State) : Int := tareToDivision f (tareInForce s)

/-- What a WEIGH shows whose gross, tare and net were formed. -/
def weighedResult (g : Weigh) (home : Nat) (gross tare net : Int) (c : WeighCode) : WeighResult :=
  { code := c, boat := g.boat, boatHome := some home, gross := some gross, tare := some tare, net := some net }

section
variable {r : Reading} {gross tare : Int} (hgross : r.gross = some gross)
include hgross

theorem capture_tooHeavy (hheavy : r.tooHeavy = true) :
    capture f g home r s = endWeigh { code := .overload, boat := g.boat, boatHome := some home, gross := some gross } s := by
  simp [capture, hgross, hheavy]

variable (htare : captureTare f s = tare) (hheavy : r.tooHeavy = false)
include htare hheavy

theorem capture_netNotPositive (hnet : gross - tare < f.division) :
    capture f g home r s = endWeigh (weighedResult g home gross tare (gross - tare) .netNotPositive) s := by
  simp only [captureTare] at htare
  simp [capture, hgross, hheavy, htare, hnet, weighedResult]

theorem capture_netTooHigh (hnet : f.division ≤ gross - tare) (hhigh : f.capacity < gross - tare) :
    capture f g home r s = endWeigh (weighedResult g home gross tare (gross - tare) .overload) s := by
  simp only [captureTare] at htare
  simp [capture, hgross, hheavy, htare, not_lt.2 hnet, hhigh, weighedResult]

theorem capture_records (hnet : f.division ≤ gross - tare) (hhigh : gross - tare ≤ f.capacity) (hlist : ListOpen s) :
    capture f g home r s = lotRecording g home gross tare (gross - tare) s := by
  simp only [captureTare] at htare
  simp [capture, hgross, hheavy, htare, not_lt.2 hnet, not_lt.2 hhigh, beginRecording_room hlist]

end

/-! ### A WEIGH in SETTLING examines the reading (R128) -/

theorem examineReading_settling {left : Nat} (hweigh : s.wgu.weigh = some g) (hstage : g.stage = .settling home left)
    (hcal : calInForce s.store = some f) (hstable : (liveReading s).stable = true) :
    examineReading s = capture f g home (liveReading s) s := by
  simp [examineReading, hweigh, hcal, hstage, hstable]

theorem examineReading_unstable (hstable : (liveReading s).stable = false) : examineReading s = s := by
  unfold examineReading
  split
  · split
    · simp [hstable]
    · rfl
  · rfl

theorem examineReading_notSettling (h : ¬ ∃ g home left, s.wgu.weigh = some g ∧ g.stage = .settling home left) : examineReading s = s := by
  unfold examineReading
  split
  · next g f hweigh hcal =>
    split
    · next home left hstage => exact absurd ⟨g, home, left, hweigh, hstage⟩ h
    · rfl
  · rfl

/-- What an examination may change: the WEIGH, its result and counts, the flag of its end, and the requests for the store. -/
def Examined (s t : State) : Prop :=
  ∃ y flags list pend weigh result done failed, t = { s with
    sys := y
    port := { s.port with flags := flags }
    store := { s.store with list := list, pend := pend }
    wgu := { s.wgu with weigh := weigh, result := result, cnt := { s.wgu.cnt with weighsDone := done, weighsFailed := failed } } }

theorem Examined.refl (s : State) : Examined s s := ⟨_, _, _, _, _, _, _, _, rfl⟩

theorem Examined.liveReading {t : State} (h : Examined s t) : liveReading t = liveReading s := by
  obtain ⟨y, flags, list, pend, weigh, result, done, failed, rfl⟩ := h
  exact liveReading_congr rfl rfl rfl rfl rfl rfl rfl rfl

theorem examined_endWeigh (r : WeighResult) (s : State) : Examined s (endWeigh r s) := by
  by_cases hrun : s.sys.phase = .running
  · exact endWeigh_running hrun r ▸ ⟨_, _, _, _, _, _, _, _, rfl⟩
  · exact ⟨_, _, _, _, _, _, _, _, raise_starting (s.onWgu (weighClosed r)) .weighDone hrun⟩

theorem examined_beginRecording (g : Weigh) (home : Nat) (gross tare net : Int) (s : State) :
    Examined s (beginRecording g home gross tare net s) := by
  unfold beginRecording placeGroup
  obtain ⟨-, h⟩ | ⟨-, -, h⟩ | ⟨-, -, h⟩ := placeStore_cases
      ⟨.lotCreate, .group [.lotCreate (weighedLot g home net (chooseLotNumber s) none), .node (.nextLot (nextNumber (chooseLotNumber s)))]⟩
      (s.onWgu fun w => { w with weigh := some { g with stage := .recording home gross tare net (chooseLotNumber s) } })
  all_goals exact h ▸ ⟨_, _, _, _, _, _, _, _, rfl⟩

theorem examined_examineReading (s : State) : Examined s (examineReading s) := by
  have hcapture (f : CalFields) (g : Weigh) (home : Nat) : Examined s (capture f g home (liveReading s) s) := by
    unfold capture
    simp only
    split_ifs
    · exact examined_endWeigh ..
    · exact examined_endWeigh ..
    · exact examined_endWeigh ..
    · exact examined_beginRecording ..
  unfold examineReading
  split
  · split
    · simp only
      split_ifs
      · exact hcapture ..
      · exact .refl s
    · exact .refl s
  · exact .refl s

end

end Sys2Proof.Machine
end

section
/-! The forming of a reading, samples and their loss, the settling limit and the offer timer (O53). -/

namespace Sys2Proof.Machine
open Sys2Proof

section
variable {s : State}

/-! ### The forming of a reading (R116 to R119, R124) -/

theorem tareInForce_crates {ty n : Nat} (h : s.wgu.crateTare = some (ty, n)) :
    (tareInForce s : Int) = s.wgu.manualTare + n * crateTareOf s.port.cfg ty := by
  simp [tareInForce, h, add_comm]

theorem tareInForce_manual (h : s.wgu.crateTare = none) : tareInForce s = s.wgu.manualTare := by simp [tareInForce, h]

theorem currentAverage_roundsTo {w : Wgu} {a : Int} (h : currentAverage w = some a) : RoundsTo a w.window.sum 8 := by
  unfold currentAverage at h
  split at h
  · exact Option.some.inj h ▸ roundDiv_roundsTo _ (by decide)
  · cases h

theorem currentAverage_isSome (w : Wgu) : (currentAverage w).isSome = true ↔ w.window.length = 8 := by
  unfold currentAverage
  split <;> simp [*]

/-- R116 to R119: with a page in force and a full window the reading shows an average rounded to a count, the gross rounded to a gram, held
within its range, and rounded to the division. -/
theorem liveReading_rounded {f : CalFields} (hcal : calInForce s.store = some f) (hwindow : s.wgu.window.length = 8) (hspan : s.wgu.zero < f.span)
    (hdivision : 0 < f.division) : ∃ avg q k : Int, RoundsTo avg s.wgu.window.sum 8 ∧
      RoundsTo q ((avg - s.wgu.zero) * f.grams) (f.span - s.wgu.zero).toNat ∧
      RoundsTo k (max (-999999999) (min 999999999 q)) f.division ∧
      ((liveReading s).stable = true ↔ s.wgu.history.length = 16 ∧ ∀ x ∈ s.wgu.history, ∀ y ∈ s.wgu.history, x - y ≤ f.division) ∧
      ((liveReading s).tooHeavy = true ↔ (f.capacity : Int) + 9 * f.division < k * f.division) ∧
      liveReading s =
        { ctr := s.wgu.ctr, stable := (liveReading s).stable, tooHeavy := (liveReading s).tooHeavy
          moving := !(liveReading s).stable && !(liveReading s).tooHeavy, average := some avg
          gross := some (k * f.division), tare := some (tareInForce s), net := some (k * f.division - tareInForce s) } := by
  have havg := currentAverage_full hwindow
  have hread := liveReading_formed hcal havg
  refine ⟨averageOf s.wgu.window, roundDiv ((averageOf s.wgu.window - s.wgu.zero) * f.grams) (f.span - s.wgu.zero).toNat,
    roundDiv (grossOf f s.wgu.zero (averageOf s.wgu.window)) f.division, currentAverage_roundsTo havg, roundDiv_roundsTo _ (by omega), ?_, ?_, ?_, ?_⟩
  · rw [← saturate_eq_clamp]
    exact roundDiv_roundsTo _ hdivision
  · rw [hread]
    exact isStable_iff ..
  · rw [hread]
    exact decide_eq_true_iff
  · rw [hread]
    rfl

/-! ### A good sample (R114, R118, R125, R128) -/

/-- The scale with the sample taken and the reading `r` that it forms offered. -/
def readingTaken (count : BitVec 24) (r : Reading) (w : Wgu) : Wgu := { sampled count w with
  history := r.gross.elim w.history (pushNewest 16 w.history)
  offered := if w.reading = true then w.offered else r
  waiting := if w.reading = true then some r else w.waiting
  cnt := { w.cnt with missed := if w.reading ∧ w.waiting.isSome then bump w.cnt.missed else w.cnt.missed } }

theorem historyAfter_eq (count : BitVec 24) (s : State) :
    historyAfter count s = (liveReading (takeSample count s)).gross.elim s.wgu.history (pushNewest 16 s.wgu.history) := by
  have hgross : (liveReading (takeSample count s)).gross = (liveReading (s.onWgu (sampled count))).gross := by
    rw [takeSample_eq, liveReading_gross, liveReading_gross]
    rfl
  rw [historyAfter, hgross]

theorem sampleOffered_eq (count : BitVec 24) (s : State) :
    sampleOffered count s = s.onWgu (readingTaken count (liveReading (takeSample count s))) := by
  generalize hr : liveReading (takeSample count s) = r
  rw [sampleOffered, hr, offerReading_eq, takeSample_eq, historyAfter_eq, hr]
  rfl

theorem liveReading_offerReading (r : Reading) (s : State) : liveReading (offerReading r s) = liveReading s := by
  rw [offerReading_eq]
  exact liveReading_congr rfl rfl rfl rfl rfl rfl rfl rfl

/-- The reading that the sample forms stands in every later state of the step. -/
theorem liveReading_examined {count : BitVec 24} {t : State} (h : Examined (sampleOffered count s) t) :
    liveReading t = liveReading (takeSample count s) := by
  rw [h.liveReading, sampleOffered, liveReading_offerReading]

theorem sampled_ctr (count : BitVec 24) {w : Wgu} (h : w.ctr ≤ 65535) : (sampled count w).ctr = (w.ctr + 1) % 65536 := by
  simp only [sampled]
  split <;> omega

/-! ### The loss of samples and the settling limit (R115, R125, R128) -/

/-- The scale without the samples of its window and history (R115). -/
def windowLost (w : Wgu) : Wgu :=
  { w with window := [], history := [], lossT := none, cnt := { w.cnt with sampleLosses := bump w.cnt.sampleLosses } }

theorem samplesLost_due (h : s.wgu.lossT = some 0) :
    samplesLost s = offerReading (liveReading (s.onWgu windowLost)) (s.onWgu windowLost) := by
  simp only [samplesLost, h, due_some_zero, if_true]
  rfl

theorem settlingLimit_due {g : Weigh} {home : Nat} (hweigh : s.wgu.weigh = some g) (hstage : g.stage = .settling home 0) :
    exec .settlingLimit s = .next (endWeigh
      { code := if (liveReading s).tooHeavy then .overload else .unstable, boat := g.boat, boatHome := some home } s) := by
  refine congrArg Host.Outcome.next ?_
  simp [settlingDue, settlingEnds, hweigh, hstage]

/-- What the end of a WEIGH without a lot shows. -/
theorem endWeigh_failed (hrun : s.sys.phase = .running) {r : WeighResult} (hcode : r.code ≠ .done) :
    endWeigh r s = flagged .weighDone { s with wgu := { s.wgu with
      weigh := none, result := some r, cnt := { s.wgu.cnt with weighsFailed := bump s.wgu.cnt.weighsFailed } } } := by
  simp only [endWeigh_running hrun, weighClosed, if_neg hcode]

/-! ### The offer timer (R132) -/

theorem offerTimerEnds_due {n t : Nat} {l : Lot} (hfind : findLot s n = some l) (hstate : l.state = .offered) (hoffer : l.offer = some t)
    (hdue : 15000 ≤ t) (hline : LineOpen s) (hwaits : noticeWaits n s = false) (hrun : s.sys.phase = .running) :
    offerTimerEnds n s = lotOffered l s := by
  have hactive : s.lineActive = true := by simp [State.lineActive, hline.1]
  simp only [offerTimerEnds, hfind, hoffer, hdue, hactive, hwaits, and_self, if_true]
  exact offerLot_eq_lotOffered hfind hstate hrun hline

end

/-- Settles O53: the reading by the page in force and the window; a good sample by what the reading that it forms brings a WEIGH in SETTLING. -/
theorem samplesAndOffers : Obligations.SamplesAndOffers := by
  intro s
  refine ⟨?_, fun count parity whole hrole => ⟨fun hgood => ?_, execSampleFrame_bad hrole⟩, fun hloss => ?_, fun g home hweigh hstage hrun => ?_,
    fun n l t hfind hstate hoffer hdue hline hwaits hrun =>
      congrArg Host.Outcome.next (offerTimerEnds_due hfind hstate hoffer hdue hline hwaits hrun)⟩
  · intro rounds r
    refine ⟨fun ty n => tareInForce_crates, tareInForce_manual, fun hcal => ?_, fun f hcal => ⟨fun hwindow => ?_, liveReading_rounded hcal⟩⟩
    · exact ⟨currentAverage s.wgu, liveReading_noCal hcal, currentAverage_isSome _, fun a => currentAverage_roundsTo⟩
    · exact liveReading_noReading hcal (currentAverage_short hwindow)
  · have hexamined := examined_examineReading (sampleOffered count s)
    have hlive := liveReading_examined (.refl (sampleOffered count s))
    have hunstable := examineReading_unstable (s := sampleOffered count s)
    have hidle := examineReading_notSettling (s := sampleOffered count s)
    have hsettling (g f home left) := examineReading_settling (s := sampleOffered count s) (g := g) (f := f) (home := home) (left := left)
    refine ⟨_, execSampleFrame_good hrole hgood, ?_⟩
    rw [liveReading_examined hexamined]
    rw [hlive] at hunstable hsettling
    generalize examineReading (sampleOffered count s) = t at *
    rw [sampleOffered_eq] at hexamined hunstable hidle hsettling
    generalize liveReading (takeSample count s) = r at *
    obtain ⟨y, flags, list, pend, weigh, result, done, failed, rfl⟩ := hexamined
    have hjoins {x : Option Int} (h : r.gross = x) : r.gross.elim s.wgu.history (pushNewest 16 s.wgu.history) =
        x.elim s.wgu.history (pushNewest 16 s.wgu.history) := by rw [h]
    refine ⟨rfl, sampled_ctr count, pushNewest_getLast? (by decide) .., rfl, rfl, rfl, rfl, fun h => pushNewest_room h _,
      fun h => pushNewest_full h (by decide) _, fun h => ⟨if_neg (by simp [h]), if_neg (by simp [h])⟩, fun h => ⟨if_pos h, if_pos h⟩, rfl,
      hjoins, fun gross h => ⟨fun hlen => (hjoins h).trans (pushNewest_room hlen _),
        fun hlen => (hjoins h).trans (pushNewest_full hlen (by decide) _)⟩, fun hsettles => ?_, fun h => ?_, ?_⟩
    · have hkept := hidle hsettles
      exact ⟨congrArg (·.wgu.weigh) hkept, congrArg (·.store) hkept, congrArg (·.wgu.result) hkept⟩
    · have hkept := hunstable h
      exact ⟨congrArg (·.wgu.weigh) hkept, congrArg (·.store) hkept, congrArg (·.wgu.result) hkept⟩
    · intro g home left f gross hweigh hstage hrun hcal hstable hgross tare n ends weighed
      have hcaptured := hsettling g f home left hweigh hstage hcal hstable
      have hends {res : WeighResult} (hcode : res.code ≠ .done) (h : capture f g home r (s.onWgu (readingTaken count r)) =
          endWeigh res (s.onWgu (readingTaken count r))) : ends res := by
        have hended := hcaptured.trans (h.trans (endWeigh_failed (s := s.onWgu _) hrun hcode))
        exact ⟨congrArg (·.wgu.weigh) hended, congrArg (·.wgu.result) hended, congrArg (·.store) hended,
          congrArg (·.wgu.cnt.weighsFailed) hended, congrArg (·.port.flags) hended⟩
      have htare : captureTare f (s.onWgu (readingTaken count r)) = tare := rfl
      refine ⟨fun hheavy => hends nofun (capture_tooHeavy hgross hheavy),
        fun hheavy hnet => hends nofun (capture_netNotPositive hgross htare hheavy hnet),
        fun hheavy hnet hhigh => hends nofun (capture_netTooHigh hgross htare hheavy hnet hhigh), fun hheavy hnet hhigh hlist => ?_⟩
      have hrecorded := hcaptured.trans (capture_records hgross htare hheavy hnet hhigh hlist)
      exact ⟨congrArg (·.wgu.weigh) hrecorded, congrArg (·.port.flags) hrecorded, congrArg (·.wgu.result) hrecorded,
        congrArg (·.store) hrecorded⟩
  · have hlive : liveReading (samplesLost s) = liveReading (s.onWgu windowLost) := by rw [samplesLost_due hloss, liveReading_offerReading]
    refine ⟨samplesLost s, rfl, ?_⟩
    rw [hlive, samplesLost_due hloss, offerReading_eq]
    exact ⟨rfl, rfl, rfl, rfl, fun h => if_neg (by simp [windowLost, h]), fun h => ⟨if_pos h, if_pos h⟩, liveReading_noSamples rfl⟩
  · refine (settlingLimit_due hweigh hstage).trans (congrArg Host.Outcome.next (endWeigh_failed hrun ?_))
    cases (liveReading s).tooHeavy <;> nofun

end Sys2Proof.Machine
end

section
/-! A LOCATE asked for by a role unit (R91, R103, R104), and the WEIGH from its acceptance to its lot (O50). -/

namespace Sys2Proof.Machine
open Sys2Proof

section
variable {s : State} {q a : Nat} {qs : List Nat} {ref : Ref} {openIfNone : Bool}

/-! ### A LOCATE asked for (R91, R103, R104) -/

/-- The entry that a LOCATE asks for. -/
def locateItem (ref : Ref) (a : Nat) (openIfNone : Bool) : NewEntry := ⟨.locate, ref, some a, none, openIfNone⟩

theorem find?_insertKeyed {α : Type} (key : α → Nat) (x : α) (l : List α) :
    (insertKeyed key x l).find? (fun y => key y == key x) = some x := by
  induction l with
  | nil => simp [insertKeyed]
  | cons y ys ih =>
    unfold insertKeyed
    split <;> [skip; split]
    · simp
    · simp
    · next hne => rw [List.find?_cons_of_neg (by simpa using Ne.symm hne), ih]

theorem findEntry_entryMade (q : Nat) (qs : List Nat) (i : NewEntry) (s : State) :
    findEntry (entryMade q qs i s) q = some (makeEntry q i) :=
  find?_insertKeyed (fun e : Entry => e.seq) (makeEntry q i) s.exc.entries

/-- R89: refused NO ROOM, the request waits. -/
theorem askUnit_noRoom {i : NewEntry} (h : openPlaces s.exc = 0) :
    askUnit ⟨ref, [i]⟩ s = s.onExc fun x => { x with asks := x.asks ++ [⟨ref, [i]⟩] } := by
  simp [askUnit, takeCreate, h]

theorem askUnit_locate (hplace : PlaceOpen q qs s) : askUnit (locateReq ref a openIfNone) s =
    unitMade ref [q] (resolveEntry q (entryMade q qs (locateItem ref a openIfNone) s)).2
      (resolveEntry q (entryMade q qs (locateItem ref a openIfNone) s)).1 := by
  have hunresolved : (makeEntry q (locateItem ref a openIfNone)).state = .unresolved := rfl
  have htaken := takeCreate_plain (ref := ref) (i := locateItem ref a openIfNone) rfl (.inr rfl) hplace
  rw [standEntries_plain rfl hplace.1, if_pos hunresolved] at htaken
  have hreq : locateReq ref a openIfNone = ⟨ref, [locateItem ref a openIfNone]⟩ := rfl
  simp only [askUnit, hreq, htaken]

section
variable {e : Entry} (start : Entry → State → State) (hfind : findEntry s q = some e) (hactive : s.lif.state = .active)
  (hstate : e.state = .unresolved) (hsearch : e.search = none) (hacct : e.account = some a)
include hfind hactive hstate hsearch hacct

theorem resolveWith_locate {n : Nat} {moved : Bool} (hkind : e.body.kind = .locate) (hlook : lookFor s e a = .node n moved false) :
    resolveWith start q s = (freePlace q s, some n) := by
  simp [resolveWith, hfind, opens, hsearch, State.lineActive, hactive, hstate, hacct, hkind, hlook]

end

theorem lookFor_alone {e : Entry} (hbook : accountOf s a = none) (hmap : mapFind s.exc.homeMap a = none)
    (hother : ∀ x ∈ s.exc.entries, x.seq ≠ e.seq → x.account ≠ some a) : lookFor s e a = .searches := by
  have hnone : (s.exc.entries.any fun x => x.seq != e.seq && x.account == some a && searching x) = false := by
    refine List.any_eq_false.2 fun x hx => ?_
    by_cases hseq : x.seq = e.seq
    · simp [hseq]
    · simp [hother x hx hseq]
  rw [accountOf] at hbook
  simp [lookFor, hbook, hmap, hnone]

/-- R103: a LOCATE of an account that is OPEN here is resolved at once, and its place is freed. -/
theorem askUnit_locateHere {acc : Account} (hplace : PlaceOpen q qs s) (hactive : s.lif.state = .active) (hacc : accountOf s a = some acc)
    (hopened : acc.state = .opened) : ∃ x, x.free = qs ++ [q] ∧
      askUnit (locateReq ref a openIfNone) s = unitMade ref [q] (some s.node.number) { s with exc := x } := by
  have hfind := findEntry_entryMade q qs (locateItem ref a openIfNone) s
  have hlook : lookFor (entryMade q qs (locateItem ref a openIfNone) s) (makeEntry q (locateItem ref a openIfNone)) a =
      .node s.node.number false false := lookFor_here (s := entryMade q qs _ s) hacc (.inl hopened)
  rw [askUnit_locate hplace, resolveEntry, resolveWith_locate _ hfind hactive rfl rfl rfl rfl hlook, freePlace_found hfind]
  exact ⟨_, rfl, rfl⟩

/-- R104: of an account that nothing here tells of, LOCATE goes to the line. -/
theorem askUnit_locateSearches (hplace : PlaceOpen q qs s) (hline : LineOpen s) (hbook : accountOf s a = none)
    (hmap : mapFind s.exc.homeMap a = none) (hother : ∀ x ∈ s.exc.entries, x.account ≠ some a) : ∃ x, x.free = qs ∧
      askUnit (locateReq ref a openIfNone) s = unitMade ref [q] none { s with
        exc := x, lif := (queued (newMsg .request 0 q (.request (some a) .locate) .exc s.exc.tok) s).lif } := by
  have hfind := findEntry_entryMade q qs (locateItem ref a openIfNone) s
  have hlook : lookFor (entryMade q qs (locateItem ref a openIfNone) s) (makeEntry q (locateItem ref a openIfNone)) a = .searches := by
    refine lookFor_alone (s := entryMade q qs _ s) hbook hmap fun x hx hne => ?_
    obtain rfl | hx := mem_insertKeyed (key := fun e : Entry => e.seq) hx
    · exact absurd rfl hne
    · exact hother x hx
  have hplaced := placeLocate_line (s := countSearch (entryMade q qs (locateItem ref a openIfNone) s))
    (makeEntry q (locateItem ref a openIfNone)) false [] none hline
  rw [askUnit_locate hplace, resolveEntry, resolveWith_searches _ hfind hline.1 rfl rfl rfl hlook]
  refine ⟨(requestSent _ 0 .locate (countSearch (entryMade q qs (locateItem ref a openIfNone) s))).exc, ?_,
    congrArg (unitMade ref [q] none) hplaced⟩
  rfl

/-! ### The checks of a WEIGH (R126) -/

section
variable {boat count : Field} {species grade ctype ring : Nat} {f : WeighFields} {c : PCode}

theorem inRange_eq_some {lo hi n : Nat} {o : Option Nat} (h : inRange lo hi o = some n) : lo ≤ n ∧ n ≤ hi := by
  cases o with
  | none => cases h
  | some m =>
    simp only [inRange] at h
    split at h
    · next hm => exact Option.some.inj h ▸ hm
    · cases h

theorem readBoat_eq_some {b : Nat} (h : readBoat boat = some b) : 1 ≤ b ∧ b ≤ 499999 := by
  unfold readBoat at h
  split at h
  · next n hn =>
    split at h
    · next hboat => exact Option.some.inj h ▸ ⟨(inRange_eq_some hn).1, of_decide_eq_true hboat⟩
    · cases h
  · cases h

theorem readWeigh_ranges (h : readWeigh boat species grade ctype count ring = some f) : 1 ≤ f.boat ∧ f.boat ≤ 499999 ∧ 1 ≤ species ∧
    species ≤ 999 ∧ 1 ≤ grade ∧ grade ≤ 4 ∧ 1 ≤ ctype ∧ ctype ≤ 8 ∧ f.count ≤ 99 ∧ 1 ≤ ring ∧ ring ≤ 8 := by
  unfold readWeigh at h
  split at h
  · next b c hboat hcount =>
    split at h
    · next hok =>
      obtain rfl := Option.some.inj h
      simp only [speciesOk, gradeOk, ctypeOk, ringOk, Bool.and_eq_true, decide_eq_true_eq] at hok
      have hb := readBoat_eq_some hboat
      have hc := inRange_eq_some hcount
      simp only
      omega
    · cases h
  · cases h

@[simp] theorem readEnded_lots (w : Wgu) : (readEnded w).lots = w.lots := by unfold readEnded; split <;> rfl

/-- A frame that carries an answer out leaves the current reading. -/
theorem liveReading_carryAnswer (s : State) : liveReading (carryAnswer s) = liveReading s := by
  rw [carryAnswer_eq]
  unfold readEnded
  split <;> exact liveReading_congr rfl rfl rfl rfl rfl rfl rfl rfl

@[simp] theorem carryAnswer_cfg (s : State) : (carryAnswer s).port.cfg = s.port.cfg := by rw [carryAnswer_eq]

theorem weighRefusal_carryAnswer (s : State) : weighRefusal (carryAnswer s) = weighRefusal s := by
  simp [weighRefusal, State.lineActive, readEnded_weigh]

theorem frame_weigh_badValue (h : TakenBy .scale s) : frame true (some .scale) (weighOwner none) s = answered .badValue .none s :=
  frame_refused h.1 (.inr h.2.symm) rfl

theorem frame_weigh_refused (h : TakenBy .scale s) (hrefused : weighRefusal s = some c) :
    frame true (some .scale) (weighOwner (some f)) s = answered c .none s :=
  frame_refused h.1 (.inr h.2.symm) (by simp [weighOwner, weighRefusal_carryAnswer, hrefused])

/-! ### A WEIGH begins (R126, R127) -/

/-- The scale with a WEIGH in hand: its crate tare taken, and the WEIGH in a stage. -/
def weighStarted (f : WeighFields) (st : WeighStage) (w : Wgu) : Wgu :=
  { w with crateTare := some (f.ctype, f.count), weigh := some ⟨f.boat, f.species, f.grade, f.ctype, f.count, f.ring, st⟩ }

/-- A frame that begins a WEIGH is answered ACCEPTED, and changes the EXC and the line beside the scale. -/
theorem frame_weigh_begun {st : WeighStage} {x : Exc} {l : Lif} (h : TakenBy .scale s) (hgood : weighRefusal s = none)
    (hbegun : beginWeigh f (carryAnswer s) = { carryAnswer s with exc := x, lif := l, wgu := weighStarted f st (carryAnswer s).wgu }) :
    ∃ t, frame true (some .scale) (weighOwner (some f)) s = t ∧ t.port.buf.code = .accepted ∧ t.wgu.crateTare = some (f.ctype, f.count) ∧
      t.wgu.weigh = some ⟨f.boat, f.species, f.grade, f.ctype, f.count, f.ring, st⟩ ∧ t.wgu.lots = s.wgu.lots ∧ t.store = s.store ∧
      t.book = s.book ∧ t.node = s.node ∧ t.exc = x ∧ t.lif = l := by
  have howner : weighOwner (some f) (carryAnswer s) = finish .accepted (beginWeigh f (carryAnswer s)) := by
    simp [weighOwner, weighRefusal_carryAnswer, hgood]
  refine ⟨_, frame_taken h.1 _ (.inr h.2.symm) _, ?_⟩
  rw [howner, hbegun, carryAnswer_eq]
  exact ⟨rfl, rfl, rfl, readEnded_lots _, rfl, rfl, rfl, rfl, rfl⟩

theorem beginWeigh_noRoom (hfull : openPlaces s.exc = 0) : beginWeigh f s = { s with
    exc := { s.exc with asks := s.exc.asks ++ [locateReq .weighLocate f.boat true] }
    wgu := weighStarted f (.resolving none) s.wgu } :=
  askUnit_noRoom (s := s.onWgu (weighStarted f (.resolving none))) hfull

theorem weighAsked_resolving (q : Nat) (f : WeighFields) (x : Exc) (l : Lif) (s : State) :
    weighAsked q { s with exc := x, lif := l, wgu := weighStarted f (.resolving none) s.wgu } =
      { s with exc := x, lif := l, wgu := weighStarted f (.resolving (some q)) s.wgu } := rfl

theorem beginWeigh_searches (hplace : PlaceOpen q qs s) (hline : LineOpen s) (hbook : accountOf s f.boat = none)
    (hmap : mapFind s.exc.homeMap f.boat = none) (hother : ∀ x ∈ s.exc.entries, x.account ≠ some f.boat) :
    ∃ x, x.free = qs ∧ beginWeigh f s = { s with
      exc := x
      lif := (queued (newMsg .request 0 q (.request (some f.boat) .locate) .exc s.exc.tok) s).lif
      wgu := weighStarted f (.resolving (some q)) s.wgu } := by
  obtain ⟨x, hfree, hasked⟩ := askUnit_locateSearches (s := s.onWgu (weighStarted f (.resolving none))) (ref := .weighLocate)
    (openIfNone := true) hplace hline hbook hmap hother
  exact ⟨x, hfree, hasked.trans (weighAsked_resolving q f x _ s)⟩

end

/-! ### The outcome of the WEIGH's LOCATE (R127, R128, R130) -/

section
variable {g : Weigh} {n : Nat} {f : CalFields}

/-- SETTLING begins with its 3,000 ms. -/
def weighSettling (g : Weigh) (n : Nat) (w : Wgu) : Wgu := { w with weigh := some { g with stage := .settling n 3000 } }

theorem liveReading_weighSettling (g : Weigh) (n : Nat) (s : State) : liveReading (s.onWgu (weighSettling g n)) = liveReading s :=
  liveReading_congr rfl rfl rfl rfl rfl rfl rfl rfl

section
variable (hweigh : s.wgu.weigh = some g) (hstage : g.stage = .resolving (some q))
include hweigh hstage

theorem weighLocated_home (n : Nat) : weighLocated q (.home n) s = examineReading (s.onWgu (weighSettling g n)) := by
  simp only [weighLocated, hweigh, hstage, if_true]
  rfl

theorem weighLocated_home_unstable (hstable : (liveReading s).stable = false) (n : Nat) :
    weighLocated q (.home n) s = s.onWgu (weighSettling g n) := by
  rw [weighLocated_home hweigh hstage, examineReading_unstable (by rwa [liveReading_weighSettling])]

theorem weighLocated_home_stable (hcal : calInForce s.store = some f) (hstable : (liveReading s).stable = true) (n : Nat) :
    weighLocated q (.home n) s =
      capture f { g with stage := .settling n 3000 } n (liveReading s) (s.onWgu (weighSettling g n)) := by
  have hexamined := examineReading_settling (s := s.onWgu (weighSettling g n)) (g := { g with stage := .settling n 3000 })
    rfl rfl hcal (by rwa [liveReading_weighSettling])
  rw [weighLocated_home hweigh hstage, hexamined, liveReading_weighSettling]

theorem weighLocated_failed (last : LastAns) :
    weighLocated q (.failed last) s = endWeigh { code := .noHome, boat := g.boat } s := by
  simp only [weighLocated, hweigh, hstage, if_true]

theorem weighLocated_bookFull : weighLocated q (.opening .bookFull) s = endWeigh { code := .noAccountRoom, boat := g.boat } s := by
  simp only [weighLocated, hweigh, hstage, if_true]

theorem weighLocated_notConfigured : weighLocated q (.opening .notConfigured) s = endWeigh { code := .notConfigured, boat := g.boat } s := by
  simp only [weighLocated, hweigh, hstage, if_true]

end

/-- R127: an account that is OPEN here is its own boat home, and SETTLING begins at once. -/
theorem beginWeigh_here {w : WeighFields} {acc : Account} (hplace : PlaceOpen q qs s) (hactive : s.lif.state = .active)
    (hacc : accountOf s w.boat = some acc) (hopened : acc.state = .opened) (hstable : (liveReading s).stable = false) :
    ∃ x, x.free = qs ++ [q] ∧ beginWeigh w s = { s with exc := x, wgu := weighStarted w (.settling s.node.number 3000) s.wgu } := by
  obtain ⟨x, hfree, hasked⟩ := askUnit_locateHere (s := s.onWgu (weighStarted w (.resolving none))) (ref := .weighLocate)
    (openIfNone := true) hplace hactive hacc hopened
  have hstill : (liveReading { s with exc := x, wgu := weighStarted w (.resolving (some q)) s.wgu }).stable = false := by
    rw [liveReading_stable] at hstable ⊢
    exact hstable
  refine ⟨x, hfree, hasked.trans ?_⟩
  exact weighLocated_home_unstable (s := { s with exc := x, wgu := weighStarted w (.resolving (some q)) s.wgu }) rfl rfl hstill s.node.number

/-! ### The end of the lot's commit group (R129, R130) -/

/-- The lot stands in the table, offered, and the WEIGH has ended DONE. -/
def lotMade (g : Weigh) (home : Nat) (gross tare net : Int) (n : Nat) (s : State) : State :=
  lotOffered (weighedLot g home net n (some 0)) (flagged .weighDone { s with
    wgu := { weighClosed { weighedResult g home gross tare net .done with lot := some n } s.wgu with
      lots := putLotIn (weighedLot g home net n (some 0)) s.wgu.lots } })

theorem offerLot_endWeigh_putLot {l : Lot} (hrun : s.sys.phase = .running) (hline : LineOpen s) (hroom : s.wgu.lots.length < 16)
    (hstate : l.state = .offered) (r : WeighResult) : offerLot l.number (endWeigh r (putLot l s)) =
      lotOffered l (flagged .weighDone { s with wgu := { weighClosed r s.wgu with lots := putLotIn l s.wgu.lots } }) := by
  have hfind : findLot (flagged .weighDone { s with wgu := { weighClosed r s.wgu with lots := putLotIn l s.wgu.lots } }) l.number = some l :=
    findLot_putLotIn (.inr hroom)
  rw [endWeigh_running (s := putLot l s) hrun]
  exact offerLot_eq_lotOffered hfind hstate hrun hline

theorem lotCreated_written {home : Nat} {gross tare net : Int} (hweigh : s.wgu.weigh = some g)
    (hstage : g.stage = .recording home gross tare net n) (hrun : s.sys.phase = .running) (hline : LineOpen s)
    (hroom : s.wgu.lots.length < 16) : lotCreated .done s = lotMade g home gross tare net n s ∧
      ∀ i, lotCreated (.full (i + 1)) s = lotMade g home gross tare net n { s with node := { s.node with nextLot := nextNumber n } } ∧
        lotCreated (.fault (i + 1)) s = lotMade g home gross tare net n { s with node := { s.node with nextLot := nextNumber n } } := by
  have hmade (u : State) (hrun : u.sys.phase = .running) (hline : LineOpen u) (hroom : u.wgu.lots.length < 16) :
      offerLot n (endWeigh { weighedResult g home gross tare net .done with lot := some n } (putLot (weighedLot g home net n (some 0)) u)) =
        lotMade g home gross tare net n u :=
    offerLot_endWeigh_putLot (l := weighedLot g home net n (some 0)) hrun hline hroom rfl _
  simp only [lotCreated, hweigh, hstage]
  have hrisen := hmade (s.onNode fun x => { x with nextLot := nextNumber n }) hrun hline hroom
  exact ⟨hmade s hrun hline hroom, fun i => ⟨hrisen, hrisen⟩⟩

theorem lotCreated_unwritten {home : Nat} {gross tare net : Int} (hweigh : s.wgu.weigh = some g)
    (hstage : g.stage = .recording home gross tare net n) :
    lotCreated (.full 0) s = endWeigh (weighedResult g home gross tare net .storeFull) s ∧
      lotCreated (.fault 0) s = endWeigh (weighedResult g home gross tare net .storeFault) s := by
  simp only [lotCreated, hweigh, hstage, weighedResult, and_self]

end

end

/-- Settles O50: a WEIGH by the first check that fails, and then by what is known of the account; the outcome of its LOCATE; the outcome of
its commit group. -/
theorem weighBegins : Obligations.WeighBegins := by
  refine ⟨?_, fun s boat count species grade ctype ring htaken hread => congrArg Host.Outcome.next (hread ▸ frame_weigh_badValue htaken), ?_⟩
  · intro s boat count species grade ctype ring f htaken hread cmd begun refused
    have hcmd {u : State} (hu : frame true (some .scale) (weighOwner (some f)) s = u) : exec cmd s = .next u :=
      congrArg Host.Outcome.next (hread ▸ hu)
    have hrefused {c : PCode} (hc : weighRefusal s = some c) : refused c := hcmd (frame_weigh_refused htaken hc)
    refine ⟨readWeigh_ranges hread, fun hcal => hrefused (by simp [weighRefusal, hcal]), fun hcal => ⟨fun hcrates => ?_, fun hcrates => ⟨?_, ?_, ?_⟩⟩,
      fun hcal hcrates hactive hidle hlots => ?_⟩
    all_goals simp only [Option.isSome_iff_ne_none] at hcal
    · exact hrefused (by simp [weighRefusal, hcal, hcrates])
    all_goals simp only [Option.isSome_iff_ne_none] at hcrates
    · exact fun hline => hrefused (by simp [weighRefusal, hcal, hcrates, State.lineActive, hline])
    · exact fun hline hweigh => hrefused (by simp [weighRefusal, hcal, hcrates, State.lineActive, hline, hweigh])
    · exact fun hline hweigh hlots => hrefused (by simp [weighRefusal, hcal, hcrates, State.lineActive, hline, hweigh, hlots])
    · have hgood : weighRefusal s = none := by simp [weighRefusal, hcal, hcrates, State.lineActive, hactive, hidle, hlots]
      have hbegun {st : WeighStage} {x : Exc} {l : Lif} (hbegins : beginWeigh f (carryAnswer s) =
          { carryAnswer s with exc := x, lif := l, wgu := weighStarted f st (carryAnswer s).wgu }) : ∃ t, begun st t ∧ t.exc = x ∧ t.lif = l := by
        obtain ⟨t, ht, hcode, hcrate, hweigh, hlots, hstore, hbook, hnode, hexc, hlif⟩ := frame_weigh_begun htaken hgood hbegins
        exact ⟨t, ⟨hcmd ht, hcode, hcrate, hweigh, hlots, hstore, hbook, hnode⟩, hexc, hlif⟩
      have hstill (hstable : (liveReading s).stable = false) : (liveReading (carryAnswer s)).stable = false := by
        rwa [liveReading_carryAnswer]
      rw [carryAnswer_eq] at hbegun hstill
      refine ⟨fun hfull => hbegun (beginWeigh_noRoom hfull), fun q qs a hplace hacc hopened hstable => ?_,
        fun q qs hplace hbook hmap hother hline => ?_⟩
      · obtain ⟨x, hfree, hbegins⟩ := beginWeigh_here (s := { s with port := { s.port with sent := s.port.buf }, wgu := readEnded s.wgu })
          hplace hactive hacc hopened (hstill hstable)
        obtain ⟨t, ht, hexc, hlif⟩ := hbegun hbegins
        exact ⟨t, ht, hexc ▸ hfree, hlif⟩
      · obtain ⟨x, hfree, hbegins⟩ := beginWeigh_searches (s := { s with port := { s.port with sent := s.port.buf }, wgu := readEnded s.wgu })
          hplace hline hbook hmap hother
        obtain ⟨t, ht, hexc, hlif⟩ := hbegun hbegins
        exact ⟨t, ht, hexc ▸ hfree, hlif⟩
  · intro s g hrole hweigh hrun closed fails
    have hends (r : WeighResult) : endWeigh r s = fails r := endWeigh_running hrun r
    refine ⟨fun e href hstage => ?_, fun home gross tare net n hstage => ?_⟩
    · have hunit (o : ExcOut) := unitOutcome_weighLocate href hrole o
      refine ⟨fun last => ?_, ?_, ?_, fun n hstable => ?_, fun n f gross hcal hstable hgross => ?_⟩
      · rw [hunit, weighLocated_failed hweigh hstage, hends]
      · rw [hunit, weighLocated_bookFull hweigh hstage, hends]
      · rw [hunit, weighLocated_notConfigured hweigh hstage, hends]
      · rw [hunit, weighLocated_home_unstable hweigh hstage hstable]
        rfl
      · intro tare m weighed
        have htare : captureTare f (s.onWgu (weighSettling g n)) = tare := rfl
        have hsettled (r : WeighResult) : endWeigh r (s.onWgu (weighSettling g n)) = fails r := endWeigh_running (s := s.onWgu _) hrun r
        rw [hunit, weighLocated_home_stable hweigh hstage hcal hstable]
        exact ⟨fun hheavy => (capture_tooHeavy hgross hheavy).trans (hsettled _),
          fun hheavy hnet => (capture_netNotPositive hgross htare hheavy hnet).trans (hsettled _),
          fun hheavy hnet hhigh => (capture_netTooHigh hgross htare hheavy hnet hhigh).trans (hsettled _),
          fun hheavy hnet hhigh hlist => capture_records hgross htare hheavy hnet hhigh hlist⟩
    · obtain ⟨hfull, hfault⟩ := lotCreated_unwritten hweigh hstage
      exact ⟨fun hline hroom => lotCreated_written hweigh hstage hrun hline hroom, hfull.trans (hends _), hfault.trans (hends _)⟩

end Sys2Proof.Machine
end

section
/-! The settings of a scale: ZERO, TARE and the calibration (R120 to R124). -/

namespace Sys2Proof.Machine
open Sys2Proof

section
variable {s : State} {f : CalFields} {avg : Int} {c : PCode}

/-! ### A frame that changes the scale alone -/

@[simp] theorem readEnded_draft (w : Wgu) : (readEnded w).draft = w.draft := by unfold readEnded; split <;> rfl
@[simp] theorem readEnded_calBusy (w : Wgu) : (readEnded w).calBusy = w.calBusy := by unfold readEnded; split <;> rfl
@[simp] theorem currentAverage_readEnded (w : Wgu) : currentAverage (readEnded w) = currentAverage w := by unfold readEnded; split <;> rfl

theorem calAverage_carryAnswer (s : State) : calAverage (carryAnswer s) = calAverage s := by
  simp [calAverage, carryAnswer_lock, readEnded_weigh]

/-- A change of the scale that does not touch the reading shown commutes with the end of a read. -/
theorem onWgu_carryAnswer {g : Wgu → Wgu} (hg : ∀ w, readEnded (g w) = g (readEnded w)) (s : State) :
    (carryAnswer s).onWgu g = carryAnswer (s.onWgu g) := by
  rw [carryAnswer_eq, carryAnswer_eq]
  exact congrArg (fun w => { s with port := { s.port with sent := s.port.buf }, wgu := w }) (hg s.wgu).symm

section
variable (h : TakenBy .scale s) {owner : State → State × Reply}
include h

theorem frame_scale_refused (ho : owner (carryAnswer s) = refuse c (carryAnswer s)) :
    frame true (some .scale) owner s = answered c .none s :=
  frame_refused h.1 (.inr h.2.symm) ho

theorem frame_scale_changed {g : Wgu → Wgu} (ho : owner (carryAnswer s) = finish c ((carryAnswer s).onWgu g))
    (hg : ∀ w, readEnded (g w) = g (readEnded w)) : frame true (some .scale) owner s = answered c .none (s.onWgu g) :=
  frame_effect h.1 _ (.inr h.2.symm) owner c .none (ho.trans (congrArg (finish c) (onWgu_carryAnswer hg s)))

end

/-! ### ZERO and TARE (R123, R124) -/

/-- The working zero with window and history emptied. -/
def zeroTaken (avg : Int) (w : Wgu) : Wgu := { w with zero := avg, window := [], history := [] }

theorem readEnded_zeroTaken (avg : Int) (w : Wgu) : readEnded (zeroTaken avg w) = zeroTaken avg (readEnded w) := by
  unfold readEnded zeroTaken; split <;> rfl

theorem zeroOwner_notCalibrated (hcal : calInForce s.store = none) : zeroOwner s = refuse .notCalibrated s := by
  simp only [zeroOwner, hcal]

theorem zeroOwner_busy (hcal : (calInForce s.store).isSome = true) (hweigh : s.wgu.weigh.isSome = true) : zeroOwner s = refuse .busy s := by
  obtain ⟨f, hf⟩ := Option.isSome_iff_exists.1 hcal
  simp only [zeroOwner, hf, hweigh, if_true]

section
variable (hcal : calInForce s.store = some f) (hweigh : s.wgu.weigh = none)
include hcal hweigh

theorem zeroOwner_unstable (hstable : (liveReading s).stable = false) : zeroOwner s = refuse .unstable s := by
  simp [zeroOwner, hcal, hweigh, hstable]

section
variable (hstable : (liveReading s).stable = true) (havg : (liveReading s).average = some avg)
include hstable havg

theorem zeroOwner_zeroRange (hrange : zeroOutOfRange f avg = true) : zeroOwner s = refuse .zeroRange s := by
  simp [zeroOwner, hcal, hweigh, hstable, havg, hrange]

theorem zeroOwner_done (hrange : zeroOutOfRange f avg = false) : zeroOwner s = finish .done (s.onWgu (zeroTaken avg)) := by
  simp [zeroOwner, hcal, hweigh, hstable, havg, hrange]
  rfl

end

end

theorem zeroOutOfRange_iff (f : CalFields) (avg : Int) :
    zeroOutOfRange f avg = true ↔ f.capacity * 2 / 100 < (zeroOffset f avg).natAbs ∨ f.span - avg < 10000 := by
  simp [zeroOutOfRange]

/-- The offset is within half a gram of the ratio of R123. -/
theorem zeroOffset_near (hspan : f.zero < f.span) (avg : Int) :
    2 * ((zeroOffset f avg) * (f.span - f.zero) - (avg - f.zero) * f.grams).natAbs ≤ (f.span - f.zero).natAbs := by
  have hnear := (roundDiv_roundsTo ((avg - f.zero) * f.grams) (d := (f.span - f.zero).toNat) (by omega)).1
  have hcast : ((f.span - f.zero).toNat : Int) = f.span - f.zero := Int.toNat_of_nonneg (by omega)
  rw [hcast] at hnear
  exact hnear.trans (by omega)

theorem tareOwner_done {x : Field} {n : Nat} (hx : readWeight x = some n) (s : State) :
    tareOwner x s = finish .done (s.onWgu fun w => { w with manualTare := n }) := by simp only [tareOwner, hx]

/-! ### The draft (R121) -/

section
variable (hlock : s.port.lock = false)
include hlock

theorem calAverage_busy (hweigh : s.wgu.weigh.isSome = true) : calAverage s = .error .busy := by simp [calAverage, hlock, hweigh]

theorem calAverage_noReading (hweigh : s.wgu.weigh = none) (havg : currentAverage s.wgu = none) : calAverage s = .error .noReading := by
  simp [calAverage, hlock, hweigh, havg]

theorem calAverage_ok (hweigh : s.wgu.weigh = none) (havg : currentAverage s.wgu = some avg) : calAverage s = .ok avg := by
  simp [calAverage, hlock, hweigh, havg]

end

theorem frame_calZero_refused (h : TakenBy .scale s) (havg : calAverage s = .error c) :
    frame true (some .scale) calZeroOwner s = answered c .none s :=
  frame_scale_refused h (by simp only [calZeroOwner, calAverage_carryAnswer, havg])

theorem frame_calZero_done (h : TakenBy .scale s) (havg : calAverage s = .ok avg) : frame true (some .scale) calZeroOwner s =
    answered .done .none (s.onWgu fun w => { w with draft := { zero := some avg, span := none } }) :=
  frame_scale_changed h (by simp only [calZeroOwner, calAverage_carryAnswer, havg]) fun w => by unfold readEnded; split <;> rfl

section
variable (h : TakenBy .scale s) {x : Field} {n : Nat} (hx : inRange 1000 9999999 (readWeight x) = some n)
include h hx

theorem frame_calSpan_refused (havg : calAverage s = .error c) : frame true (some .scale) (calSpanOwner x) s = answered c .none s :=
  frame_scale_refused h (by simp only [calSpanOwner, hx, calAverage_carryAnswer, havg])

section
variable (havg : calAverage s = .ok avg)
include havg

theorem frame_calSpan_noZero (hzero : s.wgu.draft.zero = none) :
    frame true (some .scale) (calSpanOwner x) s = answered .noDraftZero .none s :=
  frame_scale_refused h (by simp [calSpanOwner, hx, calAverage_carryAnswer, havg, hzero])

theorem frame_calSpan_small {z : Int} (hzero : s.wgu.draft.zero = some z) (hsmall : avg < z + 10000) :
    frame true (some .scale) (calSpanOwner x) s = answered .spanTooSmall .none s :=
  frame_scale_refused h (by simp [calSpanOwner, hx, calAverage_carryAnswer, havg, hzero, hsmall])

theorem frame_calSpan_done {z : Int} (hzero : s.wgu.draft.zero = some z) (hspan : z + 10000 ≤ avg) :
    frame true (some .scale) (calSpanOwner x) s =
      answered .done .none (s.onWgu fun w => { w with draft := { w.draft with span := some (avg, n) } }) :=
  frame_scale_changed h (by simp [calSpanOwner, hx, calAverage_carryAnswer, havg, hzero, Int.not_lt.2 hspan])
    fun w => by unfold readEnded; split <;> rfl

end

end

/-! ### CAL WRITE (R120, R122) -/

section
variable (hlock : s.port.lock = false)
include hlock

theorem calWriteOwner_notOffline (hline : s.lif.state ≠ .offline) (d x : Field) : calWriteOwner d x s = refuse .notOffline s := by
  simp [calWriteOwner, hlock, hline]

section
variable (hline : s.lif.state = .offline)
include hline

theorem calWriteOwner_exhausted (hcount : 4 ≤ calCount s.store) (d x : Field) : calWriteOwner d x s = refuse .calExhausted s := by
  simp [calWriteOwner, hlock, hline, hcount]

section
variable (hcount : calCount s.store < 4) {d x : Field}
include hcount

theorem calWriteOwner_noDraft (hdraft : s.wgu.draft.zero = none ∨ s.wgu.draft.span = none) :
    calWriteOwner d x s = refuse .noDraft s := by
  obtain hzero | hspan := hdraft
  · simp [calWriteOwner, hlock, hline, Nat.not_le.2 hcount, hzero]
  · cases hzero : s.wgu.draft.zero <;> simp [calWriteOwner, hlock, hline, Nat.not_le.2 hcount, hzero, hspan]

section
variable {z sp : Int} {g : Nat} (hzero : s.wgu.draft.zero = some z) (hspan : s.wgu.draft.span = some (sp, g))
include hzero hspan

theorem calWriteOwner_badValue (hfields : readCalFields z sp g d x = none) : calWriteOwner d x s = refuse .badValue s := by
  simp [calWriteOwner, hlock, hline, Nat.not_le.2 hcount, hzero, hspan, hfields]

theorem calWriteOwner_busy (hfields : (readCalFields z sp g d x).isSome = true) (hbusy : s.wgu.calBusy = true) :
    calWriteOwner d x s = refuse .busy s := by
  obtain ⟨f, hf⟩ := Option.isSome_iff_exists.1 hfields
  simp [calWriteOwner, hlock, hline, Nat.not_le.2 hcount, hzero, hspan, hf, hbusy]

theorem calWriteOwner_accepted (hfields : readCalFields z sp g d x = some f) (hbusy : s.wgu.calBusy = false) (hlist : ListOpen s) :
    calWriteOwner d x s = finish .accepted (listed ⟨.cal f, .calPage f⟩ (s.onWgu fun w => { w with calBusy := true })) := by
  have hplaced : placeStore ⟨.cal f, .calPage f⟩ (s.onWgu fun w => { w with calBusy := true }) =
      listed ⟨.cal f, .calPage f⟩ (s.onWgu fun w => { w with calBusy := true }) := placeStore_room hlist.1 hlist.2 nofun
  simp [calWriteOwner, hlock, hline, Nat.not_le.2 hcount, hzero, hspan, hfields, hbusy, hplaced]

end

end

end

end

theorem calPageListed_carryAnswer (r : Request) (s : State) :
    listed r ((carryAnswer s).onWgu fun w => { w with calBusy := true }) =
      carryAnswer (listed r (s.onWgu fun w => { w with calBusy := true })) := by
  rw [onWgu_carryAnswer fun w => by unfold readEnded; split <;> rfl, carryAnswer_eq, carryAnswer_eq]
  rfl

theorem readCalFields_eq {z sp : Int} {g : Nat} {d x : Field} {dv cp : Nat} (hd : readWeight d = some dv) (hx : readWeight x = some cp) :
    readCalFields z sp g d x = if (dv = 5 ∨ dv = 10 ∨ dv = 20 ∨ dv = 50) ∧ dv ≤ cp ∧ cp % dv = 0 then some ⟨z, sp, g, dv, cp⟩ else none := by
  simp only [readCalFields, hd, hx]

end

/-- Settles O51: each owner's checks in their order, over the state that the frame's carried-out answer leaves. -/
theorem scaleSettings : Obligations.ScaleSettings := by
  intro s h
  have hweighEnded : (carryAnswer s).wgu.weigh = s.wgu.weigh := by simp [readEnded_weigh]
  have hlockEnded := carryAnswer_lock s
  refine ⟨fun hcal => ?_, fun hcal hweigh => ?_, fun f avg hspan => ⟨zeroOutOfRange_iff f avg, zeroOffset_near hspan avg⟩,
    fun f hcal hweigh => ⟨fun avg hstable havg hrange => ?_, fun avg hstable havg hrange => ?_, fun hstable => ?_⟩,
    fun x n hx => ?_, fun hlock hweigh => ⟨fun havg => ?_, fun avg havg => ⟨?_, fun x n hx =>
      ⟨fun hzero => ?_, fun z hzero => ⟨fun hsmall => ?_, fun hwide => ?_⟩⟩⟩⟩,
    fun z sp g d x dv cp hd hx => readCalFields_eq hd hx, fun hlock hweigh => ⟨?_, fun x hx => ?_⟩,
    fun hlock hline d x => ?_, fun hlock hline hcount d x => ⟨fun hdraft => ?_, fun z sp g hzero hspan =>
      ⟨fun hfields => ?_, fun hfields hbusy => ?_⟩⟩,
    fun hlock hline => ⟨fun hcount d x => ?_, fun hcount hbusy hlist z sp g d x f hzero hspan hfields => ?_⟩,
    fun f => ⟨raise_running _ .storeEvent h.1.1, fun _ => raise_running _ .storeEvent h.1.1⟩⟩
  · exact congrArg _ (frame_scale_refused h (zeroOwner_notCalibrated (by simpa using hcal)))
  · exact congrArg _ (frame_scale_refused h (zeroOwner_busy (by simpa using hcal) (by rwa [hweighEnded])))
  · exact congrArg _ (frame_scale_changed h (zeroOwner_done (by simpa using hcal) (by rwa [hweighEnded])
      (by rwa [liveReading_carryAnswer]) (by rwa [liveReading_carryAnswer]) hrange) (readEnded_zeroTaken avg))
  · exact congrArg _ (frame_scale_refused h (zeroOwner_zeroRange (by simpa using hcal) (by rwa [hweighEnded])
      (by rwa [liveReading_carryAnswer]) (by rwa [liveReading_carryAnswer]) hrange))
  · exact congrArg _ (frame_scale_refused h (zeroOwner_unstable (by simpa using hcal) (by rwa [hweighEnded])
      (by rwa [liveReading_carryAnswer])))
  · exact congrArg _ (frame_scale_changed h (tareOwner_done hx _) fun w => by unfold readEnded; split <;> rfl)
  · exact congrArg _ (frame_calZero_refused h (calAverage_noReading hlock hweigh havg))
  · exact congrArg _ (frame_calZero_done h (calAverage_ok hlock hweigh havg))
  · exact congrArg _ (frame_calSpan_noZero h hx (calAverage_ok hlock hweigh havg) hzero)
  · exact congrArg _ (frame_calSpan_small h hx (calAverage_ok hlock hweigh havg) hzero hsmall)
  · exact congrArg _ (frame_calSpan_done h hx (calAverage_ok hlock hweigh havg) hzero hwide)
  · exact congrArg _ (frame_calZero_refused h (calAverage_busy hlock hweigh))
  · obtain ⟨n, hn⟩ := Option.isSome_iff_exists.1 hx
    exact congrArg _ (frame_calSpan_refused h hn (calAverage_busy hlock hweigh))
  · exact congrArg _ (frame_scale_refused h (calWriteOwner_notOffline (by rwa [hlockEnded]) (by simpa using hline) d x))
  · exact congrArg _ (frame_scale_refused h (calWriteOwner_noDraft (by rwa [hlockEnded]) (by simpa using hline) (by simpa using hcount)
      (by simpa using hdraft)))
  · exact congrArg _ (frame_scale_refused h (calWriteOwner_badValue (by rwa [hlockEnded]) (by simpa using hline) (by simpa using hcount)
      (by simpa using hzero) (by simpa using hspan) hfields))
  · exact congrArg _ (frame_scale_refused h (calWriteOwner_busy (by rwa [hlockEnded]) (by simpa using hline) (by simpa using hcount)
      (by simpa using hzero) (by simpa using hspan) hfields (by simpa using hbusy)))
  · exact congrArg _ (frame_scale_refused h (calWriteOwner_exhausted (by rwa [hlockEnded]) (by simpa using hline) (by simpa using hcount) d x))
  · have howner := calWriteOwner_accepted (s := carryAnswer s) (by rwa [hlockEnded]) (by simpa using hline) (by simpa using hcount)
      (by simpa using hzero) (by simpa using hspan) hfields (by simpa using hbusy)
      ⟨by simpa using h.1.2, by simpa [listRoom] using hlist⟩
    exact congrArg _ (frame_effect h.1 _ (.inr h.2.symm) _ _ _
      (howner.trans (congrArg (finish .accepted) (calPageListed_carryAnswer _ s))))

end Sys2Proof.Machine
end

section
/-! The lot commands and the lot request queue (R133 to R136). -/

namespace Sys2Proof.Machine
open Sys2Proof

/-! ### The lot commands enter the queue (R133) -/

section
variable {s : State} {n : Nat} {r : LotReq}

@[simp] theorem lotCmdBusy_readEnded (w : Wgu) : lotCmdBusy (readEnded w) = lotCmdBusy w := by unfold readEnded; split <;> rfl

theorem lotCmdBusy_iff (w : Wgu) : lotCmdBusy w = true ↔
    8 ≤ w.lotQ.length ∨ (∃ r ∈ w.lotQ, isLotCmd r = true) ∨ ∃ r, w.lotHand = some r ∧ isLotCmd r = true := by
  simp only [lotCmdBusy, Bool.or_eq_true, List.any_eq_true, Option.any_eq_true, decide_eq_true_eq]
  exact or_comm

theorem numOk_eq_false (hn : ¬ (1 ≤ n ∧ n ≤ 65535)) : numOk n = false := by simpa [numOk] using hn

theorem numOk_eq_true (hlow : 1 ≤ n) (hhigh : n ≤ 65535) : numOk n = true := by simp [numOk, hlow, hhigh]

section
variable (h : TakenBy .scale s)
include h

theorem frame_lotCmd_badValue (hn : numOk n = false) (r : LotReq) :
    frame true (some .scale) (lotCmdOwner n r) s = answered .badValue .none s :=
  frame_scale_refused h (by simp [lotCmdOwner, hn])

theorem frame_lotCmd_busy (hn : numOk n = true) (hbusy : lotCmdBusy s.wgu = true) (r : LotReq) :
    frame true (some .scale) (lotCmdOwner n r) s = answered .busy .none s :=
  frame_scale_refused h (by simp [lotCmdOwner, hn, hbusy])

theorem frame_lotCmd_accepted (hn : numOk n = true) (hbusy : lotCmdBusy s.wgu = false) (r : LotReq) :
    frame true (some .scale) (lotCmdOwner n r) s = answered .accepted .none (s.onWgu fun w => { w with lotQ := w.lotQ ++ [r] }) :=
  frame_scale_changed h (by simp [lotCmdOwner, hn, hbusy]) fun w => by unfold readEnded; split <;> rfl

end

end

/-! ### The entry in hand -/

section
variable {s : State} {n src seq u : Nat} {lot : LotId} {ok sold : Bool} {l : Lot} {r : LotReq}

theorem endLotHand_none (h : s.wgu.lotHand = none) : endLotHand s = s := by
  unfold endLotHand State.onWgu
  rw [← h]

theorem answerLot_claim (hline : LineOpen s) (c : AnsCode) (d : AnsData) : answerLot (.claim src seq lot ok) c d s =
    endLotHand (queued (newMsg .answer src seq (.answer .claim (.lot lot) c d) .wgu 0) s) := by
  simp only [answerLot, answerMsg, placingOf_active hline.1 hline.2, placeMsg_active .lotHand hline.1 hline.2]
  rfl

theorem answerLot_report (hline : LineOpen s) (c : AnsCode) (d : AnsData) : answerLot (.report src seq lot ok sold) c d s =
    endLotHand (queued (newMsg .answer src seq (.answer .lotReport (.lot lot) c d) .wgu 0) s) := by
  simp only [answerLot, answerMsg, placingOf_active hline.1 hline.2, placeMsg_active .lotHand hline.1 hline.2]
  rfl

/-- An entry just taken from the queue is not yet in the hand: its answer alone changes the state. -/
theorem answerLot_claim_taken (hhand : s.wgu.lotHand = none) (hline : LineOpen s) (c : AnsCode) (d : AnsData) :
    answerLot (.claim src seq lot ok) c d s = queued (newMsg .answer src seq (.answer .claim (.lot lot) c d) .wgu 0) s :=
  (answerLot_claim hline c d).trans (endLotHand_none (s := queued _ s) hhand)

theorem answerLot_report_taken (hhand : s.wgu.lotHand = none) (hline : LineOpen s) (c : AnsCode) (d : AnsData) :
    answerLot (.report src seq lot ok sold) c d s = queued (newMsg .answer src seq (.answer .lotReport (.lot lot) c d) .wgu 0) s :=
  (answerLot_report hline c d).trans (endLotHand_none (s := queued _ s) hhand)

theorem commitLot_listed (hlist : ListOpen s) (r : LotReq) (n : Nat) (st : LotState) (u : Nat) :
    commitLot r n st u s = listed ⟨.lotHand, .group [.lotUpdate n st u]⟩ (holdLotHand r s) :=
  listOpen_placeGroup (s := holdLotHand r s) hlist (o := .lotHand) nofun _

theorem removeLotFor_listed (hlist : ListOpen s) (r : LotReq) (n : Nat) :
    removeLotFor r n s = listed ⟨.lotHand, .removal (.lot n)⟩ (holdLotHand r s) :=
  listOpen_placeRemoval (s := holdLotHand r s) hlist (o := .lotHand) nofun _

theorem endLotCmd_running (hrun : s.sys.phase = .running) (c : ScaleCmd) (code : PCode) : endLotCmd c code s =
    flagged .lotEvent { s with wgu := { s.wgu with lotHand := none, cmdResult := some (c, code) } } := raise_running _ .lotEvent hrun

theorem endLotCmd_taken (hrun : s.sys.phase = .running) (hhand : s.wgu.lotHand = none) (c : ScaleCmd) (code : PCode) :
    endLotCmd c code s = flagged .lotEvent { s with wgu := { s.wgu with cmdResult := some (c, code) } } :=
  (congrArg (raise .lotEvent) (endLotHand_none (s := s.onWgu fun w => { w with cmdResult := some (c, code) }) hhand)).trans
    (raise_running (s.onWgu fun w => { w with cmdResult := some (c, code) }) .lotEvent hrun)

/-! ### The entry at the front is taken (R133) -/

/-- The queue without its front. -/
def lotTaken (rest : List LotReq) (s : State) : State := s.onWgu fun w => { w with lotQ := rest }

section
variable {rest : List LotReq} {t : State} (hhand : s.wgu.lotHand = none) (hfront : s.wgu.lotQ = r :: rest)
include hhand hfront

theorem takeLotReq_front {f : LotReq → Option (State → State)} {g : State → State} (hf : f r = some g) :
    takeLotReq f s = g (lotTaken rest s) := by
  simp only [takeLotReq, hhand, hfront, hf]
  rfl

theorem exec_takeClaim (hr : r = .claim src seq lot ok) (ht : decideClaim src seq lot ok (lotTaken rest s) = t) :
    exec .lotQueueTakeClaim s = .next t :=
  congrArg _ ((takeLotReq_front (f := takeClaimReq) hhand hfront (congrArg takeClaimReq hr)).trans ht)

theorem exec_takeLotreport (hr : r = .report src seq lot ok sold) (ht : decideReport src seq lot ok sold (lotTaken rest s) = t) :
    exec .lotQueueTakeLotreport s = .next t :=
  congrArg _ ((takeLotReq_front (f := takeReportReq) hhand hfront (congrArg takeReportReq hr)).trans ht)

theorem exec_takeReleaseLot (hr : r = .releaseLot n) (ht : decideRelease n (lotTaken rest s) = t) :
    exec .lotQueueTakeReleaseLot s = .next t :=
  congrArg _ ((takeLotReq_front (f := takeReleaseReq) hhand hfront (congrArg takeReleaseReq hr)).trans ht)

theorem exec_takeReoffer (hr : r = .reoffer n) (ht : decideReoffer n (lotTaken rest s) = t) : exec .lotQueueTakeReoffer s = .next t :=
  congrArg _ ((takeLotReq_front (f := takeReofferReq) hhand hfront (congrArg takeReofferReq hr)).trans ht)

theorem exec_takeDelete (hr : r = .delete n) (ht : decideDelete n (lotTaken rest s) = t) : exec .lotQueueTakeDelete s = .next t :=
  congrArg _ ((takeLotReq_front (f := takeDeleteReq) hhand hfront (congrArg takeDeleteReq hr)).trans ht)

end

/-! ### A CLAIM or a LOTREPORT at the front (R134, R135) -/

theorem decideClaim_malformed : decideClaim src seq lot false s = answerLot (.claim src seq lot false) .malformed .none s := rfl

theorem decideClaim_otherScale (hscale : lot.scale ≠ s.node.number) :
    decideClaim src seq lot true s = answerLot (.claim src seq lot true) .unknown .none s := by
  simp [decideClaim, State.self, hscale]

theorem decideClaim_noLot (hfind : findLot s n = none) : decideClaim src seq ⟨s.node.number, n⟩ true s =
    answerLot (.claim src seq ⟨s.node.number, n⟩ true) .unknown .none s := by
  simp [decideClaim, State.self, hfind]

/-- One more claim answered TAKEN counted (R138). -/
def takenCounted (s : State) : State := s.onWgu fun w => { w with cnt := { w.cnt with claimsTaken := bump w.cnt.claimsTaken } }

theorem decideReport_malformed : decideReport src seq lot false sold s = answerLot (.report src seq lot false sold) .malformed .none s := rfl

theorem decideReport_otherScale (hscale : lot.scale ≠ s.node.number) :
    decideReport src seq lot true sold s = answerLot (.report src seq lot true sold) .unknown .none s := by
  simp [decideReport, State.self, hscale]

/-- One more stale report counted (R135). -/
def staleCounted (s : State) : State := s.onWgu fun w => { w with cnt := { w.cnt with staleReports := bump w.cnt.staleReports } }

theorem decideReport_noLot (hfind : findLot s n = none) : decideReport src seq ⟨s.node.number, n⟩ true sold s =
    answerLot (.report src seq ⟨s.node.number, n⟩ true sold) .done .none (staleCounted s) := by
  simp [decideReport, State.self, hfind, staleCounted]

section
variable (hfind : findLot s n = some l)
include hfind

theorem decideClaim_offered (hstate : l.state = .offered) : decideClaim src seq ⟨s.node.number, n⟩ true s =
    commitLot (.claim src seq ⟨s.node.number, n⟩ true) n (.claimed src) l.unsold s := by
  simp [decideClaim, State.self, hfind, hstate, (findLot_number hfind).2]

theorem decideClaim_granted (hstate : l.state = .claimed src) : decideClaim src seq ⟨s.node.number, n⟩ true s =
    answerLot (.claim src seq ⟨s.node.number, n⟩ true) .granted (.lot (describeLot s.node.number l)) s := by
  simp [decideClaim, State.self, hfind, hstate]

theorem decideClaim_taken {c : Nat} (hstate : l.state = .claimed c) (hother : c ≠ src) : decideClaim src seq ⟨s.node.number, n⟩ true s =
    answerLot (.claim src seq ⟨s.node.number, n⟩ true) .taken (.holder c)
      (takenCounted s) := by
  simp [decideClaim, State.self, hfind, hstate, hother, takenCounted]

theorem decideClaim_withdrawn (hstate : l.state = .withdrawn) : decideClaim src seq ⟨s.node.number, n⟩ true s =
    answerLot (.claim src seq ⟨s.node.number, n⟩ true) .unknown .none s := by
  simp [decideClaim, State.self, hfind, hstate]

theorem decideReport_sold (hstate : l.state = .claimed src) : decideReport src seq ⟨s.node.number, n⟩ true true s =
    removeLotFor (.report src seq ⟨s.node.number, n⟩ true true) n s := by
  simp [decideReport, State.self, hfind, hstate, (findLot_number hfind).2]

theorem decideReport_unsold (hstate : l.state = .claimed src) (hearly : l.unsold ≤ 1) : decideReport src seq ⟨s.node.number, n⟩ true false s =
    commitLot (.report src seq ⟨s.node.number, n⟩ true false) n .offered (l.unsold + 1) s := by
  simp [decideReport, State.self, hfind, hstate, (findLot_number hfind).2, hearly]

theorem decideReport_thirdUnsold (hstate : l.state = .claimed src) (hthird : 2 ≤ l.unsold) :
    decideReport src seq ⟨s.node.number, n⟩ true false s =
      commitLot (.report src seq ⟨s.node.number, n⟩ true false) n .withdrawn 3 s := by
  simp [decideReport, State.self, hfind, hstate, (findLot_number hfind).2, Nat.not_le.2 hthird]

theorem decideReport_stale (hstate : l.state ≠ .claimed src) : decideReport src seq ⟨s.node.number, n⟩ true sold s =
    answerLot (.report src seq ⟨s.node.number, n⟩ true sold) .done .none (staleCounted s) := by
  simp [decideReport, State.self, hfind, hstate, staleCounted]

/-! ### A lot command at the front (R136) -/

theorem decideRelease_claimed {c : Nat} (hstate : l.state = .claimed c) :
    decideRelease n s = commitLot (.releaseLot n) n .offered l.unsold s := by simp [decideRelease, hfind, hstate]

theorem decideRelease_notClaimed (hstate : ∀ c, l.state ≠ .claimed c) : decideRelease n s = endLotCmd (.releaseLot n) .notClaimed s := by
  cases hl : l.state with
  | claimed c => exact absurd hl (hstate c)
  | offered | withdrawn => simp only [decideRelease, hfind, hl]

theorem decideReoffer_withdrawn (hstate : l.state = .withdrawn) : decideReoffer n s = commitLot (.reoffer n) n .offered 0 s := by
  simp [decideReoffer, hfind, hstate]

theorem decideReoffer_notWithdrawn (hstate : l.state ≠ .withdrawn) : decideReoffer n s = endLotCmd (.reoffer n) .notWithdrawn s := by
  simp [decideReoffer, hfind, hstate]

theorem decideDelete_withdrawn (hstate : l.state = .withdrawn) : decideDelete n s = removeLotFor (.delete n) n s := by
  simp [decideDelete, hfind, hstate]

theorem decideDelete_notWithdrawn (hstate : l.state ≠ .withdrawn) : decideDelete n s = endLotCmd (.delete n) .notWithdrawn s := by
  simp [decideDelete, hfind, hstate]

end

section
variable (hfind : findLot s n = none)
include hfind

theorem decideRelease_noLot : decideRelease n s = endLotCmd (.releaseLot n) .noLot s := by simp only [decideRelease, hfind]
theorem decideReoffer_noLot : decideReoffer n s = endLotCmd (.reoffer n) .noLot s := by simp only [decideReoffer, hfind]
theorem decideDelete_noLot : decideDelete n s = endLotCmd (.delete n) .noLot s := by simp only [decideDelete, hfind]

end

/-! ### The commit of the entry in hand ends DONE (R131, R132, R134 to R136) -/

/-- The lot table has changed with a lot event, and the entry has left the hand. -/
def lotSettled (lots : List Lot) (n : Nat) (ev : LotEvent) (clock : Option Nat) (s : State) : State :=
  flagged .lotEvent { s with wgu := { s.wgu with lotHand := none, lots := lots, lotEvent := some ⟨n, ev, clock⟩ } }

theorem flagged_flagged (x : Flag) (s : State) : flagged x (flagged x s) = flagged x s := by
  simp [flagged, BitVec.or_assoc]

theorem ringDecided_same (hring : (!clockPresent s l.ring) = l.noRing) : ringDecided l s = s := if_pos hring

theorem ringDecided_changed (hring : (!clockPresent s l.ring) ≠ l.noRing) : ringDecided l s = flagged .lotEvent (s.onWgu fun w =>
    { w with lots := putLotIn { l with noRing := !clockPresent s l.ring } w.lots
             lotEvent := some ⟨l.number, if !clockPresent s l.ring then .noRing else .ringFound, none⟩ }) := if_neg hring

theorem flagged_ringDecided (l : Lot) (s : State) : flagged .lotEvent (ringDecided l s) = ringDecided l (flagged .lotEvent s) := by
  by_cases hring : (!clockPresent s l.ring) = l.noRing
  · rw [ringDecided_same hring, ringDecided_same (s := flagged .lotEvent s) hring]
  · rw [ringDecided_changed hring, ringDecided_changed (s := flagged .lotEvent s) hring]
    rfl

theorem endLotHand_ringDecided (l : Lot) (s : State) : endLotHand (ringDecided l s) = ringDecided l (endLotHand s) := by
  by_cases hring : (!clockPresent s l.ring) = l.noRing
  · rw [ringDecided_same hring, ringDecided_same (s := endLotHand s) hring]
  · rw [ringDecided_changed hring, ringDecided_changed (s := endLotHand s) hring]
    rfl

theorem flagged_lotOffered (l : Lot) (s : State) : flagged .lotEvent (lotOffered l s) = lotOffered l (flagged .lotEvent s) :=
  congrArg (queued _) (flagged_ringDecided _ _)

theorem endLotHand_lotOffered (l : Lot) (s : State) : endLotHand (lotOffered l s) = lotOffered l (endLotHand s) :=
  congrArg (queued _) (endLotHand_ringDecided _ _)

section
variable (hrun : s.sys.phase = .running)
include hrun

theorem lotEvent_running (n : Nat) (ev : LotEvent) (clock : Option Nat) :
    lotEvent n ev clock s = flagged .lotEvent (s.onWgu fun w => { w with lotEvent := some ⟨n, ev, clock⟩ }) :=
  raise_running (s.onWgu fun w => { w with lotEvent := some ⟨n, ev, clock⟩ }) .lotEvent hrun

theorem lotEvent_stillRunning (n : Nat) (ev : LotEvent) (clock : Option Nat) : (lotEvent n ev clock s).sys.phase = .running := by
  rw [lotEvent_running hrun]
  exact hrun

theorem endLotHand_lotEvent (lots : List Lot) (n : Nat) (ev : LotEvent) (clock : Option Nat) :
    endLotHand (lotEvent n ev clock (s.onWgu fun w => { w with lots := lots })) = lotSettled lots n ev clock s :=
  congrArg endLotHand (lotEvent_running (s := s.onWgu fun w => { w with lots := lots }) hrun n ev clock)

/-- A lot that leaves OFFERED or the table has its waiting notices withdrawn. -/
theorem endLotHand_lotEvent_withdrawn (m : Nat) (lots : List Lot) (n : Nat) (ev : LotEvent) (clock : Option Nat) :
    endLotHand (lotEvent n ev clock (withdrawNotices m (s.onWgu fun w => { w with lots := lots }))) =
      withdrawNotices m (lotSettled lots n ev clock s) :=
  congrArg endLotHand (lotEvent_running (s := withdrawNotices m (s.onWgu fun w => { w with lots := lots })) hrun n ev clock)

end

theorem lineOpen_withdrawNotices (hline : LineOpen s) (n : Nat) : LineOpen (withdrawNotices n s) := by
  have hroom : s.lif.queue.length + s.lif.wait.length < 24 := of_decide_eq_true hline.2
  exact ⟨hline.1, decide_eq_true ((Nat.add_le_add_left (List.length_filter_le ..) _).trans_lt hroom)⟩

theorem lotEvent_lif (n : Nat) (ev : LotEvent) (clock : Option Nat) (s : State) : (lotEvent n ev clock s).lif = s.lif := by
  unfold lotEvent raise
  split <;> rfl

theorem lineOpen_lotEvent (hline : LineOpen s) (n : Nat) (ev : LotEvent) (clock : Option Nat) : LineOpen (lotEvent n ev clock s) := by
  simpa only [LineOpen, sendRoom, lotEvent_lif] using hline

theorem lineOpen_left (hline : LineOpen s) (l : Lot) (n : Nat) (ev : LotEvent) (clock : Option Nat) :
    LineOpen (lotEvent n ev clock (withdrawNotices n (putLot l s))) :=
  lineOpen_lotEvent (lineOpen_withdrawNotices (s := putLot l s) hline n) n ev clock

/-- A lot that comes back to OFFERED (R135, R136). -/
def lotBack (l : Lot) (u : Nat) : Lot := { l with state := .offered, unsold := u }

/-- A lot that leaves OFFERED: NO RING is clear and its timer stopped (R132). -/
def lotLeft (l : Lot) (st : LotState) (u : Nat) : Lot := { l with state := st, unsold := u, noRing := false, offer := none }

section
variable (hfind : findLot s n = some l)
include hfind

theorem setLotState_offered (u : Nat) : setLotState n .offered u s = putLot (lotBack l u) s := by
  simp only [setLotState, hfind, if_true]
  rfl

theorem setLotState_left {st : LotState} (hst : st ≠ .offered) (u : Nat) :
    setLotState n st u s = withdrawNotices n (putLot (lotLeft l st u) s) := by
  simp only [setLotState, hfind, if_neg hst]
  rfl

theorem findLot_putLot {l' : Lot} (hnum : l'.number = l.number) : findLot (putLot l' s) n = some l' := by
  obtain ⟨⟨x, hx, hxnum⟩, hn⟩ := findLot_number hfind
  have hput := findLot_putLotIn (l := l') (ls := s.wgu.lots) (.inl ⟨x, hx, hxnum.trans hnum.symm⟩)
  rwa [hnum, hn] at hput

section
variable (hrun : s.sys.phase = .running)
include hrun

theorem findLot_lotEvent_back (u : Nat) (ev : LotEvent) (clock : Option Nat) :
    findLot (lotEvent n ev clock (putLot (lotBack l u) s)) n = some (lotBack l u) := by
  rw [lotEvent_running (s := putLot (lotBack l u) s) hrun]
  exact findLot_putLot (l' := lotBack l u) hfind rfl

section
variable (hline : LineOpen s)
include hline

/-- A lot that comes back to OFFERED is offered at once (R132). -/
theorem offerLot_back (u : Nat) (ev : LotEvent) (clock : Option Nat) :
    offerLot n (lotEvent n ev clock (setLotState n .offered u s)) =
      lotOffered (lotBack l u) (lotEvent n ev clock (putLot (lotBack l u) s)) := by
  rw [setLotState_offered hfind]
  exact offerLot_eq_lotOffered (findLot_lotEvent_back hfind hrun u ev clock) rfl
    (lotEvent_stillRunning (s := putLot (lotBack l u) s) hrun n ev clock)
    (lineOpen_lotEvent (s := putLot (lotBack l u) s) hline n ev clock)

theorem endLotHand_offerLot_back (u : Nat) (ev : LotEvent) (clock : Option Nat) :
    endLotHand (offerLot n (lotEvent n ev clock (setLotState n .offered u s))) =
      lotOffered (lotBack l u) (lotSettled (putLotIn (lotBack l u) s.wgu.lots) n ev clock s) := by
  rw [offerLot_back hfind hrun hline, endLotHand_lotOffered]
  exact congrArg (lotOffered _) (endLotHand_lotEvent hrun _ n ev clock)

/-- A lot command that brings a lot back: the lot event is flagged already by the change of the table. -/
theorem endLotCmd_offerLot_back (c : ScaleCmd) (u : Nat) (ev : LotEvent) (clock : Option Nat) :
    endLotCmd c .done (offerLot n (lotEvent n ev clock (setLotState n .offered u s))) =
      (lotOffered (lotBack l u) (lotSettled (putLotIn (lotBack l u) s.wgu.lots) n ev clock s)).onWgu
        fun w => { w with cmdResult := some (c, .done) } := by
  have hrunBack : (offerLot n (lotEvent n ev clock (setLotState n .offered u s))).sys.phase = .running := by
    rw [offerLot_back hfind hrun hline, lotOffered_sys]
    exact lotEvent_stillRunning (s := putLot (lotBack l u) s) hrun n ev clock
  have hflagged : flagged .lotEvent (endLotHand (offerLot n (lotEvent n ev clock (setLotState n .offered u s)))) =
      lotOffered (lotBack l u) (lotSettled (putLotIn (lotBack l u) s.wgu.lots) n ev clock s) := by
    rw [endLotHand_offerLot_back hfind hrun hline, flagged_lotOffered, lotSettled, flagged_flagged]
  rw [endLotCmd_running hrunBack, ← hflagged]
  rfl

end

end

end

theorem endLotCmd_removeLot (hrun : s.sys.phase = .running) (c : ScaleCmd) (ev : LotEvent) (clock : Option Nat) :
    endLotCmd c .done (lotEvent n ev clock (removeLot n s)) =
      (withdrawNotices n (lotSettled (s.wgu.lots.filter fun x => x.number != n) n ev clock s)).onWgu
        fun w => { w with cmdResult := some (c, .done) } := by
  have hremoved := endLotHand_lotEvent_withdrawn hrun n (s.wgu.lots.filter fun x => x.number != n) n ev clock
  have hflagged : flagged .lotEvent (endLotHand (lotEvent n ev clock (removeLot n s))) =
      withdrawNotices n (lotSettled (s.wgu.lots.filter fun x => x.number != n) n ev clock s) :=
    (congrArg (flagged .lotEvent) hremoved).trans (congrArg (withdrawNotices n) (flagged_flagged _ _))
  rw [endLotCmd_running (lotEvent_stillRunning (s := removeLot n s) hrun n ev clock), ← hflagged]
  rfl

/-! ### The store request of the entry in hand ends (R133 to R136) -/

section
variable (hhand : s.wgu.lotHand = some r)
include hhand

theorem lotHandEnded_done : lotHandEnded .done s = lotHandDone r s := by simp only [lotHandEnded, hhand]

theorem lotHandEnded_failed {res : StoreRes} (hres : res ≠ .done) : lotHandEnded res s = lotHandFailed r res.code s := by
  cases res with
  | done => exact absurd rfl hres
  | full => simp only [lotHandEnded, hhand]
  | fault => simp only [lotHandEnded, hhand]

end

theorem lotHandFailed_request (hr : isLotCmd r = false) (code : PCode) (s : State) : lotHandFailed r code s = endLotHand s := by
  cases r with
  | claim | report => rfl
  | releaseLot | reoffer | delete => cases hr

/-- One more granted claim counted (R138). -/
def grantCounted (s : State) : State := s.onWgu fun w => { w with cnt := { w.cnt with claimsGranted := bump w.cnt.claimsGranted } }

theorem lotHandDone_claim_found {t : State} {l' : Lot} (hfind : findLot s lot.number = some l)
    (ht : grantCounted (lotEvent lot.number .claimed (some src) (setLotState lot.number (.claimed src) l.unsold s)) = t)
    (hfound : findLot t lot.number = some l') :
    lotHandDone (.claim src seq lot ok) s = answerLot (.claim src seq lot ok) .granted (.lot (describeLot t.self l')) t := by
  subst ht
  simp only [grantCounted] at hfound ⊢
  simp only [lotHandDone, hfind, Option.map_some, Option.getD_some, hfound]

section
variable (hrun : s.sys.phase = .running)
include hrun

theorem lotHandDone_delete (n : Nat) : lotHandDone (.delete n) s =
    (withdrawNotices n (lotSettled (s.wgu.lots.filter fun x => x.number != n) n .deleted none s)).onWgu
      fun w => { w with cmdResult := some (.delete n, .done) } := endLotCmd_removeLot hrun (.delete n) .deleted none

section
variable (hline : LineOpen s)
include hline

theorem lotHandDone_sold : lotHandDone (.report src seq lot ok true) s =
    queued (newMsg .answer src seq (.answer .lotReport (.lot lot) .done .none) .wgu 0) (withdrawNotices lot.number
      (lotSettled (s.wgu.lots.filter fun x => x.number != lot.number) lot.number .sold (some src) s)) := by
  have hopen : LineOpen (lotEvent lot.number .sold (some src) (removeLot lot.number s)) :=
    lineOpen_lotEvent (lineOpen_withdrawNotices (s := s.onWgu _) hline _) _ _ _
  have hended := endLotHand_lotEvent_withdrawn hrun lot.number (s.wgu.lots.filter fun x => x.number != lot.number) lot.number .sold (some src)
  rw [lotHandDone, if_pos rfl, answerLot_report hopen, ← hended]
  rfl

section
variable (hfind : findLot s n = some l)
include hfind

theorem lotHandDone_releaseLot {c : Nat} (hstate : l.state = .claimed c) : lotHandDone (.releaseLot n) s =
    (lotOffered (lotBack l l.unsold) (lotSettled (putLotIn (lotBack l l.unsold) s.wgu.lots) n .released (some c) s)).onWgu
      fun w => { w with cmdResult := some (.releaseLot n, .done) } := by
  have hclaimant : lotClaimant s n = some c := by simp [lotClaimant, hfind, hstate]
  rw [lotHandDone, hclaimant, hfind]
  exact endLotCmd_offerLot_back hfind hrun hline _ _ _ _

theorem lotHandDone_reoffer : lotHandDone (.reoffer n) s =
    (lotOffered (lotBack l 0) (lotSettled (putLotIn (lotBack l 0) s.wgu.lots) n .reoffered none s)).onWgu
      fun w => { w with cmdResult := some (.reoffer n, .done) } := endLotCmd_offerLot_back hfind hrun hline _ _ _ _

end

section
variable (hfind : findLot s lot.number = some l)
include hfind

theorem lotHandDone_claim : lotHandDone (.claim src seq lot ok) s =
    queued (newMsg .answer src seq (.answer .claim (.lot lot) .granted (.lot (describeLot s.node.number l))) .wgu 0)
      (withdrawNotices lot.number (grantCounted
        (lotSettled (putLotIn (lotLeft l (.claimed src) l.unsold) s.wgu.lots) lot.number .claimed (some src) s))) := by
  set claimed := lotEvent lot.number .claimed (some src) (withdrawNotices lot.number (putLot (lotLeft l (.claimed src) l.unsold) s)) with hclaimed
  have hfound : findLot (grantCounted claimed) lot.number = some (lotLeft l (.claimed src) l.unsold) := by
    rw [hclaimed, lotEvent_running (s := withdrawNotices lot.number (putLot _ s)) hrun]
    exact findLot_putLot (l' := lotLeft l (.claimed src) l.unsold) hfind rfl
  have hopen : LineOpen (grantCounted claimed) := lineOpen_left hline _ _ _ _
  have hself : (grantCounted claimed).self = s.node.number := by
    rw [hclaimed, lotEvent_running (s := withdrawNotices lot.number (putLot _ s)) hrun]
    rfl
  have hended := endLotHand_lotEvent_withdrawn hrun lot.number (putLotIn (lotLeft l (.claimed src) l.unsold) s.wgu.lots) lot.number .claimed
    (some src)
  rw [lotHandDone_claim_found hfind (by rw [setLotState_left hfind (st := .claimed src) nofun]) hfound, hself, answerLot_claim hopen]
  exact congrArg (fun t => queued _ (grantCounted t)) hended

theorem lotHandDone_thirdUnsold (hthird : 2 ≤ l.unsold) : lotHandDone (.report src seq lot ok false) s =
    queued (newMsg .answer src seq (.answer .lotReport (.lot lot) .done .none) .wgu 0) (withdrawNotices lot.number
      (lotSettled (putLotIn (lotLeft l .withdrawn 3) s.wgu.lots) lot.number .withdrawn (some src) s)) := by
  have hended := endLotHand_lotEvent_withdrawn hrun lot.number (putLotIn (lotLeft l .withdrawn 3) s.wgu.lots) lot.number .withdrawn (some src)
  simp only [lotHandDone, hfind, Option.map_some, Option.getD_some, if_neg (Nat.not_le.2 hthird), Bool.false_eq_true, if_false]
  rw [setLotState_left hfind (st := .withdrawn) nofun, answerLot_report (lineOpen_left hline _ _ _ _), ← hended]
  rfl

theorem lotHandDone_unsold (hearly : l.unsold ≤ 1) (hroom : s.lif.queue.length + s.lif.wait.length < 23) :
    lotHandDone (.report src seq lot ok false) s =
      queued (newMsg .answer src seq (.answer .lotReport (.lot lot) .done .none) .wgu 0) (lotOffered (lotBack l (l.unsold + 1))
        (lotSettled (putLotIn (lotBack l (l.unsold + 1)) s.wgu.lots) lot.number .unsold (some src) s)) := by
  have hopen : LineOpen (offerLot lot.number (lotEvent lot.number .unsold (some src) (setLotState lot.number .offered (l.unsold + 1) s))) := by
    rw [offerLot_back hfind hrun hline]
    refine ⟨?_, ?_⟩
    · rw [lotOffered_state, lotEvent_lif]
      exact hline.1
    · rw [sendRoom, lotOffered_queue_length, lotOffered_wait, lotEvent_lif]
      exact decide_eq_true (by simp only [putLot, State.onWgu]; omega)
  have hended := endLotHand_offerLot_back hfind hrun hline (l.unsold + 1) .unsold (some src)
  simp only [lotHandDone, hfind, Option.map_some, Option.getD_some, if_pos hearly, Bool.false_eq_true, if_false]
  rw [answerLot_report hopen, ← hended]
  rfl

end

end

end

end

/-- Settles O52: what each entry decides when it is taken from the queue, and what the end of its store request does with it. -/
theorem lotRequests : Obligations.LotRequests := by
  intro s
  refine ⟨fun n h hn hbusy => ?_, fun n h => ?_, fun r rest hhand hfront hrun => ?_, fun r hhand hrun => ?_⟩
  · intro entered
    exact ⟨congrArg _ (frame_lotCmd_accepted h hn hbusy _), congrArg _ (frame_lotCmd_accepted h hn hbusy _),
      congrArg _ (frame_lotCmd_accepted h hn hbusy _)⟩
  · intro refused
    have hall {c : PCode} (hc : ∀ r, frame true (some .scale) (lotCmdOwner n r) s = answered c .none s) : refused c := by
      intro cmd hcmd
      simp only [List.mem_cons, List.not_mem_nil, or_false] at hcmd
      obtain rfl | rfl | rfl := hcmd <;> exact congrArg _ (hc _)
    exact ⟨fun hn => hall (frame_lotCmd_badValue h (numOk_eq_false hn)),
      fun hlow hhigh hbusy => hall (frame_lotCmd_busy h (numOk_eq_true hlow hhigh) ((lotCmdBusy_iff s.wgu).2 hbusy))⟩
  · intro held ended commits failed reply
    have hnone : ended.wgu.lotHand = none := hhand
    have hclaim {src seq lot ok t} := exec_takeClaim (src := src) (seq := seq) (lot := lot) (ok := ok) (t := t) hhand hfront
    have hreport {src seq lot ok sold t} :=
      exec_takeLotreport (src := src) (seq := seq) (lot := lot) (ok := ok) (sold := sold) (t := t) hhand hfront
    have hcommit (hlist : ListOpen s) (n st u) : commitLot r n st u ended = commits (.group [.lotUpdate n st u]) :=
      commitLot_listed (s := ended) hlist r n st u
    have hremove (hlist : ListOpen s) (n) : removeLotFor r n ended = commits (.removal (.lot n)) :=
      removeLotFor_listed (s := ended) hlist r n
    have hfails (c code) : endLotCmd c code ended = failed c code := endLotCmd_taken (s := ended) hrun hnone c code
    refine ⟨fun src seq lot hscale hline => ⟨fun hr => ?_, fun sold hr => ?_⟩, fun src seq lot hline => ⟨fun hr => ?_, fun sold hr => ?_⟩,
      fun src seq n hr => ⟨fun (hfind : findLot ended n = none) hline => ?_, fun l (hfind : findLot ended n = some l) =>
        ⟨fun hstate hlist => ?_, fun hstate hline => ?_, fun c hstate hother hline => ?_, fun hstate hline => ?_⟩⟩,
      fun src seq n sold hr (hfind : findLot ended n = none) hline => ?_,
      fun src seq n sold l hr (hfind : findLot ended n = some l) =>
        ⟨fun hstate hlist => ⟨fun hsold => ?_, fun hsold hearly => ?_, fun hsold hthird => ?_⟩, fun hstate hline => ?_⟩,
      fun n hr => ⟨fun (hfind : findLot ended n = none) => ?_, fun l (hfind : findLot ended n = some l) =>
        ⟨fun c hstate hlist => ?_, fun hstate => ?_⟩⟩,
      fun n (hfind : findLot ended n = none) => ⟨fun hr => ?_, fun hr => ?_⟩,
      fun n l (hfind : findLot ended n = some l) => ⟨fun hr => ⟨fun hstate hlist => ?_, fun hstate => ?_⟩,
        fun hr => ⟨fun hstate hlist => ?_, fun hstate => ?_⟩⟩⟩
    · exact hclaim hr ((decideClaim_otherScale (s := ended) hscale).trans (answerLot_claim_taken hnone hline _ _))
    · exact hreport hr ((decideReport_otherScale (s := ended) hscale).trans (answerLot_report_taken hnone hline _ _))
    · exact hclaim hr (decideClaim_malformed.trans (answerLot_claim_taken hnone hline _ _))
    · exact hreport hr (decideReport_malformed.trans (answerLot_report_taken hnone hline _ _))
    · exact hclaim hr ((decideClaim_noLot hfind).trans (answerLot_claim_taken hnone hline _ _))
    · exact hclaim hr ((decideClaim_offered hfind hstate).trans (hr ▸ hcommit hlist _ _ _))
    · exact hclaim hr ((decideClaim_granted hfind hstate).trans (answerLot_claim_taken hnone hline _ _))
    · exact hclaim hr ((decideClaim_taken hfind hstate hother).trans (answerLot_claim_taken (s := takenCounted ended) hnone hline _ _))
    · exact hclaim hr ((decideClaim_withdrawn hfind hstate).trans (answerLot_claim_taken hnone hline _ _))
    · exact hreport hr ((decideReport_noLot hfind).trans (answerLot_report_taken (s := staleCounted ended) hnone hline _ _))
    · subst hsold
      exact hreport hr ((decideReport_sold hfind hstate).trans (hr ▸ hremove hlist _))
    · subst hsold
      exact hreport hr ((decideReport_unsold hfind hstate hearly).trans (hr ▸ hcommit hlist _ _ _))
    · subst hsold
      exact hreport hr ((decideReport_thirdUnsold hfind hstate hthird).trans (hr ▸ hcommit hlist _ _ _))
    · exact hreport hr ((decideReport_stale hfind hstate).trans (answerLot_report_taken (s := staleCounted ended) hnone hline _ _))
    · exact exec_takeReleaseLot hhand hfront hr ((decideRelease_noLot hfind).trans (hfails _ _))
    · exact exec_takeReleaseLot hhand hfront hr ((decideRelease_claimed hfind hstate).trans (hr ▸ hcommit hlist _ _ _))
    · exact exec_takeReleaseLot hhand hfront hr ((decideRelease_notClaimed hfind hstate).trans (hfails _ _))
    · exact exec_takeReoffer hhand hfront hr ((decideReoffer_noLot hfind).trans (hfails _ _))
    · exact exec_takeDelete hhand hfront hr ((decideDelete_noLot hfind).trans (hfails _ _))
    · exact exec_takeReoffer hhand hfront hr ((decideReoffer_withdrawn hfind hstate).trans (hr ▸ hcommit hlist _ _ _))
    · exact exec_takeReoffer hhand hfront hr ((decideReoffer_notWithdrawn hfind hstate).trans (hfails _ _))
    · exact exec_takeDelete hhand hfront hr ((decideDelete_withdrawn hfind hstate).trans (hr ▸ hremove hlist _))
    · exact exec_takeDelete hhand hfront hr ((decideDelete_notWithdrawn hfind hstate).trans (hfails _ _))
  · intro done reply result without
    have hended {t : State} (ht : lotHandDone r s = t) : storeOutcome .lotHand .done s = t := (lotHandEnded_done hhand).trans ht
    refine ⟨fun src seq lot ok l hr hfind hline => ?_, fun src seq lot ok sold l hr hfind hline => ⟨?_, ?_, ?_⟩, fun n l hfind =>
      ⟨?_, fun hline => ⟨fun c => ?_, ?_⟩⟩, fun res hres => ⟨fun hline => ?_, ?_⟩⟩
    · subst hr
      exact hended (lotHandDone_claim hrun hline hfind)
    · rintro rfl
      subst hr
      exact hended (lotHandDone_sold hrun hline)
    · rintro rfl hthird
      subst hr
      exact hended (lotHandDone_thirdUnsold hrun hline hfind hthird)
    · rintro rfl hearly hroom
      subst hr
      exact hended (lotHandDone_unsold hrun hline hfind hearly hroom)
    · rintro rfl
      exact hended (lotHandDone_delete hrun n)
    · rintro rfl hstate
      exact hended (lotHandDone_releaseLot hrun hline hfind hstate)
    · rintro rfl
      exact hended (lotHandDone_reoffer hrun hline hfind)
    · exact (lotHandEnded_failed hhand hres).trans (lotHandFailed_request hline _ s)
    · intro failed n
      have hfailed := lotHandEnded_failed hhand hres
      refine ⟨?_, ?_, ?_⟩ <;> rintro rfl <;> exact hfailed.trans (endLotCmd_running hrun _ _)

end Sys2Proof.Machine
end

section
/-! The scan of the desk inputs: the press set, the desks judged in turn, and the stop that is accepted (O56). -/

namespace Sys2Proof.Machine
open Sys2Proof

section
variable {s t u : State} {d x price : Nat} {ds : List Nat} {bits : BitVec 32} {lot : LotDesc}

/-! ### The press set, and the order in which it is judged (R154, R156) -/

theorem mem_pressSet {released : List Nat} : d ∈ pressSet bits released ↔
    1 ≤ d ∧ d ≤ 32 ∧ bits.getLsbD (d - 1) = true ∧ 21 ≤ released.getD (d - 1) 0 := by
  have hrange : d < 1 + 32 ↔ d ≤ 32 := by omega
  simp only [pressSet, isPressed, List.mem_filter, List.mem_range'_1, Bool.and_eq_true, decide_eq_true_eq, hrange, and_assoc]

theorem mem_rotateFrom {last : Nat} : d ∈ rotateFrom last ds ↔ d ∈ ds := by
  simp only [rotateFrom, List.mem_append, List.mem_filter, decide_eq_true_eq, ← and_or_left]
  exact and_iff_left (Nat.lt_or_ge last d)

theorem nodup_rotateFrom_pressSet (last : Nat) (released : List Nat) : (rotateFrom last (pressSet bits released)).Nodup := by
  have hset : (pressSet bits released).Nodup := List.Nodup.filter _ List.nodup_range'
  refine List.nodup_append.2 ⟨hset.filter _, hset.filter _, ?_⟩
  simp only [List.mem_filter, decide_eq_true_eq]
  omega

/-! ### The desks (R149) -/

theorem deskAt_setDesk_self {y : Desk} (hlow : 1 ≤ d) (hhigh : d ≤ s.clu.desks.length) : deskAt (setDesk d y s) d = y := by
  have hd : d - 1 < s.clu.desks.length := by omega
  simp [deskAt, setDesk, hd]

theorem deskAt_setDesk_other (y : Desk) (hd : 1 ≤ d) (hx : 1 ≤ x) (hne : x ≠ d) : deskAt (setDesk d y s) x = deskAt s x := by
  have hplace : d - 1 ≠ x - 1 := by omega
  simp [deskAt, setDesk, List.getD, hplace]

/-! ### Stops that are refused (R156) -/

/-- R156: the stop of one desk is refused: a desk that is IN is SUSPENDED. -/
def stopRefused (d : Nat) (s : State) : State :=
  let count (s : State) : State := s.onClu fun c => { c with cnt := { c.cnt with refusedStops := bump c.cnt.refusedStops } }
  if (deskAt s d).state = .inn then
    raise .deskEvent (count (setDesk d { deskAt s d with state := .suspended, last := .suspended } s))
  else count s

/-- R156: a desk's allowance does not cover the charge, or the charge is over the range. -/
def Uncovered (s : State) (lot : LotDesc) (price d : Nat) : Prop :=
  (deskAt s d).allowance < chargeOf s lot price ∨ overRange (chargeOf s lot price) = true

theorem judgeDesks_refused (hunc : (deskAt s d).state = .inn → Uncovered s lot price d) :
    judgeDesks lot price (d :: ds) s = judgeDesks lot price ds (stopRefused d s) := by
  by_cases hinn : (deskAt s d).state = .inn
  · have hnot : ¬(chargeOf s lot price ≤ (deskAt s d).allowance ∧ overRange (chargeOf s lot price) = false) := by
      rintro ⟨hle, hover⟩
      obtain h | h := hunc hinn
      · omega
      · simp [h] at hover
    simp only [judgeDesks, stopRefused, hinn, if_true, hnot, if_false]
  · simp only [judgeDesks, stopRefused, hinn, if_false]

theorem judgeDesks_covered (hinn : (deskAt s d).state = .inn) (hcovers : chargeOf s lot price ≤ (deskAt s d).allowance)
    (hover : overRange (chargeOf s lot price) = false) :
    judgeDesks lot price (d :: ds) s = countLate ds.length (acceptStop lot price d s) := by
  simp only [judgeDesks, hinn, if_true, hcovers, hover, and_self]

/-- R156: what stands after the stops of some desks have been refused, one after another. -/
structure StopsRefused (ds : List Nat) (s t : State) : Prop where
  frame : t = { s with
    sys := { s.sys with lateFlags := t.sys.lateFlags }
    port := { s.port with flags := t.port.flags }
    clu := { s.clu with desks := t.clu.desks, cnt := { s.clu.cnt with refusedStops := t.clu.cnt.refusedStops } } }
  length : t.clu.desks.length = s.clu.desks.length
  suspended : ∀ x ∈ ds, (deskAt s x).state = .inn → deskAt t x = { deskAt s x with state := .suspended, last := .suspended }
  others : ∀ x, 1 ≤ x → x ∉ ds ∨ (deskAt s x).state ≠ .inn → deskAt t x = deskAt s x
  counted : s.clu.cnt.refusedStops + ds.length ≤ 65535 → t.clu.cnt.refusedStops = s.clu.cnt.refusedStops + ds.length

theorem stopsRefused_nil (s : State) : StopsRefused [] s s := ⟨rfl, rfl, nofun, fun _ _ _ => rfl, fun _ => rfl⟩

theorem stopRefused_spec (hlow : 1 ≤ d) (hhigh : d ≤ s.clu.desks.length) : StopsRefused [d] s (stopRefused d s) := by
  have hcount (h : s.clu.cnt.refusedStops + 1 ≤ 65535) : bump s.clu.cnt.refusedStops = s.clu.cnt.refusedStops + 1 :=
    bump_of_lt (by omega)
  by_cases hinn : (deskAt s d).state = .inn
  · have heq : stopRefused d s = raise .deskEvent ((setDesk d { deskAt s d with state := .suspended, last := .suspended } s).onClu
        fun c => { c with cnt := { c.cnt with refusedStops := bump c.cnt.refusedStops } }) := if_pos hinn
    have hdesk (x : Nat) : deskAt (stopRefused d s) x = deskAt (setDesk d { deskAt s d with state := .suspended, last := .suspended } s) x := by
      simp [heq, deskAt]
    refine ⟨?_, by simp [heq, setDesk], fun x hx _ => ?_, fun x hx hor => ?_, fun h => by simpa [heq, setDesk] using hcount h⟩
    · rw [heq]
      unfold raise
      split <;> rfl
    · obtain rfl := List.mem_singleton.1 hx
      rw [hdesk, deskAt_setDesk_self hlow hhigh]
    · rw [hdesk, deskAt_setDesk_other _ hlow hx]
      rintro rfl
      simp [hinn] at hor
  · have heq : stopRefused d s = s.onClu fun c => { c with cnt := { c.cnt with refusedStops := bump c.cnt.refusedStops } } := if_neg hinn
    rw [heq]
    refine ⟨rfl, rfl, fun x hx hx' => ?_, fun _ _ _ => rfl, hcount⟩
    obtain rfl := List.mem_singleton.1 hx
    exact absurd hx' hinn

theorem StopsRefused.cons (hd : StopsRefused [d] s t) (hds : StopsRefused ds t u) (hlow : 1 ≤ d) (hrest : ∀ x ∈ ds, 1 ≤ x) (hnew : d ∉ ds) :
    StopsRefused (d :: ds) s u := by
  have hother {x : Nat} (hx : 1 ≤ x) (hne : x ≠ d) : deskAt t x = deskAt s x := hd.others x hx (.inl (by simpa using hne))
  refine ⟨?_, hds.length.trans hd.length, fun x hx hinn => ?_, fun x hx hor => ?_, fun h => ?_⟩
  · have hframe := hds.frame
    rw [hd.frame] at hframe
    exact hframe
  · obtain rfl | hx := List.mem_cons.1 hx
    · exact (hds.others x hlow (.inl hnew)).trans (hd.suspended x (List.mem_singleton_self x) hinn)
    · have heq := hother (hrest x hx) (fun h => hnew (h ▸ hx))
      rw [hds.suspended x hx (heq ▸ hinn), heq]
  · have heq : deskAt t x = deskAt s x := hd.others x hx (hor.imp_left fun h hx' => h (List.mem_cons.2 (.inl (List.mem_singleton.1 hx'))))
    exact (hds.others x hx (hor.imp (fun h hx' => h (List.mem_cons_of_mem d hx')) (heq ▸ ·))).trans heq
  · rw [List.length_cons] at h ⊢
    have hone := hd.counted (by simp only [List.length_singleton]; omega)
    rw [List.length_singleton] at hone
    rw [hds.counted (by omega), hone]
    omega

theorem StopsRefused.blocks_kept (h : StopsRefused ds s t) : t.store = s.store ∧ t.book = s.book ∧ t.exc = s.exc := by
  rw [h.frame]
  exact ⟨rfl, rfl, rfl⟩

/-- R156: the refused stops leave the clock running as it was. -/
theorem StopsRefused.clock_kept (h : StopsRefused ds s t) : t.clu.state = s.clu.state ∧ t.clu.price = s.clu.price ∧
    t.clu.settling = s.clu.settling ∧ t.clu.lastWin = s.clu.lastWin ∧ t.clu.tickT = s.clu.tickT := by
  rw [h.frame]
  exact ⟨rfl, rfl, rfl, rfl, rfl⟩

theorem StopsRefused.presses_kept (h : StopsRefused ds s t) :
    t.clu.cnt.latePresses = s.clu.cnt.latePresses ∧ t.clu.cnt.presses = s.clu.cnt.presses := by
  rw [h.frame]
  exact ⟨rfl, rfl⟩

theorem StopsRefused.chargeOf_eq (h : StopsRefused ds s t) : chargeOf t lot price = chargeOf s lot price := by rw [h.frame]; rfl

/-- R156: desks that are not covered are refused in turn, and judging goes on. -/
theorem judgeDesks_uncovered (rest : List Nat) (hrange : ∀ x ∈ ds, 1 ≤ x ∧ x ≤ s.clu.desks.length) (hn : ds.Nodup)
    (hunc : ∀ x ∈ ds, (deskAt s x).state = .inn → Uncovered s lot price x) :
    ∃ t, judgeDesks lot price (ds ++ rest) s = judgeDesks lot price rest t ∧ StopsRefused ds s t := by
  induction ds generalizing s with
  | nil => exact ⟨s, rfl, stopsRefused_nil s⟩
  | cons d ds ih =>
    obtain ⟨hnew, hn⟩ := List.nodup_cons.1 hn
    obtain ⟨⟨hlow, hhigh⟩, hrange⟩ := List.forall_mem_cons.1 hrange
    obtain ⟨hfirst, hunc⟩ := List.forall_mem_cons.1 hunc
    have hstep := stopRefused_spec hlow hhigh
    have hsame {x : Nat} (hx : x ∈ ds) : deskAt (stopRefused d s) x = deskAt s x :=
      hstep.others x (hrange x hx).1 (.inl (by simpa using fun h : x = d => hnew (h ▸ hx)))
    obtain ⟨t, hjudge, ht⟩ := ih (s := stopRefused d s) (fun x hx => hstep.length ▸ hrange x hx) hn fun x hx hinn => by
      rw [Uncovered, hsame hx, hstep.chargeOf_eq]
      exact hunc x hx (hsame hx ▸ hinn)
    exact ⟨t, (judgeDesks_refused hfirst).trans hjudge, hstep.cons ht hlow (fun x hx => (hrange x hx).1) hnew⟩

/-! ### The stop that is accepted (R157 to R159) -/

theorem ListOpen.of_store (h : ListOpen s) (hstore : t.store = s.store) : ListOpen t := by
  rw [ListOpen, listRoom, hstore]
  exact h

theorem placeSaleLog_listed (hlist : ListOpen s) (r : SaleRec) :
    placeSaleLog r s = listed ⟨.saleLog, .group [.saleCreate r, .node (.nextSale (nextNumber r.number))]⟩ s :=
  placeGroup_room hlist.1 hlist.2 nofun

theorem acceptStop_clu (lot : LotDesc) (price d : Nat) (s : State) : (acceptStop lot price d s).clu = { s.clu with
    desks := s.clu.desks.set (d - 1) { deskAt s d with
      allowance := (deskAt s d).allowance - chargeOf s lot price, purchases := bump (deskAt s d).purchases, last := .won }
    lastWin := d, tickT := none, settling := some { sale := saleRecord s lot price d }, state := .settling
    lotEvent := some (.state .settling, (headLot s).map (·.id)), cnt := { s.clu.cnt with sales := bump s.clu.cnt.sales } } := by
  simp only [acceptStop, placeSaleLog, placeGroup_clu, setClock, cluLotEvent, headLot, raise_clu, onClu_clu, setDesk]
  rfl

theorem deskAt_acceptStop (lot : LotDesc) (price d x : Nat) (s : State) : deskAt (acceptStop lot price d s) x = deskAt (setDesk d { deskAt s d with
    allowance := (deskAt s d).allowance - chargeOf s lot price, purchases := bump (deskAt s d).purchases, last := .won } s) x := by
  rw [deskAt, acceptStop_clu]
  rfl

/-- What the accepted stop changes outside the clock before its commit is placed are flags alone. -/
theorem acceptStop_placed (lot : LotDesc) (price d : Nat) (s : State) : ∃ t,
    acceptStop lot price d s = placeSaleLog (saleRecord s lot price d) t ∧ t.store = s.store ∧ t.book = s.book ∧ t.exc = s.exc :=
  ⟨_, rfl, by simp [setClock, cluLotEvent, setDesk], by simp [setClock, cluLotEvent, setDesk], by simp [setClock, cluLotEvent, setDesk]⟩

theorem acceptStop_frame (hlist : ListOpen s) :
    (acceptStop lot price d s).store = (listed ⟨.saleLog, .group [.saleCreate (saleRecord s lot price d),
      .node (.nextSale (nextNumber (saleRecord s lot price d).number))]⟩ s).store ∧
    (acceptStop lot price d s).book = s.book ∧ (acceptStop lot price d s).exc = s.exc := by
  obtain ⟨t, heq, hstore, hbook, hexc⟩ := acceptStop_placed lot price d s
  rw [heq, placeSaleLog_listed (hlist.of_store hstore)]
  exact ⟨by simp [listed, hstore], hbook, hexc⟩

theorem StopsRefused.saleRecord_eq (h : StopsRefused ds s t) (hdesk : deskAt t d = deskAt s d) :
    saleRecord t lot price d = saleRecord s lot price d := by
  unfold saleRecord
  rw [hdesk, h.frame]

/-- R156 to R159: what stands once the stop of desk `d` has won, after the refused stops of `pre` and with `late` presses left. -/
structure StopWon (lot : LotDesc) (price : Nat) (pre : List Nat) (d late : Nat) (s t : State) : Prop where
  clock : t.clu.lastWin = d ∧ t.clu.state = .settling ∧ t.clu.price = s.clu.price
  settling : t.clu.settling = some { sale := saleRecord s lot price d }
  winner : deskAt t d = { deskAt s d with
    allowance := (deskAt s d).allowance - chargeOf s lot price, purchases := bump (deskAt s d).purchases, last := .won }
  suspended : ∀ x ∈ pre, (deskAt s x).state = .inn → deskAt t x = { deskAt s x with state := .suspended, last := .suspended }
  others : ∀ x, x ≠ d → 1 ≤ x → x ∉ pre ∨ (deskAt s x).state ≠ .inn → deskAt t x = deskAt s x
  counted : s.clu.cnt.refusedStops + pre.length ≤ 65535 → t.clu.cnt.refusedStops = s.clu.cnt.refusedStops + pre.length
  presses : t.clu.cnt.latePresses = bumpBy late s.clu.cnt.latePresses ∧ t.clu.cnt.presses = s.clu.cnt.presses
  placed : t.store = { s.store with list := s.store.list ++ [⟨.saleLog, .group [.saleCreate (saleRecord s lot price d),
    .node (.nextSale (nextNumber (saleRecord s lot price d).number))]⟩] }
  frame : t.book = s.book ∧ t.exc = s.exc

theorem deskAt_countLate (n x : Nat) (s : State) : deskAt (countLate n s) x = deskAt s x := rfl

theorem StopsRefused.stopWon {pre : List Nat} (h : StopsRefused pre s t) (hlist : ListOpen s) (hpre : ∀ x ∈ pre, 1 ≤ x) (hnew : d ∉ pre)
    (hlow : 1 ≤ d) (hhigh : d ≤ s.clu.desks.length) (late : Nat) :
    StopWon lot price pre d late s (countLate late (acceptStop lot price d t)) := by
  have hdesk : deskAt t d = deskAt s d := h.others d hlow (.inl hnew)
  have hwin := acceptStop_clu lot price d t
  have hwon {x : Nat} (hx : 1 ≤ x) (hne : x ≠ d) : deskAt (acceptStop lot price d t) x = deskAt t x :=
    (deskAt_acceptStop lot price d x t).trans (deskAt_setDesk_other _ hlow hx hne)
  obtain ⟨hstore, hbook, hexc⟩ := h.blocks_kept
  obtain ⟨-, hprice, -, -, -⟩ := h.clock_kept
  obtain ⟨hlate, hpresses⟩ := h.presses_kept
  obtain ⟨hplaced, hbook', hexc'⟩ := acceptStop_frame (lot := lot) (price := price) (d := d) (hlist.of_store hstore)
  constructor
  case clock => simp [countLate, hwin, hprice]
  case settling => simp [countLate, hwin, h.saleRecord_eq hdesk]
  case winner => rw [deskAt_countLate, deskAt_acceptStop, deskAt_setDesk_self hlow (h.length ▸ hhigh), hdesk, h.chargeOf_eq]
  case suspended =>
    intro x hx hinn
    rw [deskAt_countLate, hwon (hpre x hx) fun heq => hnew (heq ▸ hx), h.suspended x hx hinn]
  case others =>
    intro x hne hx hor
    rw [deskAt_countLate, hwon hx hne, h.others x hx hor]
  case counted => simpa [countLate, hwin] using h.counted
  case presses => simp [countLate, hwin, hlate, hpresses]
  case placed => simpa [countLate, listed, hstore, h.saleRecord_eq hdesk] using hplaced
  case frame => simp [countLate, hbook', hbook, hexc', hexc]

/-- R156: the first desk of the order that is IN and covered wins, whatever comes after it. -/
theorem judgeDesks_won {pre post : List Nat} (hlist : ListOpen s) (hrange : ∀ x ∈ pre ++ d :: post, 1 ≤ x ∧ x ≤ s.clu.desks.length)
    (hn : (pre ++ d :: post).Nodup) (hpre : ∀ x ∈ pre, (deskAt s x).state = .inn → (deskAt s x).allowance < chargeOf s lot price)
    (hinn : (deskAt s d).state = .inn) (hcovers : chargeOf s lot price ≤ (deskAt s d).allowance)
    (hover : overRange (chargeOf s lot price) = false) :
    StopWon lot price pre d post.length s (judgeDesks lot price (pre ++ d :: post) s) := by
  obtain ⟨hpreN, -, hdisj⟩ := List.nodup_append.1 hn
  have hnew : d ∉ pre := fun h => hdisj d h d List.mem_cons_self rfl
  have hrange' (x : Nat) (hx : x ∈ pre) : 1 ≤ x ∧ x ≤ s.clu.desks.length := hrange x (List.mem_append_left _ hx)
  obtain ⟨hlow, hhigh⟩ := hrange d (List.mem_append_right _ List.mem_cons_self)
  obtain ⟨t, hjudge, ht⟩ := judgeDesks_uncovered (d :: post) hrange' hpreN fun x hx hin => .inl (hpre x hx hin)
  have hdesk : deskAt t d = deskAt s d := ht.others d hlow (.inl hnew)
  rw [hjudge, judgeDesks_covered (hdesk ▸ hinn) (by rw [hdesk, ht.chargeOf_eq]; exact hcovers) (by rw [ht.chargeOf_eq]; exact hover)]
  exact ht.stopWon hlist (fun x hx => (hrange' x hx).1) hnew hlow hhigh post.length

/-! ### A scan (R154) -/

/-- R154: a scan notes the releases and counts the presses. -/
def scanNoted (bits : BitVec 32) (s : State) : State := s.onClu fun c => { c with
  released := scanReleased bits c.released
  cnt := { c.cnt with presses := bumpBy (pressSet bits s.clu.released).length c.cnt.presses } }

theorem deskAt_scanNoted (bits : BitVec 32) (s : State) (x : Nat) : deskAt (scanNoted bits s) x = deskAt s x := rfl

theorem chargeOf_scanNoted (bits : BitVec 32) (s : State) (lot : LotDesc) (price : Nat) :
    chargeOf (scanNoted bits s) lot price = chargeOf s lot price := rfl

theorem saleRecord_scanNoted (bits : BitVec 32) (s : State) (lot : LotDesc) (price d : Nat) :
    saleRecord (scanNoted bits s) lot price d = saleRecord s lot price d := rfl

section
variable (hrole : s.port.role = some .clock)
include hrole

theorem exec_deskScan (bits : BitVec 32) : exec (.deskScan bits) s = .next (scanDesks bits s) :=
  congrArg Host.Outcome.next (if_pos (by simp [State.inService, hrole]))

theorem exec_deskScan_running (hstate : s.clu.state = .running) (hhead : headLot s = some lot) (hprice : s.clu.price = some price) :
    exec (.deskScan bits) s = .next (judgeDesks lot price (rotateFrom s.clu.lastWin (pressSet bits s.clu.released)) (scanNoted bits s)) := by
  have hhead' : headLot (scanNoted bits s) = some lot := hhead
  rw [exec_deskScan hrole]
  simp only [scanNoted] at hhead'
  simp only [scanDesks, scanNoted, onClu_clu, hstate, hhead', hprice]

theorem exec_deskScan_settling (hstate : s.clu.state = .settling) :
    exec (.deskScan bits) s = .next (countLate (pressSet bits s.clu.released).length (scanNoted bits s)) := by
  rw [exec_deskScan hrole]
  simp only [scanDesks, scanNoted, onClu_clu, hstate]

/-- R155: the presses of a scan while no desk is judged and no sale is settling. -/
def scanIdle (bits : BitVec 32) (s : State) : State := (scanNoted bits s).onClu fun c => { c with
  cnt := { c.cnt with idlePresses := bumpBy (pressSet bits s.clu.released).length c.cnt.idlePresses } }

theorem exec_deskScan_idle (hidle : s.clu.state ≠ .running ∨ headLot s = none ∨ s.clu.price = none) (hother : s.clu.state ≠ .settling) :
    exec (.deskScan bits) s = .next (scanIdle bits s) := by
  have hhead : headLot (scanNoted bits s) = headLot s := rfl
  rw [exec_deskScan hrole]
  refine congrArg Host.Outcome.next ?_
  change (match s.clu.state, headLot (scanNoted bits s), s.clu.price with
    | .running, some lot, some price => judgeDesks lot price (rotateFrom s.clu.lastWin (pressSet bits s.clu.released)) (scanNoted bits s)
    | .settling, _, _ => countLate (pressSet bits s.clu.released).length (scanNoted bits s)
    | _, _, _ => scanIdle bits s) = _
  split
  · next hstate hlot hprice => simp_all
  · next hstate => exact absurd hstate hother
  · rfl

/-- R154: a scan without a press notes the releases alone. -/
theorem exec_deskScan_noPress (hnone : pressSet bits s.clu.released = []) (hother : s.clu.state ≠ .settling)
    (hpresses : s.clu.cnt.presses ≤ 65535) (hidle : s.clu.cnt.idlePresses ≤ 65535) :
    exec (.deskScan bits) s = .next (s.onClu fun c => { c with released := scanReleased bits c.released }) := by
  have hnoted : scanNoted bits s = s.onClu fun c => { c with released := scanReleased bits c.released } := by
    simp [scanNoted, hnone, bumpBy, hpresses, State.onClu]
  have hsame : scanIdle bits s = scanNoted bits s := by simp [scanIdle, scanNoted, hnone, bumpBy, hidle, State.onClu]
  by_cases hjudged : s.clu.state = .running ∧ ∃ lot price, headLot s = some lot ∧ s.clu.price = some price
  · obtain ⟨hstate, lot, price, hhead, hprice⟩ := hjudged
    rw [exec_deskScan_running hrole hstate hhead hprice, hnone, hnoted]
    rfl
  · rw [exec_deskScan_idle hrole ?_ hother, hsame, hnoted]
    by_contra hnot
    simp only [ne_eq, not_or, not_not, ← Option.isSome_iff_ne_none, Option.isSome_iff_exists] at hnot
    obtain ⟨hstate, ⟨lot, hhead⟩, price, hprice⟩ := hnot
    exact hjudged ⟨hstate, lot, price, hhead, hprice⟩

end

end

/-- Settles O56: the desks before the winner are refused one by one and the rest of the presses come late; without a winner all are refused. -/
theorem firstPressWins : Obligations.FirstPressWins := by
  intro s bits hrole
  have hrange (hlen : s.clu.desks.length = 32) (x : Nat) (hx : x ∈ rotateFrom s.clu.lastWin (pressSet bits s.clu.released)) :
      1 ≤ x ∧ x ≤ (scanNoted bits s).clu.desks.length := by
    obtain ⟨hlow, hhigh, -⟩ := mem_pressSet.1 (mem_rotateFrom.1 hx)
    exact ⟨hlow, hhigh.trans hlen.ge⟩
  have hnodup := nodup_rotateFrom_pressSet (bits := bits) s.clu.lastWin s.clu.released
  refine ⟨fun _ => mem_pressSet, exec_deskScan_noPress hrole, ⟨exec_deskScan_settling hrole, fun hstate => ?_⟩, ?_, ?_⟩
  · exact exec_deskScan_idle hrole (.inl fun h => by simp [h] at hstate) fun h => by simp [h] at hstate
  · intro lot price pre d post hstate hhead hprice horder hlen hpre hinn hcovers hover hlist
    have hexec := exec_deskScan_running (bits := bits) hrole hstate hhead hprice
    have hwon := judgeDesks_won (s := scanNoted bits s) hlist (horder ▸ hrange hlen) (horder ▸ hnodup) hpre hinn hcovers hover
    rw [← horder] at hwon
    obtain ⟨⟨hlast, hstate', hprice'⟩, hsettling, hwinner, hsuspended, hothers, hcounted, ⟨hlate, hpresses⟩, hplaced, hbook, hexc⟩ := hwon
    simp only [deskAt_scanNoted, chargeOf_scanNoted, saleRecord_scanNoted] at hsettling hwinner hsuspended hothers hplaced
    exact ⟨_, hexec, hlast, hstate', hprice'.trans hprice, hsettling, hwinner, hsuspended, hothers, hcounted, hplaced, hlate, hpresses, hbook,
      hexc⟩
  · intro lot price hstate hhead hprice hlen hnone
    have hexec := exec_deskScan_running (bits := bits) hrole hstate hhead hprice
    obtain ⟨t, hjudge, ht⟩ := judgeDesks_uncovered (s := scanNoted bits s) (lot := lot) (price := price) [] (hrange hlen) hnodup
      fun x hx hinn => hnone x (mem_rotateFrom.1 hx) hinn
    rw [List.append_nil] at hjudge
    obtain ⟨hstore, -, hexc⟩ := ht.blocks_kept
    obtain ⟨hstate', hprice', hsettling, hlast, htick⟩ := ht.clock_kept
    have hsuspended := ht.suspended
    have hothers := ht.others
    simp only [deskAt_scanNoted, mem_rotateFrom] at hsuspended hothers
    exact ⟨t, hexec.trans (congrArg Host.Outcome.next hjudge), hstate'.trans hstate, hprice'.trans hprice, hsettling, hlast, htick, hstore, hexc,
      hsuspended, hothers⟩

end Sys2Proof.Machine
end

section
/-! The clock's commands and its tick: SHOW LOT, START, HALT, RESUME, WITHDRAW, and the lot that ends unsold (O54). -/

namespace Sys2Proof.Machine
open Sys2Proof

section
variable {s : State} {q d : Nat} {qs : List Nat} {i : NewEntry} {ref : Ref}

/-! ### A request of one entry with a destination (R89, R91) -/

theorem takeCreate_addressed (hplain : takesNumber i.body = false) (hkind : i.body.kind ≠ .locate) (hdest : i.dest = some d)
    (hplace : PlaceOpen q qs s) : takeCreate ⟨ref, [i]⟩ s = (entryMade q qs i s, .created [q] none) := by
  have hqueued : (makeEntry q i).state ≠ .unresolved := by simp [makeEntry, hkind, hdest]
  rw [takeCreate_plain hplain (.inl (by simp [hdest])) hplace, standEntries_plain hplain hplace.1, if_neg hqueued]

theorem takeCreate_report {sold : Bool} {r : Ref} {lot : LotId} (hplace : PlaceOpen q qs s) : takeCreate ⟨ref, [reportItem lot sold r]⟩ s =
    (entryMade q qs (reportItem lot sold r) s, .created [q] none) :=
  takeCreate_addressed rfl (by simp [reportItem, ReqBody.kind]) rfl hplace

theorem entryMade_carryAnswer (q : Nat) (qs : List Nat) (i : NewEntry) (s : State) :
    entryMade q qs i (carryAnswer s) = carryAnswer (entryMade q qs i s) := by
  rw [carryAnswer_eq, carryAnswer_eq]
  rfl

theorem listed_carryAnswer (r : Request) (s : State) : listed r (carryAnswer s) = carryAnswer (listed r s) := by
  rw [carryAnswer_eq, carryAnswer_eq]
  rfl

/-! ### Events and states of the clock (R142, R143, R165) -/

theorem headLot_eq (s : State) : headLot s = s.clu.queue.find? fun d => s.clu.cleaning.all fun x => x.lot != d.id := by
  simp only [headLot, headOf, isCleaned, List.not_any_eq_all_not]
  rfl

theorem onClu_carryAnswer (f : Clu → Clu) (s : State) : (carryAnswer s).onClu f = carryAnswer (s.onClu f) := by
  rw [carryAnswer_eq, carryAnswer_eq]
  rfl

@[simp] theorem carryAnswer_clu (s : State) : (carryAnswer s).clu = s.clu := by rw [carryAnswer_eq]
@[simp] theorem carryAnswer_exc (s : State) : (carryAnswer s).exc = s.exc := by rw [carryAnswer_eq]

theorem headLot_carryAnswer (s : State) : headLot (carryAnswer s) = headLot s := by rw [headLot, carryAnswer_clu]; rfl

/-- R143: the clock is in a state, and the event names the head lot. -/
def clockEntered (st : ClockState) (lot : Option LotId) (s : State) : State :=
  flagged .lotEvent { s with clu := { s.clu with state := st, lotEvent := some (.state st, lot) } }

section
variable (hrun : s.sys.phase = .running)
include hrun

theorem cluLotEvent_running (e : ClockEvent) (lot : Option LotId) :
    cluLotEvent e lot s = flagged .lotEvent { s with clu := { s.clu with lotEvent := some (e, lot) } } := raise_running _ _ hrun

theorem setClock_running {lot : LotDesc} (hhead : headLot s = some lot) (st : ClockState) : setClock st s = clockEntered st (some lot.id) s := by
  rw [setClock, hhead]
  exact cluLotEvent_running (s := s.onClu _) hrun _ _

end

theorem clockEntered_carryAnswer (st : ClockState) (lot : Option LotId) (s : State) :
    clockEntered st lot (carryAnswer s) = carryAnswer (clockEntered st lot s) := by
  rw [carryAnswer_eq, carryAnswer_eq]
  rfl

/-! ### The end of a lot (R147, R148) -/

/-- R148: the update of the QUEUE record without the head lot stands on the request list. -/
theorem placeLotEnd_listed {lot : LotDesc} (hhead : headLot s = some lot) (hlist : ListOpen s) :
    placeLotEnd s = listed ⟨.lotEnd lot.id, .group [.queue (.drop lot.id)]⟩ s := by
  rw [placeLotEnd, hhead]
  exact listOpen_placeGroup hlist (o := .lotEnd lot.id) nofun _

/-- R147: the head lot ends unsold: the clock is in NO_SALE, the report is asked for, and the QUEUE record without the lot is committed. -/
def lotUnsold (q : Nat) (qs : List Nat) (lot : LotDesc) (s : State) : State :=
  listed ⟨.lotEnd lot.id, .group [.queue (.drop lot.id)]⟩ (entryMade q qs (reportItem lot.id false (.unsold lot.id))
    (clockEntered .noSale (some lot.id) (s.onClu fun c => { c with tickT := none })))

theorem askUnsold_placed {lot : LotDesc} (hhead : headLot s = some lot) (hplace : PlaceOpen q qs s) (hlist : ListOpen s) :
    askUnsold lot.id s = listed ⟨.lotEnd lot.id, .group [.queue (.drop lot.id)]⟩
      (entryMade q qs (reportItem lot.id false (.unsold lot.id)) s) := by
  simp only [askUnsold, takeCreate_report hplace]
  exact placeLotEnd_listed (s := entryMade _ _ _ _) hhead hlist

theorem enterNoSale_unsold {lot : LotDesc} (hrun : s.sys.phase = .running) (hhead : headLot s = some lot) (hplace : PlaceOpen q qs s)
    (hlist : ListOpen s) : enterNoSale s = lotUnsold q qs lot s := by
  have hentered := setClock_running (s := s.onClu fun c => { c with tickT := none }) hrun hhead .noSale
  have hhead' : headLot (clockEntered .noSale (some lot.id) (s.onClu fun c => { c with tickT := none })) = some lot := hhead
  simp only [enterNoSale, hentered, hhead']
  exact askUnsold_placed hhead' hplace hlist

theorem lotUnsold_carryAnswer (q : Nat) (qs : List Nat) (lot : LotDesc) (s : State) :
    lotUnsold q qs lot (carryAnswer s) = carryAnswer (lotUnsold q qs lot s) := by
  simp only [lotUnsold, onClu_carryAnswer, clockEntered_carryAnswer, entryMade_carryAnswer, listed_carryAnswer]

/-! ### The commands (R143 to R147) -/

theorem readFigures_iff {p f st : Field} {tick : Nat} {figs : Figures} : readFigures p f st tick = some figs ↔
    readPrice p = some figs.start ∧ readPrice f = some figs.floor ∧ inRange 1 9999 (readPrice st) = some figs.step ∧ figs.tick = tick ∧
      figs.floor ≤ figs.start ∧ 20 ≤ tick ∧ tick ≤ 2000 := by
  unfold readFigures
  split
  · next p' f' st' hp hf hst =>
    rw [Option.ite_none_right_eq_some, Option.some.injEq, hp, hf, hst]
    constructor
    · rintro ⟨⟨hfloor, hlow, hhigh⟩, rfl⟩
      exact ⟨rfl, rfl, rfl, rfl, hfloor, hlow, hhigh⟩
    · rintro ⟨hp', hf', hst', htick, hfloor, hlow, hhigh⟩
      cases figs
      simp_all
  · next hnone =>
    refine iff_of_false nofun ?_
    rintro ⟨hp, hf, hst, -⟩
    exact hnone _ _ _ hp hf hst

section
variable (h : TakenBy .clock s) {owner : State → State × Reply} {c : PCode}
include h

theorem frame_clock_refused (ho : owner (carryAnswer s) = refuse c (carryAnswer s)) :
    frame true (some .clock) owner s = answered c .none s :=
  frame_refused h.1 (.inr h.2.symm) ho

theorem frame_clock {t : State} {x : PData} (ho : owner (carryAnswer s) = (carryAnswer t, ⟨c, x⟩)) :
    frame true (some .clock) owner s = answered c x t :=
  frame_effect h.1 _ (.inr h.2.symm) owner c x ho

end

/-! ### The clock's owners (R143 to R147) -/

section
variable {lot : LotDesc} {figs : Figures}

theorem clockRefusal_free {st : ClockState} (h : ¬(st = .noSale ∨ st = .settling)) (c : PCode) : clockRefusal st c = c := by
  cases st <;> simp_all [clockRefusal]

theorem clockRefusal_busy {st : ClockState} (h : st = .noSale ∨ st = .settling) (c : PCode) : clockRefusal st c = .busy := by
  obtain rfl | rfl := h <;> rfl

/-- R143: a command that the clock's state does not allow. -/
theorem frame_clock_notAllowed {owner : State → State × Reply} {c : PCode} (h : TakenBy .clock s)
    (ho : owner (carryAnswer s) = refuse (clockRefusal (carryAnswer s).clu.state c) (carryAnswer s)) :
    frame true (some .clock) owner s = answered (clockRefusal s.clu.state c) .none s :=
  frame_clock_refused h (carryAnswer_clu s ▸ ho)

theorem showOwner_notAllowed (h : s.clu.state ≠ .idle) : showOwner s = refuse (clockRefusal s.clu.state .notIdle) s := if_pos h
theorem haltOwner_notAllowed (h : s.clu.state ≠ .running) : haltOwner s = refuse (clockRefusal s.clu.state .notRunning) s := if_pos h
theorem resumeOwner_notAllowed (h : s.clu.state ≠ .halted) : resumeOwner s = refuse (clockRefusal s.clu.state .notHalted) s := if_pos h

theorem withdrawOwner_notAllowed (h : ¬(s.clu.state = .presented ∨ s.clu.state = .halted)) :
    withdrawOwner s = refuse (clockRefusal s.clu.state .notPresented) s := if_neg h

theorem startOwner_notAllowed (h : s.clu.state ≠ .presented) :
    startOwner (some figs) s = refuse (clockRefusal s.clu.state .notPresented) s := if_pos h

theorem showOwner_empty (hstate : s.clu.state = .idle) (hhead : headLot s = none) : showOwner s = refuse .queueEmpty s := by
  simp [showOwner, hstate, hhead]

theorem showOwner_shown (hrun : s.sys.phase = .running) (hstate : s.clu.state = .idle) (hhead : headLot s = some lot) :
    showOwner s = (clockEntered .presented (some lot.id) s, ⟨.done, .lotDesc lot⟩) := by
  simp [showOwner, hstate, hhead, setClock_running hrun hhead]

theorem startRefusal_notConfigured (h : s.port.cfg.levy = none ∨ s.port.cfg.crates = none) : startRefusal s = some .notConfigured := by
  obtain h | h := h <;> simp [startRefusal, h]

section
variable (hlevy : s.port.cfg.levy.isSome = true) (hcrates : s.port.cfg.crates.isSome = true)
include hlevy hcrates

theorem startRefusal_notActive (hactive : s.lif.state ≠ .active) : startRefusal s = some .notActive := by
  simp [startRefusal, Option.isSome_iff_ne_none.1 hlevy, Option.isSome_iff_ne_none.1 hcrates, State.lineActive, hactive]

theorem startRefusal_logFull (hactive : s.lif.state = .active) (hfull : 32 ≤ s.clu.sales.length) : startRefusal s = some .logFull := by
  simp [startRefusal, Option.isSome_iff_ne_none.1 hlevy, Option.isSome_iff_ne_none.1 hcrates, State.lineActive, hactive, hfull]

theorem startRefusal_none (hactive : s.lif.state = .active) (hroom : s.clu.sales.length < 32) : startRefusal s = none := by
  simp [startRefusal, Option.isSome_iff_ne_none.1 hlevy, Option.isSome_iff_ne_none.1 hcrates, State.lineActive, hactive, hroom]

end

theorem startRefusal_carryAnswer (s : State) : startRefusal (carryAnswer s) = startRefusal s := by rw [carryAnswer_eq]; rfl

theorem startOwner_refused {c : PCode} (hstate : s.clu.state = .presented) (hc : startRefusal s = some c) :
    startOwner (some figs) s = refuse c s := by
  simp [startOwner, hstate, hc]

theorem frame_start_refused {f : Option Figures} {c : PCode} (h : TakenBy .clock s) (hf : f = some figs) (hstate : s.clu.state = .presented)
    (hc : startRefusal s = some c) : frame true (some .clock) (startOwner f) s = answered c .none s := by
  subst hf
  exact frame_clock_refused h (startOwner_refused (carryAnswer_clu s ▸ hstate) ((startRefusal_carryAnswer s).trans hc))

/-- R145: the clock runs from the start price. -/
theorem startOwner_started (hrun : s.sys.phase = .running) (hhead : headLot s = some lot) (hstate : s.clu.state = .presented)
    (hc : startRefusal s = none) : startOwner (some figs) s = finish .done (clockEntered .running (some lot.id)
      (s.onClu fun c => { c with figs := some figs, price := some figs.start, tickT := some 0 })) := by
  have hrunning := setClock_running (s := s.onClu fun c => { c with figs := some figs, price := some figs.start, tickT := some 0 })
    hrun hhead .running
  simp only [startOwner, hstate, ne_eq, not_true, if_false, hc, beginRunning, hrunning]

theorem haltOwner_halted (hrun : s.sys.phase = .running) (hhead : headLot s = some lot) (hstate : s.clu.state = .running) :
    haltOwner s = finish .done (clockEntered .halted (some lot.id) (s.onClu fun c => { c with tickT := none })) := by
  have hhalted := setClock_running (s := s.onClu fun c => { c with tickT := none }) hrun hhead .halted
  simp only [haltOwner, hstate, ne_eq, not_true, if_false, hhalted]

theorem resumeOwner_resumed (hrun : s.sys.phase = .running) (hhead : headLot s = some lot) (hstate : s.clu.state = .halted) :
    resumeOwner s = finish .done (clockEntered .running (some lot.id) (s.onClu fun c => { c with tickT := some 0 })) := by
  have hresumed := setClock_running (s := s.onClu fun c => { c with tickT := some 0 }) hrun hhead .running
  simp only [resumeOwner, hstate, ne_eq, not_true, if_false, hresumed]

/-- R147: a lot in PRESENTED or HALTED is withdrawn. -/
theorem withdrawOwner_withdrawn (hrun : s.sys.phase = .running) (hhead : headLot s = some lot)
    (hstate : s.clu.state = .presented ∨ s.clu.state = .halted) (hplace : PlaceOpen q qs s) (hlist : ListOpen s) :
    withdrawOwner s = finish .done (lotUnsold q qs lot (s.onClu fun c => { c with
      cnt := { c.cnt with withdrawals := bump c.cnt.withdrawals } })) := by
  have hunsold := enterNoSale_unsold (s := s.onClu fun c => { c with cnt := { c.cnt with withdrawals := bump c.cnt.withdrawals } })
    hrun hhead hplace hlist
  simp only [withdrawOwner, hstate, if_true, hunsold]

end

/-! ### The tick (R146) -/

section
variable {f : Figures} {p t : Nat} (hstate : s.clu.state = .running) (hfigs : s.clu.figs = some f) (hprice : s.clu.price = some p)
  (htick : s.clu.tickT = some t)
include hstate hfigs hprice htick

theorem clockTicks_early (hearly : t < f.tick) : clockTicks s = s := by
  simp only [clockTicks, hstate, hfigs, hprice, htick, hearly, if_true]

theorem clockTicks_lowers (hdue : f.tick ≤ t) (habove : f.floor + f.step ≤ p) : clockTicks s = s.onClu fun c => { c with
    price := some (p - f.step), tickT := some 0, cnt := { c.cnt with ticks := bump c.cnt.ticks } } := by
  simp only [clockTicks, hstate, hfigs, hprice, htick, Nat.not_lt.2 hdue, habove, if_true, if_false]

theorem clockTicks_atFloor (hdue : f.tick ≤ t) (hfloor : p < f.floor + f.step) : clockTicks s = enterNoSale (s.onClu fun c => { c with
    cnt := { c.cnt with noSales := bump c.cnt.noSales } }) := by
  simp only [clockTicks, hstate, hfigs, hprice, htick, Nat.not_lt.2 hdue, Nat.not_le.2 hfloor, if_false]

end

end

/-- Settles O54: each command's refusals in their order, what it does to the clock otherwise, and the tick by the price that is left. -/
theorem clockRuns : Obligations.ClockRuns := by
  refine ⟨fun s => ⟨headLot_eq s, fun _ _ _ _ _ => readFigures_iff, fun h => ?_⟩, fun s d hhead => ⟨fun h => ?_, ?_⟩⟩
  · intro refused busy
    have hclu := carryAnswer_clu s
    have hrefused {i : Instr} {owner : State → State × Reply} {own c : PCode} (hexec : exec i s = .next (frame true (some .clock) owner s))
        (ho : owner (carryAnswer s) = refuse (clockRefusal (carryAnswer s).clu.state own) (carryAnswer s))
        (hc : clockRefusal s.clu.state own = c) : refused i c :=
      hexec.trans (congrArg Host.Outcome.next (hc ▸ frame_clock_notAllowed h ho))
    have hshow (hstate : s.clu.state ≠ .idle) := showOwner_notAllowed (s := carryAnswer s) (hclu ▸ hstate)
    have hhalt (hstate : s.clu.state ≠ .running) := haltOwner_notAllowed (s := carryAnswer s) (hclu ▸ hstate)
    have hresume (hstate : s.clu.state ≠ .halted) := resumeOwner_notAllowed (s := carryAnswer s) (hclu ▸ hstate)
    have hwithdraw (hstate : ¬(s.clu.state = .presented ∨ s.clu.state = .halted)) :=
      withdrawOwner_notAllowed (s := carryAnswer s) (hclu ▸ hstate)
    have hbusy {st : ClockState} (hb : busy) (hst : st ≠ .noSale ∧ st ≠ .settling) : s.clu.state ≠ st := by
      rintro rfl
      exact hb.elim hst.1 hst.2
    refine ⟨fun hstate hnone => ?_, fun hstate hfree => hrefused rfl (hshow hstate) (clockRefusal_free hfree _),
      fun hstate hfree => hrefused rfl (hhalt hstate) (clockRefusal_free hfree _),
      fun hstate hfree => hrefused rfl (hresume hstate) (clockRefusal_free hfree _), fun hstate => ?_, fun hb => ?_,
      fun p f st tick => ⟨?_, ?_⟩⟩
    · exact congrArg Host.Outcome.next (frame_clock_refused h (showOwner_empty (hclu ▸ hstate) ((headLot_carryAnswer s).trans hnone)))
    · refine hrefused rfl (hwithdraw ?_) (clockRefusal_free ?_ _) <;> obtain hstate | hstate := hstate <;> simp [hstate]
    · exact ⟨hrefused rfl (hshow (hbusy hb (by decide))) (clockRefusal_busy hb _),
        hrefused rfl (hhalt (hbusy hb (by decide))) (clockRefusal_busy hb _),
        hrefused rfl (hresume (hbusy hb (by decide))) (clockRefusal_busy hb _),
        hrefused rfl (hwithdraw (not_or.2 ⟨hbusy hb (by decide), hbusy hb (by decide)⟩)) (clockRefusal_busy hb _)⟩
    · intro hnone
      exact congrArg Host.Outcome.next (hnone ▸ frame_clock_refused h (owner := startOwner none) rfl)
    · intro hsome
      obtain ⟨figs, hfigs⟩ := Option.isSome_iff_exists.1 hsome
      have hstart (hstate : s.clu.state ≠ .presented) : startOwner (readFigures p f st tick) (carryAnswer s) =
          refuse (clockRefusal (carryAnswer s).clu.state .notPresented) (carryAnswer s) := by
        rw [hfigs]
        exact startOwner_notAllowed (hclu ▸ hstate)
      have hchecked {c : PCode} (hstate : s.clu.state = .presented) (hc : startRefusal s = some c) : refused (.start true p f st tick) c :=
        congrArg Host.Outcome.next (frame_start_refused h hfigs hstate hc)
      exact ⟨fun hstate hfree => hrefused rfl (hstart hstate) (clockRefusal_free hfree _),
        fun hb => hrefused rfl (hstart (hbusy hb (by decide))) (clockRefusal_busy hb _),
        fun hstate => ⟨fun hnone => hchecked hstate (startRefusal_notConfigured hnone), fun hlevy hcrates =>
          ⟨fun hline => hchecked hstate (startRefusal_notActive hlevy hcrates hline),
            fun hline hfull => hchecked hstate (startRefusal_logFull hlevy hcrates hline hfull)⟩⟩⟩
  · have hclu := carryAnswer_clu s
    have hrun : (carryAnswer s).sys.phase = .running := (congrArg Sys.phase (carryAnswer_sys s)).trans h.1.1
    have hhead' : headLot (carryAnswer s) = some d := (headLot_carryAnswer s).trans hhead
    refine ⟨fun hstate => ?_, fun p f st tick figs hfigs hstate hlevy hcrates hline hroom => ?_, fun hstate => ?_, fun hstate => ?_,
      fun q qs hstate hplace hroom => ?_⟩ <;> refine congrArg Host.Outcome.next (frame_clock h ?_)
    · rw [showOwner_shown hrun (hclu ▸ hstate) hhead', clockEntered_carryAnswer]
      rfl
    · rw [hfigs, startOwner_started hrun hhead' (hclu ▸ hstate)
        ((startRefusal_carryAnswer s).trans (startRefusal_none hlevy hcrates hline hroom)), onClu_carryAnswer, clockEntered_carryAnswer]
      rfl
    · rw [haltOwner_halted hrun hhead' (hclu ▸ hstate), onClu_carryAnswer, clockEntered_carryAnswer]
      rfl
    · rw [resumeOwner_resumed hrun hhead' (hclu ▸ hstate), onClu_carryAnswer, clockEntered_carryAnswer]
      rfl
    · have hplace' : PlaceOpen q qs (carryAnswer s) := by rwa [PlaceOpen, carryAnswer_exc]
      have hlist : ListOpen s := ⟨h.1.2, hroom⟩
      rw [withdrawOwner_withdrawn hrun hhead' (hclu ▸ hstate) hplace' (hlist.of_store (carryAnswer_store s)), onClu_carryAnswer,
        lotUnsold_carryAnswer]
      rfl
  · intro f p t hstate hfigs hprice htick
    refine ⟨fun hearly => congrArg Host.Outcome.next (clockTicks_early hstate hfigs hprice htick hearly),
      fun hdue habove => congrArg Host.Outcome.next (clockTicks_lowers hstate hfigs hprice htick hdue habove),
      fun q qs hdue hfloor hplace hlist hrun => congrArg Host.Outcome.next ((clockTicks_atFloor hstate hfigs hprice htick hdue hfloor).trans ?_)⟩
    exact enterNoSale_unsold (s := s.onClu _) hrun hhead hplace hlist

end Sys2Proof.Machine
end

section
/-! The desks of the clock: DESK IN, DESK OUT, and the outcome of a desk's hold (O55). -/

namespace Sys2Proof.Machine
open Sys2Proof

section
variable {s : State} {n q b amt : Nat} {qs : List Nat} {k : Ident}

/-! ### A HOLD without a destination, for an account that is OPEN here (R91, R92, R103) -/

/-- The request of a desk's hold (R150). -/
def deskHoldItem (n b amt : Nat) (k : Ident) : NewEntry := ⟨.hold k amt true 14400, .deskHold n, some b, none, false⟩

/-- Its entry once the account's home has been found. -/
def deskHoldEntry (q n b amt : Nat) (k : Ident) (home : Nat) : Entry :=
  { makeEntry q (deskHoldItem n b amt k) with state := .queued, dest := some home }

/-- The entry stands in the table, and the next hold number is taken. -/
def deskHoldMade (q : Nat) (qs : List Nat) (n b amt : Nat) (s : State) : State :=
  putEntry (deskHoldEntry q n b amt ⟨s.node.number, s.sys.epoch, s.exc.holdNo⟩ s.node.number)
    (entryMade q qs (deskHoldItem n b amt ⟨s.node.number, s.sys.epoch, s.exc.holdNo⟩) (s.onExc fun x => { x with holdNo := x.holdNo + 1 }))

theorem resolveWith_found {e : Entry} {a home : Nat} (start : Entry → State → State) (hfind : findEntry s q = some e)
    (hkind : e.body.kind ≠ .locate) (hstate : e.state = .unresolved) (hsearch : e.search = none) (hacct : e.account = some a)
    (hlook : lookFor s e a = .node home false false) :
    resolveWith start q s = (putEntry { e with state := .queued, dest := some home, fromMap := false, search := none } s, none) := by
  simp [resolveWith, hfind, opens, hsearch, hkind, hstate, hacct, hlook]

section
variable {acc : Account} (hacc : accountOf s b = some acc) (hopened : acc.state = .opened)
include hacc hopened

theorem standEntries_deskHold (hfree : s.exc.free = q :: qs) :
    standEntries (deskHoldReq n b amt) [] s = (deskHoldMade q qs n b amt s, none) := by
  have hplaces : nextPlaces (deskHoldReq n b amt) s = [q] := by simp [nextPlaces, deskHoldReq, hfree]
  have hunresolved (k : Ident) : ((makeEntry q (deskHoldItem n b amt k)).state == .unresolved) = true := rfl
  have hseq (k : Ident) : (makeEntry q (deskHoldItem n b amt k)).seq = q := rfl
  have hbodies (k : Ident) : fillBodies k (deskHoldReq n b amt).items [] = [deskHoldItem n b amt k] := rfl
  have hmade (i : NewEntry) : (refreshReady (s.onExc fun x => { x with
      entries := putEntryIn (makeEntry q i) x.entries, free := x.free.drop (deskHoldReq n b amt).items.length
      holdNo := if (deskHoldReq n b amt).hasHold then x.holdNo + 1 else x.holdNo })) =
      entryMade q qs i (s.onExc fun x => { x with holdNo := x.holdNo + 1 }) := by
    simp only [State.onExc, hfree]
    rfl
  have hfound (i : NewEntry) (hbody : i.body.kind = .hold) (hdest : i.dest = none) (hacct : i.account = some b) :=
    resolveWith_found (fun e => beginSearch e []) (s := entryMade q qs i (s.onExc fun x => { x with holdNo := x.holdNo + 1 }))
      (findEntry_entryMade q qs i _) (by simp [makeEntry, hbody]) (by simp [makeEntry, hdest]) rfl hacct
      (lookFor_here (s := entryMade q qs i _) hacc (.inl hopened))
  simp only [standEntries, hplaces, hbodies, List.zipWith_cons_cons, List.zipWith_nil_left, List.foldl_cons, List.foldl_nil, hmade,
    List.filter_cons, hunresolved, List.filter_nil, if_true, hseq, resolveEntry, hfound (deskHoldItem n b amt _) rfl rfl rfl]
  rfl

theorem takeCreate_deskHold (hplace : PlaceOpen q qs s) (hepoch : s.sys.epochState = .inUse) (hadvance : needsAdvance s true 0 = false) :
    takeCreate (deskHoldReq n b amt) s = (deskHoldMade q qs n b amt s, .created [q] none) := by
  obtain ⟨hfree, hopen⟩ := hplace
  have hplaces : nextPlaces (deskHoldReq n b amt) s = [q] := by simp [nextPlaces, deskHoldReq, hfree]
  have hlen : (deskHoldReq n b amt).items.length = 1 := rfl
  have hroom : ¬ openPlaces s.exc < 1 := by omega
  have hbad : (deskHoldReq n b amt).badDest = false := rfl
  have hposts : (deskHoldReq n b amt).posts = [] := rfl
  simp [takeCreate, hlen, hroom, hepoch, hbad, hposts, hadvance, standEntries_deskHold hacc hopened hfree, hplaces]

end

theorem findEntry_deskHoldMade : findEntry (deskHoldMade q qs n b amt s) q =
    some (deskHoldEntry q n b amt ⟨s.node.number, s.sys.epoch, s.exc.holdNo⟩ s.node.number) :=
  findEntry_putEntry (e' := deskHoldEntry q n b amt _ _) (findEntry_entryMade q qs _ _)

/-! ### DESK IN (R150) -/

section
variable {f g : Field} (hdesk : 1 ≤ n ∧ n ≤ 32) (hbuyer : readBuyer f = some b) (hamount : readHoldAmount g = some amt)
include hdesk hbuyer hamount

theorem readDeskIn_ok : readDeskIn n f g = some (b, amt) := by simp [readDeskIn, deskOk, hdesk, hbuyer, hamount]

theorem deskInOwner_notActive (hline : s.lif.state ≠ .active) : deskInOwner n f g s = refuse .notActive s := by
  simp [deskInOwner, readDeskIn_ok hdesk hbuyer hamount, State.lineActive, hline]

theorem deskInOwner_deskNotOut (hline : s.lif.state = .active) (hout : (deskAt s n).state ≠ .out) : deskInOwner n f g s = refuse .deskNotOut s := by
  simp [deskInOwner, readDeskIn_ok hdesk hbuyer hamount, State.lineActive, hline, hout]

theorem deskInOwner_asked (hline : s.lif.state = .active) (hout : (deskAt s n).state = .out) : deskInOwner n f g s =
    (beginDesk n b amt s, ⟨.accepted, .desk (deskAt (beginDesk n b amt s) n)⟩) := by
  simp [deskInOwner, readDeskIn_ok hdesk hbuyer hamount, State.lineActive, hline, hout]

end

theorem setDesk_setDesk (n : Nat) (x y : Desk) (s : State) : setDesk n y (setDesk n x s) = setDesk n y s := by
  simp [setDesk, State.onClu]

/-- R150: the desk is ASKING with the key of its hold, whose entry stands in the table. -/
theorem beginDesk_asked {acc : Account} (hdesk : 1 ≤ n ∧ n ≤ s.clu.desks.length) (hacc : accountOf s b = some acc)
    (hopened : acc.state = .opened) (hplace : PlaceOpen q qs s) (hepoch : s.sys.epochState = .inUse) (hadvance : needsAdvance s true 0 = false) :
    beginDesk n b amt s = setDesk n { state := .asking, buyer := some b, key := some ⟨s.node.number, s.sys.epoch, s.exc.holdNo⟩ }
      (deskHoldMade q qs n b amt s) := by
  have hasking : deskAt (deskHoldMade q qs n b amt (setDesk n { state := .asking, buyer := some b } s)) n =
      { state := .asking, buyer := some b } := deskAt_setDesk_self hdesk.1 hdesk.2
  have hkey : holdKeyOf (deskHoldMade q qs n b amt (setDesk n { state := .asking, buyer := some b } s)) q =
      some ⟨s.node.number, s.sys.epoch, s.exc.holdNo⟩ := by
    rw [holdKeyOf, findEntry_deskHoldMade]
    rfl
  rw [beginDesk, askDeskHold, takeCreate_deskHold (s := setDesk n _ s) hacc hopened hplace hepoch hadvance]
  simp only [deskAsked, hasking, hkey, and_self, if_true]
  exact setDesk_setDesk n _ _ (deskHoldMade q qs n b amt s)

@[simp] theorem carryAnswer_node (s : State) : (carryAnswer s).node = s.node := by rw [carryAnswer_eq]
@[simp] theorem carryAnswer_book (s : State) : (carryAnswer s).book = s.book := by rw [carryAnswer_eq]

theorem deskAt_carryAnswer (s : State) (n : Nat) : deskAt (carryAnswer s) n = deskAt s n := by rw [deskAt, carryAnswer_clu]; rfl

theorem setDesk_carryAnswer (n : Nat) (x : Desk) (s : State) : setDesk n x (carryAnswer s) = carryAnswer (setDesk n x s) := onClu_carryAnswer _ s

theorem deskHoldMade_carryAnswer (q : Nat) (qs : List Nat) (n b amt : Nat) (s : State) :
    deskHoldMade q qs n b amt (carryAnswer s) = carryAnswer (deskHoldMade q qs n b amt s) := by
  simp only [deskHoldMade, onExc_carryAnswer, entryMade_carryAnswer, putEntry_carryAnswer, carryAnswer_node, carryAnswer_sys, carryAnswer_exc]

section
variable (q : Nat) (qs : List Nat) (n b amt : Nat) (s : State)

theorem deskHoldMade_free : (deskHoldMade q qs n b amt s).exc.free = qs := rfl
theorem deskHoldMade_holdNo : (deskHoldMade q qs n b amt s).exc.holdNo = s.exc.holdNo + 1 := rfl
theorem deskHoldMade_blocks : (deskHoldMade q qs n b amt s).clu = s.clu ∧ (deskHoldMade q qs n b amt s).store = s.store ∧
    (deskHoldMade q qs n b amt s).book = s.book := ⟨rfl, rfl, rfl⟩

end

/-- The desk that asks, and its HOLD (R150). -/
def deskAsking (q : Nat) (qs : List Nat) (n b amt : Nat) (s : State) : State :=
  setDesk n { state := .asking, buyer := some b, key := some ⟨s.node.number, s.sys.epoch, s.exc.holdNo⟩ } (deskHoldMade q qs n b amt s)

/-- R150: DESK IN of an OUT desk, for a buyer whose account is OPEN here. -/
theorem exec_deskIn_asked {f g : Field} {acc : Account} (h : TakenBy .clock s) (hdesk : 1 ≤ n ∧ n ≤ 32) (hlen : s.clu.desks.length = 32)
    (hbuyer : readBuyer f = some b) (hamount : readHoldAmount g = some amt) (hline : s.lif.state = .active) (hout : (deskAt s n).state = .out)
    (hplace : PlaceOpen q qs s) (hepoch : s.sys.epochState = .inUse) (hadvance : needsAdvance s true 0 = false)
    (hacc : accountOf s b = some acc) (hopened : acc.state = .opened) : exec (.deskIn true n f g) s =
      .next (answered .accepted (.desk (deskAt (deskAsking q qs n b amt s) n)) (deskAsking q qs n b amt s)) := by
  have howner := deskInOwner_asked (s := carryAnswer s) hdesk hbuyer hamount (by rwa [carryAnswer_lif]) (by rwa [deskAt_carryAnswer])
  have hasked := beginDesk_asked (s := carryAnswer s) (n := n) (b := b) (amt := amt) (acc := acc) (q := q) (qs := qs)
    (by rw [carryAnswer_clu, hlen]; exact hdesk) (by rw [accountOf, carryAnswer_book]; exact hacc) hopened (by rwa [PlaceOpen, carryAnswer_exc])
    (by rwa [carryAnswer_sys]) (by rw [needsAdvance, carryAnswer_node, carryAnswer_exc]; exact hadvance)
  have hcarried : beginDesk n b amt (carryAnswer s) = carryAnswer (deskAsking q qs n b amt s) := by
    rw [hasked, deskHoldMade_carryAnswer, setDesk_carryAnswer, carryAnswer_node, carryAnswer_sys, carryAnswer_exc, deskAsking]
  rw [hcarried, deskAt_carryAnswer] at howner
  exact congrArg Host.Outcome.next (frame_clock h howner)

/-! ### DESK OUT (R152) -/

theorem dropAsk_carryAnswer (r : Ref) (s : State) : dropAsk r (carryAnswer s) = carryAnswer (dropAsk r s) := onExc_carryAnswer _ s

theorem frame_deskOut {t : State} (h : TakenBy .clock s) (hdesk : 1 ≤ n ∧ n ≤ 32) (hout : deskSignOut n (carryAnswer s) = carryAnswer t) :
    frame true (some .clock) (deskOutOwner n) s = answered .done (.desk (deskAt t n)) t := by
  refine frame_clock h ?_
  simp [deskOutOwner, deskOk, hdesk, hout, deskAt_carryAnswer]

theorem deskSignOut_out (hstate : (deskAt s n).state = .out) : deskSignOut n s = s := by simp [deskSignOut, hstate]

/-- R152: nothing is left to release or to give up. -/
theorem deskSignOut_cleared (h : (deskAt s n).state = .lapsed ∨
    (((deskAt s n).state = .inn ∨ (deskAt s n).state = .suspended) ∧ (deskAt s n).allowance = 0) ∨
    ((deskAt s n).state = .asking ∧ (deskAt s n).key.isSome = true)) : deskSignOut n s = setDesk n (deskOutOf (deskAt s n)) s := by
  obtain hstate | ⟨hstate | hstate, hzero⟩ | ⟨hstate, hkey⟩ := h
  · simp [deskSignOut, hstate]
  · simp only [deskSignOut, hstate, hzero, Nat.lt_irrefl, if_false]
    split <;> rfl
  · simp only [deskSignOut, hstate, hzero, Nat.lt_irrefl, if_false]
    split <;> rfl
  · simp [deskSignOut, hstate, Option.isSome_iff_ne_none.1 hkey]

theorem deskSignOut_givenUp (hstate : (deskAt s n).state = .asking) (hkey : (deskAt s n).key = none) :
    deskSignOut n s = dropAsk (.deskHold n) (setDesk n (deskOutOf (deskAt s n)) s) := by
  simp [deskSignOut, hstate, hkey]

theorem askRelease_made {dest : Nat} (hplace : PlaceOpen q qs s) :
    askRelease .cluRelease k b (some dest) s = entryMade q qs (clockRelease k b dest) s := congrArg Prod.fst (takeCreate_clockRelease hplace)

theorem deskSignOut_released {home : Nat} (hstate : (deskAt s n).state = .inn ∨ (deskAt s n).state = .suspended)
    (hleft : 0 < (deskAt s n).allowance) (hkey : (deskAt s n).key = some k) (hbuyer : (deskAt s n).buyer = some b)
    (hhome : (deskAt s n).home = some home) (hplace : PlaceOpen q qs s) :
    deskSignOut n s = entryMade q qs (clockRelease k b home) (setDesk n (deskOutOf (deskAt s n)) s) := by
  have hrelease := askRelease_made (k := k) (b := b) (dest := home) (s := setDesk n (deskOutOf (deskAt s n)) s) hplace
  obtain hstate | hstate := hstate <;> simp only [deskSignOut, hstate, hkey, hbuyer, hleft, if_true, hhome, hrelease]

/-- R152: DESK OUT of a desk that is signed in: it is cleared, and what is left goes with it. -/
theorem exec_deskOut {t : State} (h : TakenBy .clock s) (hdesk : 1 ≤ n ∧ n ≤ 32) (hlen : s.clu.desks.length = 32)
    (hout : deskSignOut n (carryAnswer s) = carryAnswer t) (ht : t.clu = (setDesk n (deskOutOf (deskAt s n)) s).clu) :
    exec (.deskOut true n) s = .next (answered .done (.desk (deskOutOf (deskAt s n))) t) := by
  have hcleared : deskAt t n = deskOutOf (deskAt s n) :=
    (congrArg (fun c : Clu => c.desks.getD (n - 1) {}) ht).trans (deskAt_setDesk_self hdesk.1 (hlen ▸ hdesk.2))
  exact congrArg Host.Outcome.next (hcleared ▸ frame_deskOut h hdesk hout)

/-! ### The outcome of a desk's hold (R151) -/

theorem unitOutcome_deskHold {e : Entry} {less : Bool} {life : Nat} (href : e.ref = .deskHold n) (hbody : e.body = .hold k amt less life)
    (hacct : e.account = some b) (hrole : s.port.role = some .clock) (o : ExcOut) :
    unitOutcome e o s = deskOutcome n k b e.dest o s := by
  have hservice : unitInService s (.deskHold n) = true := by simp [unitInService, Ref.role, State.inService, hrole]
  simp only [unitOutcome, href, hbody, hservice, Bool.not_true, Bool.false_eq_true, if_false, hacct]
  rfl

/-- A desk takes new fields, and the clock tells of it (R151). -/
def deskTold (n : Nat) (x : Desk) (s : State) : State := flagged .deskEvent (setDesk n x s)

theorem raise_setDesk (hrun : s.sys.phase = .running) (n : Nat) (x : Desk) : raise .deskEvent (setDesk n x s) = deskTold n x s :=
  raise_running (setDesk n x s) _ hrun

section
variable {dest : Option Nat} {a node : Nat} {c : AnsCode}

section
variable (hrun : s.sys.phase = .running) (hstate : (deskAt s n).state = .asking) (hkey : (deskAt s n).key = some k)
include hrun hstate hkey

theorem deskOutcome_granted : deskOutcome n k b dest (.answer .granted (.amount a) node) s =
    deskTold n { deskAt s n with state := .inn, home := some node, granted := a, allowance := a, last := .answer .granted } s := by
  simp [deskOutcome, hstate, hkey, raise_setDesk hrun]

theorem deskOutcome_grantedLess : deskOutcome n k b dest (.answer .grantedLess (.amount a) node) s =
    deskTold n { deskAt s n with state := .inn, home := some node, granted := a, allowance := a, last := .answer .grantedLess } s := by
  simp [deskOutcome, hstate, hkey, raise_setDesk hrun]

theorem deskOutcome_refused (hc : c ≠ .granted) (hc' : c ≠ .grantedLess) (d : AnsData) :
    deskOutcome n k b dest (.answer c d node) s = deskTold n { deskOutOf (deskAt s n) with last := .answer c } s := by
  simp [deskOutcome, hstate, hkey, hc, hc', raise_setDesk hrun]

theorem deskOutcome_noHome :
    deskOutcome n k b dest .noHome s = deskTold n { deskOutOf (deskAt s n) with last := .answer .unknown } s := by
  simp [deskOutcome, hstate, hkey, raise_setDesk hrun]

/-- R151: the key of a hold that FAILED is released where the HOLD was last addressed. -/
theorem deskOutcome_failed {home : Nat} (hdest : dest = some home) (hplace : PlaceOpen q qs s) (last : LastAns) :
    deskOutcome n k b dest (.failed last) s =
      entryMade q qs (clockRelease k b home) (deskTold n { deskOutOf (deskAt s n) with last := .failed } s) := by
  subst hdest
  simp only [deskOutcome, hstate, hkey, beq_self_eq_true, Bool.and_self, if_true, raise_setDesk hrun]
  exact askRelease_made (s := deskTold n _ s) hplace

end

section
variable (hother : ¬((deskAt s n).state = .asking ∧ (deskAt s n).key = some k))
include hother

/-- R151: a grant that no desk asks for is released where it was granted. -/
theorem deskOutcome_lateGrant (hc : c = .granted ∨ c = .grantedLess) (hplace : PlaceOpen q qs s) :
    deskOutcome n k b dest (.answer c (.amount a) node) s = entryMade q qs (clockRelease k b node) s := by
  have hrelease := askRelease_made (k := k) (b := b) (dest := node) hplace
  obtain rfl | rfl := hc <;> simp [deskOutcome, hother, hrelease]

theorem deskOutcome_lateAnswer (hc : c ≠ .granted) (hc' : c ≠ .grantedLess) (d : AnsData) :
    deskOutcome n k b dest (.answer c d node) s = s := by
  simp [deskOutcome, hother, hc, hc']

theorem deskOutcome_lateFailed (last : LastAns) : deskOutcome n k b dest (.failed last) s = s := by simp [deskOutcome, hother]

end

end

end

/-- Settles O55: DESK IN by the line, the desk and the account's home; DESK OUT by the desk's state; the outcome by whether the desk still asks. -/
theorem desksSignInAndOut : Obligations.DesksSignInAndOut := by
  intro s n h hdesk hlen
  have hrun := h.1.1
  have hsame := deskAt_carryAnswer s n
  refine ⟨fun f g b amt hbuyer hamount => ⟨fun hline => ?_, fun hline hout => ?_, ?_⟩, fun hstate => ?_, fun hstate => ?_,
    fun hstate hkey => ?_, fun k b home q qs hstate hleft hkey hbuyer hhome hplace => ?_, fun e k amt less life b href hbody hacct => ?_⟩
  · refine congrArg Host.Outcome.next (frame_clock_refused h (deskInOwner_notActive hdesk hbuyer hamount ?_))
    rwa [carryAnswer_lif]
  · refine congrArg Host.Outcome.next (frame_clock_refused h (deskInOwner_deskNotOut hdesk hbuyer hamount ?_ ?_))
    · rwa [carryAnswer_lif]
    · rwa [hsame]
  · intro q qs acc hline hout hplace hepoch hadvance hacc hopened
    obtain ⟨hdesks, hstore, hbook⟩ := deskHoldMade_blocks q qs n b amt s
    exact ⟨_, exec_deskIn_asked h hdesk hlen hbuyer hamount hline hout hplace hepoch hadvance hacc hopened, rfl,
      congrArg (fun c : Clu => c.desks.set (n - 1) _) hdesks, deskHoldMade_holdNo q qs n b amt s,
      ⟨_, findEntry_deskHoldMade, rfl, rfl, rfl, rfl⟩, deskHoldMade_free q qs n b amt s, hstore, hbook⟩
  · exact congrArg Host.Outcome.next (frame_deskOut h hdesk (deskSignOut_out (hsame.symm ▸ hstate)))
  · refine exec_deskOut h hdesk hlen ?_ rfl
    rw [deskSignOut_cleared (hsame.symm ▸ hstate), hsame, setDesk_carryAnswer]
    rfl
  · refine exec_deskOut h hdesk hlen ?_ rfl
    rw [deskSignOut_givenUp (hsame.symm ▸ hstate) (hsame.symm ▸ hkey), hsame, setDesk_carryAnswer, dropAsk_carryAnswer]
    rfl
  · refine exec_deskOut h hdesk hlen ?_ rfl
    rw [deskSignOut_released (hsame.symm ▸ hstate) (hsame.symm ▸ hleft) (hsame.symm ▸ hkey) (hsame.symm ▸ hbuyer) (hsame.symm ▸ hhome)
      (by rwa [PlaceOpen, carryAnswer_exc]), hsame, setDesk_carryAnswer, entryMade_carryAnswer]
    rfl
  · intro changed releases
    have htold := unitOutcome_deskHold (s := s) href hbody hacct h.2
    refine ⟨fun hstate hkey => ⟨fun a node => ⟨?_, ?_⟩, fun c d node hc hc' => ?_, ?_, fun last home q qs hdest hplace => ?_⟩, fun hother =>
      ⟨fun a node q qs hplace => ⟨?_, ?_⟩, fun c d node hc hc' => ?_, fun last => ?_⟩⟩ <;> rw [htold]
    · exact deskOutcome_granted hrun hstate hkey
    · exact deskOutcome_grantedLess hrun hstate hkey
    · exact deskOutcome_refused hrun hstate hkey hc hc' d
    · exact deskOutcome_noHome hrun hstate hkey
    · exact deskOutcome_failed hrun hstate hkey hdest hplace last
    · exact deskOutcome_lateGrant hother (.inl rfl) hplace
    · exact deskOutcome_lateGrant hother (.inr rfl) hplace
    · exact deskOutcome_lateAnswer hother hc hc' d
    · exact deskOutcome_lateFailed hother last

end Sys2Proof.Machine
end

section
/-! The retries of the clock, its claims, the requests and parts of a sale, and the end of a sale (O57). -/

namespace Sys2Proof.Machine
open Sys2Proof

section
variable {s : State} {lot : LotId} {n : Nat}

/-! ### The update of a SALE record (R160, R161) -/

/-- R160, R161: the update of a SALE record stands on the request list. -/
def saleUpdateListed (n : Nat) (c : SaleChange) (s : State) : State := listed ⟨.sale n c, .group [.saleUpdate n c]⟩ s

theorem onSale_onSale (n : Nat) (f g : Sale → Sale) (hf : ∀ x, (f x).entry = x.entry) (s : State) :
    onSale n g (onSale n f s) = onSale n (fun x => g (f x)) s := by
  have hmap : (s.clu.sales.map fun x => if x.entry.number = n then f x else x).map (fun x => if x.entry.number = n then g x else x) =
      s.clu.sales.map fun x => if x.entry.number = n then g (f x) else x := by
    rw [List.map_map]
    refine List.map_congr_left fun x _ => ?_
    by_cases hx : x.entry.number = n <;> simp [hx, hf]
  simp only [onSale, State.onClu, hmap]

theorem placeSaleUpdate_listed (hlist : ListOpen s) (n : Nat) (c : SaleChange) :
    placeSaleUpdate n c s = saleUpdateListed n c (onSale n (noteUpdate c) s) :=
  listOpen_placeGroup (s := onSale n (noteUpdate c) s) hlist (o := .sale n c) nofun _

theorem updateSale_listed {e : Sale} (hlist : ListOpen s) (hfind : findSale s n = some e) (hstays : e.removing = false) (c : SaleChange) :
    updateSale n c s = saleUpdateListed n c (onSale n (noteUpdate c) s) :=
  (updateSale_standing hfind hstays c).trans (placeSaleUpdate_listed hlist n c)

/-- An update of a sale whose fields have just changed. -/
theorem updateSale_onSale {e : Sale} {f : Sale → Sale} (hlist : ListOpen s) (hfind : findSale s n = some e) (hentry : ∀ x, (f x).entry = x.entry)
    (hstays : (f e).removing = false) (c : SaleChange) :
    updateSale n c (onSale n f s) = saleUpdateListed n c (onSale n (fun x => noteUpdate c (f x)) s) := by
  have hfind' : findSale (onSale n f s) n = some (f e) := by rw [findSale_onSale n f hentry, hfind]; rfl
  rw [updateSale_listed (s := onSale n f s) hlist hfind' hstays, onSale_onSale n f _ hentry]

theorem findSale_number {e : Sale} (hfind : findSale s n = some e) : e.entry.number = n := by simpa using List.find?_some hfind

/-! ### Events -/

/-- R165: the clock tells of a sale. -/
def saleTold (n : Nat) (e : SaleEvent) (s : State) : State := flagged .saleEvent (s.onClu fun c => { c with saleEvent := some (n, e) })

theorem saleEvent_running (hrun : s.sys.phase = .running) (n : Nat) (e : SaleEvent) : saleEvent n e s = saleTold n e s :=
  raise_running (s.onClu _) .saleEvent hrun

theorem saleTold_blocks (n : Nat) (e : SaleEvent) (s : State) :
    (saleTold n e s).exc = s.exc ∧ (saleTold n e s).store = s.store ∧ headLot (saleTold n e s) = headLot s := ⟨rfl, rfl, rfl⟩

/-! ### Retries (R141, R148, R159 to R162, R164) -/

theorem queueRetry_claim {d : LotDesc} (hclaim : claimOf s lot = some { lot := lot, granted := some d, retry := some 0 })
    (hclean : ∀ x ∈ s.clu.cleaning, x.lot ≠ lot) (hlist : ListOpen s) :
    queueRetry lot s = listed ⟨.claim lot, .group [.queue (.append d)]⟩ (s.onClu fun c => { c with
      claims := c.claims.map fun x => if x.lot = lot then { x with retry := none } else x }) := by
  have hclaimed : claimRetry lot s = listed ⟨.claim lot, .group [.queue (.append d)]⟩ (s.onClu fun c => { c with
      claims := c.claims.map fun x => if x.lot = lot then { x with retry := none } else x }) := by
    simp only [claimRetry, hclaim, due_some_zero, if_true]
    exact listOpen_placeGroup (s := s.onClu _) hlist (o := .claim lot) nofun _
  have hnone : (s.clu.cleaning.any fun x => x.lot == lot && due x.retry) = false :=
    List.any_eq_false.2 fun x hx => by simp [hclean x hx]
  rw [queueRetry, hclaimed]
  exact if_neg (by simpa [listed] using hnone)

theorem queueRetry_clean (hclaim : claimOf s lot = none) (hclean : { lot := lot, retry := some 0 } ∈ s.clu.cleaning) (hlist : ListOpen s) :
    queueRetry lot s = listed ⟨.queueClean lot, .group [.queue (.drop lot)]⟩ (s.onClu fun c => { c with
      cleaning := c.cleaning.map fun x => if x.lot = lot then { x with retry := none } else x }) := by
  have hdue : (s.clu.cleaning.any fun x => x.lot == lot && due x.retry) = true := List.any_eq_true.2 ⟨_, hclean, by simp⟩
  have hsame : claimRetry lot s = s := by simp only [claimRetry, hclaim]
  rw [queueRetry, hsame, cleanRetry, if_pos hdue]
  exact listOpen_placeGroup (s := s.onClu _) hlist (o := .queueClean lot) nofun _

theorem lotEndRetry_listed {d : LotDesc} (hdue : s.clu.lotEndT = some 0) (hhead : headLot s = some d) (hlist : ListOpen s) :
    lotEndRetry s = listed ⟨.lotEnd d.id, .group [.queue (.drop d.id)]⟩ (s.onClu fun c => { c with lotEndT := none }) := by
  rw [lotEndRetry, hdue, due_some_zero, if_pos rfl]
  exact placeLotEnd_listed (s := s.onClu fun c => { c with lotEndT := none }) hhead hlist

theorem saleLogRetry_listed {r : SaleRec} (hsettling : s.clu.settling = some { sale := r, logRetry := some 0 }) (hlist : ListOpen s) :
    saleLogRetry s = listed ⟨.saleLog, .group [.saleCreate r, .node (.nextSale (nextNumber r.number))]⟩
      (s.onClu fun c => { c with settling := some { sale := r, logRetry := none } }) := by
  simp only [saleLogRetry, hsettling, due_some_zero, if_true]
  exact placeSaleLog_listed (s := s.onClu _) hlist r

theorem saleUpdateRetry_listed {e : Sale} {c : SaleChange} (hfind : findSale s n = some e) (hredo : e.redo = [⟨c, 0⟩])
    (hstays : e.removing = false) (hlist : ListOpen s) : saleUpdateRetry n s = saleUpdateListed n c
      (onSale n (fun x => noteUpdate c { x with redo := x.redo.filter fun y => y.left != 0 }) s) := by
  simp only [saleUpdateRetry, hfind, hredo]
  exact updateSale_onSale (f := fun x => { x with redo := x.redo.filter fun y => y.left != 0 }) hlist hfind (fun _ => rfl) hstays c

theorem entryMade_onSale (q : Nat) (qs : List Nat) (i : NewEntry) (n : Nat) (f : Sale → Sale) (s : State) :
    entryMade q qs i (onSale n f s) = onSale n f (entryMade q qs i s) := rfl

theorem soldItem_of_found {e : Sale} (hfind : findSale s n = some e) : soldItem e.entry = reportItem e.entry.lot true (.salePart n .report) := by
  rw [soldItem, findSale_number hfind]

/-- R162: the repeat of a report that FAILED. -/
theorem reportReissue_listed {e : Sale} {q : Nat} {qs : List Nat} (hfind : findSale s n = some e) (hdue : e.reissue = some 0)
    (hstays : e.removing = false) (hplace : PlaceOpen q qs s) (hlist : ListOpen s) : reportReissue n s =
      saleUpdateListed n (.part .report .pending none none) (onSale n (fun x => noteUpdate (.part .report .pending none none)
        { x with reissue := none }) ((entryMade q qs (reportItem e.entry.lot true (.salePart n .report)) s).onClu fun c => { c with
          cnt := { c.cnt with reissued := bump c.cnt.reissued } })) := by
  have htaken := takeCreate_report (ref := .saleReissue n) (sold := true) (r := .salePart n .report) (lot := e.entry.lot) (q := q) (qs := qs)
    (s := onSale n (fun x => { x with reissue := none }) s) hplace
  simp only [reportReissue, hfind, hdue, due_some_zero, hstays, Bool.not_false, Bool.and_self, if_true, soldItem_of_found hfind, htaken,
    entryMade_onSale]
  exact updateSale_onSale (f := fun x => { x with reissue := none }) (s := (entryMade q qs _ s).onClu fun c => { c with
    cnt := { c.cnt with reissued := bump c.cnt.reissued } }) hlist hfind (fun _ => rfl) hstays _

/-! ### The requests of a sale made again (R160, R164) -/

/-- What of a sale is asked for again: a single part, or all three requests. -/
def askAgain (r : SaleRec) : Option SalePart → State → State
  | none => askSalePosts r
  | some p => askSalePart r p

theorem saleRequestRetry_due {e : Sale} {p : Option SalePart} (hfind : findSale s n = some e) (hwait : s.clu.reqWait = [⟨n, p, 0⟩]) :
    saleRequestRetry n s = askAgain e.entry p (s.onClu fun c => { c with reqWait := [] }) := by
  have hdue : dueReqWait s n = some ⟨n, p, 0⟩ := by simp [dueReqWait, hwait]
  have hleft : (s.onClu fun c => { c with reqWait := c.reqWait.filter fun x => !(x.sale == n && x.part == p) }) =
      s.onClu fun c => { c with reqWait := [] } := by simp [State.onClu, hwait]
  simp only [saleRequestRetry, hdue, hfind, hleft]
  cases p <;> rfl

theorem saleRequestRetry_draw {e : Sale} (hfind : findSale s n = some e) (hwait : s.clu.reqWait = [⟨n, some .draw, 0⟩]) (hready : PostReady s)
    (hlist : ListOpen s) : saleRequestRetry n s = postAsked (.salePart n .draw)
      ⟨default, .draw, e.entry.buyer, e.entry.charge, saleItems e.entry, some (e.entry.key.epoch, e.entry.key.number), none⟩
      e.entry.buyerHome (s.onClu fun c => { c with reqWait := [] }) := by
  have htaken := takeCreate_onePost (ref := .salePart n .draw) (dest := e.entry.buyerHome)
    (p := ⟨default, .draw, e.entry.buyer, e.entry.charge, saleItems e.entry, some (e.entry.key.epoch, e.entry.key.number), none⟩)
    (s := s.onClu fun c => { c with reqWait := [] }) hready hlist
  have hask : (⟨.salePart e.entry.number .draw, [partItem e.entry .draw]⟩ : CreateReq) = onePost (.salePart n .draw)
      ⟨default, .draw, e.entry.buyer, e.entry.charge, saleItems e.entry, some (e.entry.key.epoch, e.entry.key.number), none⟩
      e.entry.buyerHome := by
    rw [findSale_number hfind, partItem, drawItem, findSale_number hfind, onePost]
  rw [saleRequestRetry_due hfind hwait]
  simp only [askAgain, askSalePart, hask, htaken]

/-- The store request list takes `k` more requests (R54), and no erasure discards them (R70). -/
def ListTakes (k : Nat) (s : State) : Prop := s.store.erasing = none ∧ s.store.list.length + s.store.pend.length + k ≤ 8

theorem ListTakes.listOpen {k : Nat} (h : ListTakes (k + 1) s) : ListOpen s := ⟨h.1, decide_eq_true (by have := h.2; omega)⟩

theorem ListTakes.listed {k : Nat} (h : ListTakes (k + 1) s) (r : Request) : ListTakes k (listed r s) := by
  refine ⟨h.1, ?_⟩
  have hlen : (Machine.listed r s).store.list.length = s.store.list.length + 1 := List.length_append
  have hroom := h.2
  have hpend : (Machine.listed r s).store.pend = s.store.pend := rfl
  rw [hlen, hpend]
  omega

/-- R160: the state of a part is FAILED from now on. -/
def partFailed (n : Nat) (p : SalePart) (s : State) : State :=
  saleUpdateListed n (.part p .failed none none) (onSale n (noteUpdate (.part p .failed none none)) s)

theorem partFailed_blocks (n : Nat) (p : SalePart) (s : State) :
    (partFailed n p s).exc = s.exc ∧ (partFailed n p s).sys = s.sys ∧ headLot (partFailed n p s) = headLot s := ⟨rfl, rfl, rfl⟩

theorem placeSaleUpdate_failed {k : Nat} (hlist : ListTakes (k + 1) s) (n : Nat) (p : SalePart) :
    placeSaleUpdate n (.part p .failed none none) s = partFailed n p s ∧ ListTakes k (partFailed n p s) :=
  ⟨placeSaleUpdate_listed hlist.listOpen n _, ListTakes.listed (s := onSale n _ s) hlist _⟩

theorem askSoldReport_listed {r : SaleRec} {d : LotDesc} {q : Nat} {qs : List Nat} (hplace : PlaceOpen q qs s) (hhead : headLot s = some d)
    (hlist : ListOpen s) : askSoldReport r s = listed ⟨.lotEnd d.id, .group [.queue (.drop d.id)]⟩ (entryMade q qs (soldItem r) s) := by
  simp only [askSoldReport, soldItem, takeCreate_report hplace]
  exact placeLotEnd_listed (s := entryMade _ _ _ _) hhead hlist

theorem takeCreate_salePosts_exhausted {r : SaleRec} (hepoch : s.sys.epochState = .exhausted) (hopen : 3 ≤ openPlaces s.exc) :
    takeCreate (salePostsReq r) s = (s, .refused .epochExhausted) := by
  have hlen : (salePostsReq r).items.length = 3 := rfl
  have hnumbered : (salePostsReq r).numbered = true := rfl
  simp [takeCreate, hlen, Nat.not_lt.2 hopen, hnumbered, hepoch]

/-- R160: at EPOCH EXHAUSTED both postings become FAILED, and the LOTREPORT alone is made. -/
theorem askSalePosts_exhausted {e : Sale} {d : LotDesc} {q : Nat} {qs : List Nat} (hfind : findSale s n = some e)
    (hepoch : s.sys.epochState = .exhausted) (hfree : s.exc.free = q :: qs) (hopen : 3 ≤ openPlaces s.exc) (hhead : headLot s = some d)
    (hlist : ListTakes 3 s) (hrun : s.sys.phase = .running) :
    askSalePosts e.entry s = listed ⟨.lotEnd d.id, .group [.queue (.drop d.id)]⟩ (entryMade q qs (reportItem e.entry.lot true (.salePart n .report))
      (saleTold n (.part .sale .failed) (partFailed n .sale (partFailed n .draw s)))) := by
  obtain ⟨hdraw, hlist'⟩ := placeSaleUpdate_failed hlist n .draw
  obtain ⟨hsale, hlist''⟩ := placeSaleUpdate_failed hlist' n .sale
  obtain ⟨hexc, hsys, hsame⟩ := partFailed_blocks n .draw s
  obtain ⟨hexc', hsys', hsame'⟩ := partFailed_blocks n .sale (partFailed n .draw s)
  obtain ⟨hexc'', hstore, hsame''⟩ := saleTold_blocks n (.part .sale .failed) (partFailed n .sale (partFailed n .draw s))
  have htold := saleEvent_running (s := partFailed n .sale (partFailed n .draw s)) (by rw [hsys', hsys, hrun]) n (.part .sale .failed)
  have hplace : PlaceOpen q qs (saleTold n (.part .sale .failed) (partFailed n .sale (partFailed n .draw s))) := by
    rw [PlaceOpen, hexc'', hexc', hexc]
    exact ⟨hfree, Nat.lt_of_lt_of_le (by decide) hopen⟩
  simp only [askSalePosts, takeCreate_salePosts_exhausted hepoch hopen, salePostsRefused, findSale_number hfind, hfind, hdraw, hsale, htold]
  rw [askSoldReport_listed hplace (by rw [hsame'', hsame', hsame, hhead]) (hlist''.listOpen.of_store hstore), soldItem_of_found hfind]

/-! ### The three requests of a sale created (R160) -/

theorem foldl_putEntryIn_perm {es acc : List Entry} (hn : ((acc ++ es).map (·.seq)).Nodup) :
    (es.foldl (fun acc e => putEntryIn e acc) acc).Perm (acc ++ es) := by
  induction es generalizing acc with
  | nil => simp
  | cons e es ih =>
    have hswap : (putEntryIn e acc ++ es).Perm (acc ++ e :: es) := by
      have hnew : ∀ x ∈ acc, x.seq ≠ e.seq := by
        rw [List.map_append, List.nodup_append] at hn
        exact fun x hx => hn.2.2 _ (List.mem_map_of_mem hx) _ (by simp)
      exact ((insertKeyed_perm (key := fun x : Entry => x.seq) hnew).append_right es).trans List.perm_middle.symm
    exact (ih ((hswap.map _).nodup_iff.2 hn)).trans hswap

theorem find_of_mem_entries {es : List Entry} (hn : (es.map (·.seq)).Nodup) {e : Entry} (he : e ∈ es) :
    es.find? (fun x => x.seq == e.seq) = some e := by
  obtain ⟨x, hx⟩ : ∃ x, es.find? (fun x => x.seq == e.seq) = some x :=
    Option.isSome_iff_exists.1 (List.find?_isSome.2 ⟨e, he, beq_self_eq_true e.seq⟩)
  have hseq : x.seq = e.seq := by simpa using List.find?_some hx
  rw [hx, List.inj_on_of_nodup_map hn (List.mem_of_find?_eq_some hx) he hseq]

/-- Entries stand in the table, and take their places (R89). -/
def entriesStand (es : List Entry) (qs : List Nat) (s : State) : State :=
  refreshReady (s.onExc fun x => { x with free := qs, entries := es.foldl (fun acc e => putEntryIn e acc) x.entries })

/-- R160: the entries of the DRAW and the SALE with their identities, and of the LOTREPORT. -/
def saleEntries (r : SaleRec) (p p' : Posting) (q q' q'' : Nat) : List Entry :=
  [makeEntry q ⟨.post p, .salePart r.number .draw, some r.buyer, some r.buyerHome, false⟩,
    makeEntry q' ⟨.post p', .salePart r.number .sale, some r.boat, some r.boatHome, false⟩, makeEntry q'' (soldItem r)]

section
variable {r : SaleRec} {p p' : Posting} {q q' q'' : Nat} {qs : List Nat}

theorem standEntries_salePosts (hfree : s.exc.free = q :: q' :: q'' :: qs) :
    standEntries (salePostsReq r) [p, p'] s = (entriesStand (saleEntries r p p' q q' q'') qs s, none) := by
  have hmade (key : Ident) : List.zipWith makeEntry (nextPlaces (salePostsReq r) s) (fillBodies key (salePostsReq r).items [p, p']) =
      saleEntries r p p' q q' q'' := by
    simp only [nextPlaces, hfree]
    rfl
  have hqueued : (saleEntries r p p' q q' q'').filter (fun e => e.state == .unresolved) = [] := rfl
  have hdrop : s.exc.free.drop (salePostsReq r).items.length = qs := by rw [hfree]; rfl
  simp only [standEntries, hmade, hqueued, List.foldl_nil, State.onExc, hdrop]
  rfl

theorem salePostsCreated_listed {d : LotDesc} (hhead : headLot s = some d) (hlist : ListTakes 2 s) (n : Nat) :
    salePostsCreated n s = listed ⟨.lotEnd d.id, .group [.queue (.drop d.id)]⟩
      (saleUpdateListed n .posted (onSale n (noteUpdate .posted) s)) := by
  rw [salePostsCreated, placeSaleUpdate_listed hlist.listOpen]
  exact placeLotEnd_listed hhead (ListTakes.listed (s := onSale n _ s) hlist _).listOpen

theorem excWorkEnded_salePosts (hwork : s.exc.work = some (.create (salePostsReq r) [p, p'])) (hfree : s.exc.free = q :: q' :: q'' :: qs)
    (hepoch : s.node.epoch = s.sys.epoch) (hnumber : s.node.nextPosting ≤ 65535) :
    excWorkEnded .done s = runJobs jobFuel (salePostsCreated r.number
      (entriesStand (saleEntries r p p' q q' q'') qs (s.onExc fun x => { x with work := none }))) := by
  have hstand := standEntries_salePosts (s := s.onExc fun x => { x with work := none }) (r := r) (p := p) (p' := p') hfree
  have hnumbers := numbersAfter_done (s := s.onExc fun x => { x with work := none }) [p, p'].length hepoch hnumber
  have hdone : outboundsDone [p, p'].length .done = true := rfl
  simp only [excWorkEnded, hwork, createEnded, hdone, if_true, hnumbers, hstand]
  rfl

/-- R160: the commit of the two postings ends DONE: the three entries stand, the record is marked posted, and the lot ends. -/
theorem storeOutcome_salePosts {d : LotDesc} (hwork : s.exc.work = some (.create (salePostsReq r) [p, p']))
    (hfree : s.exc.free = q :: q' :: q'' :: qs) (hjobs : s.exc.jobs = []) (hepoch : s.node.epoch = s.sys.epoch)
    (hnumber : s.node.nextPosting ≤ 65535) (hhead : headLot s = some d) (hlist : ListTakes 2 s) :
    storeOutcome .excWork .done s = listed ⟨.lotEnd d.id, .group [.queue (.drop d.id)]⟩ (saleUpdateListed r.number .posted (onSale r.number
      (noteUpdate .posted) (entriesStand (saleEntries r p p' q q' q'') qs (s.onExc fun x => { x with work := none })))) := by
  have hcreated := salePostsCreated_listed (s := entriesStand (saleEntries r p p' q q' q'') qs (s.onExc fun x => { x with work := none }))
    hhead hlist r.number
  rw [storeOutcome, excWorkEnded_salePosts hwork hfree hepoch hnumber, hcreated]
  exact runJobs_idle _ hjobs

theorem saleEntries_stand (hentries : s.exc.entries = []) (hn : [q, q', q''].Nodup) :
    (entriesStand (saleEntries r p p' q q' q'') qs s).exc.entries.length = 3 ∧
    ∀ e ∈ saleEntries r p p' q q' q'', findEntry (entriesStand (saleEntries r p p' q q' q'') qs s) e.seq = some e := by
  have hperm : (entriesStand (saleEntries r p p' q q' q'') qs s).exc.entries.Perm (saleEntries r p p' q q' q'') := by
    have h := foldl_putEntryIn_perm (es := saleEntries r p p' q q' q'') (acc := s.exc.entries) (by rw [hentries]; exact hn)
    rw [hentries] at h
    simpa [entriesStand, refreshReady, hentries] using h
  exact ⟨hperm.length_eq, fun e he => find_of_mem_entries ((hperm.map _).nodup_iff.2 hn) (hperm.mem_iff.2 he)⟩

end

/-! ### The outcome of a claim, and of its commit (R141) -/

theorem unitOutcome_claim {e : Entry} (href : e.ref = .claim lot) (hrole : s.port.role = some .clock) (o : ExcOut) :
    unitOutcome e o s = claimOutcome lot o s := by
  have hservice : unitInService s (.claim lot) = true := by simp [unitInService, Ref.role, State.inService, hrole]
  simp [unitOutcome, href, hservice]

section
variable {g : Claim} (hclaim : claimOf s lot = some g)
include hclaim

theorem claimOutcome_granted (hlist : ListOpen s) (d : LotDesc) (node : Nat) : claimOutcome lot (.answer .granted (.lot d) node) s =
    listed ⟨.claim lot, .group [.queue (.append { d with id := lot })]⟩ (s.onClu fun c => { c with
      claims := c.claims.map fun x => if x.lot = lot then { x with granted := some { d with id := lot } } else x }) := by
  simp only [claimOutcome, hclaim]
  exact listOpen_placeGroup (s := s.onClu _) hlist (o := .claim lot) nofun _

theorem claimOutcome_taken {c : AnsCode} (hc : c = .taken ∨ c = .unknown) (d : AnsData) (node : Nat) :
    claimOutcome lot (.answer c d node) s = (dropClaim lot s).onClu fun c => { c with
      cnt := { c.cnt with claimsTaken := bump c.cnt.claimsTaken } } := by
  obtain rfl | rfl := hc <;> simp only [claimOutcome, hclaim]

theorem claimOutcome_failed (hrun : s.sys.phase = .running) (last : LastAns) : claimOutcome lot (.failed last) s =
    flagged .lotEvent ((dropClaim lot s).onClu fun c => { c with
      cnt := { c.cnt with claimsFailed := bump c.cnt.claimsFailed }, lotEvent := some (.claimFailed, some lot) }) := by
  simp only [claimOutcome, hclaim]
  exact cluLotEvent_running (s := (dropClaim lot s).onClu _) hrun _ _

theorem claimCommitted_done {d : LotDesc} (hgranted : g.granted = some d) (hrun : s.sys.phase = .running) : claimCommitted lot .done s =
    flagged .lotEvent ((dropClaim lot s).onClu fun c => { c with
      queue := c.queue ++ [d], cnt := { c.cnt with claimsGranted := bump c.cnt.claimsGranted }, lotEvent := some (.queued, some lot) }) := by
  obtain ⟨_, granted, _⟩ := g
  subst hgranted
  simp only [claimCommitted, hclaim]
  exact cluLotEvent_running (s := (dropClaim lot s).onClu _) hrun _ _

theorem claimCommitted_failed {d : LotDesc} {r : StoreRes} (hgranted : g.granted = some d) (hr : r ≠ .done) : claimCommitted lot r s =
    s.onClu fun c => { c with claims := c.claims.map fun x => if x.lot = lot then { x with retry := some 1000 } else x } := by
  obtain ⟨_, granted, _⟩ := g
  subst hgranted
  cases r <;> simp_all only [claimCommitted, ne_eq, not_true]

end

/-! ### The end of a lot (R148) -/

theorem lotEnded_done (hrun : s.sys.phase = .running) (lot : LotId) : lotEnded lot .done s =
    flagged .lotEvent (s.onClu fun c => { dropQueued lot c with
      state := .idle, price := none, figs := none, tickT := none, settling := none
      desks := c.desks.map fun d => if d.state = .suspended then { d with state := .inn } else d
      lotEvent := some (.state .idle,
        ((dropQueued lot c).queue.find? fun d => c.cleaning.all fun x => x.lot != d.id).map (·.id)) }) := by
  rw [lotEnded, setClock, headLot_eq]
  exact cluLotEvent_running (s := State.onClu _ (s.onClu _)) hrun _ _

theorem lotEnded_failed {r : StoreRes} (hr : r ≠ .done) (lot : LotId) : lotEnded lot r s = s.onClu fun c => { c with lotEndT := some 1000 } := by
  cases r <;> simp_all only [lotEnded, ne_eq, not_true]

/-! ### The end of a sale's first commit (R159, R160) -/

theorem takeCreate_salePosts_noRoom (hopen : openPlaces s.exc < 3) (r : SaleRec) : takeCreate (salePostsReq r) s =
    (s.onExc fun x => { x with asks := x.asks ++ [salePostsReq r] }, .noRoom) := if_pos hopen

section
variable {x : Settling} (hsettling : s.clu.settling = some x) (hrun : s.sys.phase = .running)
include hsettling hrun

theorem saleLogged_done (hopen : openPlaces s.exc < 3) : saleLogged .done s =
    (saleTold x.sale.number .logged (s.onClu fun c => { c with sales := putSaleIn { entry := x.sale } c.sales })).onExc fun y =>
      { y with asks := y.asks ++ [salePostsReq x.sale] } := by
  have htold := saleEvent_running (s := s.onClu fun c => { c with sales := putSaleIn { entry := x.sale } c.sales }) hrun x.sale.number .logged
  have htaken := takeCreate_salePosts_noRoom
    (s := saleTold x.sale.number .logged (s.onClu fun c => { c with sales := putSaleIn { entry := x.sale } c.sales })) hopen x.sale
  simp only [saleLogged, hsettling, htold, askSalePosts, htaken]

theorem saleLogged_fault : saleLogged (.fault 0) s = saleTold x.sale.number .waitingStore (s.onClu fun c => { c with
    settling := some { x with logRetry := some 1000 } }) := by
  simp only [saleLogged, hsettling]
  exact saleEvent_running (s := s.onClu _) hrun _ _

end

/-! ### The outcome of a part of a sale (R153, R161, R162) -/

theorem unitOutcome_salePart {e : Entry} {part : SalePart} (href : e.ref = .salePart n part) (hrole : s.port.role = some .clock) (o : ExcOut) :
    unitOutcome e o s = salePartOutcome n part (e.body.posting.getD emptyPosting) e.seq o s := by
  have hservice : unitInService s (.salePart n part) = true := by simp [unitInService, Ref.role, State.inService, hrole]
  simp [unitOutcome, href, hservice]

theorem partKeeps_pending (o : ExcOut) : partKeeps .pending o = false := by
  unfold partKeeps
  split <;> rfl

section
variable {x : Sale} {p : SalePart} {post : Posting} {seq : Nat}

/-- R161: an answer gives a PENDING posting's part its state; the outcome is reported taken with that update. -/
theorem salePartOutcome_answer {t : State} {c : AnsCode} {d : AnsData} {node : Nat} {st : PartState} {m : Option Nat}
    (hfollow : deskFollows post c node s = t) (hfind : findSale t n = some x) (hpending : partToBe x p = .pending) (hp : p ≠ .report)
    (hpart : partOf p (.answer c d node) = (st, m)) (hst : st ≠ .pending) :
    salePartOutcome n p post seq (.answer c d node) s = updateSale n (.part p st m (some seq)) t := by
  have hnew : (partKeeps .pending (.answer c d node) || (PartState.pending == st && m.isNone)) = false := by
    simp [partKeeps_pending, hst.symm]
  subst hfollow
  cases p with
  | report => exact absurd rfl hp
  | draw | sale =>
    unfold salePartOutcome
    simp only
    rw [hfind]
    simp only
    rw [hpending, hpart, hnew]
    rfl

theorem salePartOutcome_failed (hfind : findSale s n = some x) (hpending : partToBe x p = .pending) (hp : p ≠ .report) (last : LastAns) :
    salePartOutcome n p post seq (.failed last) s = updateSale n (.part p .failed none none) s := by
  cases p with
  | report => exact absurd rfl hp
  | draw | sale =>
    unfold salePartOutcome
    simp only
    rw [hfind]
    simp only
    rw [hpending, partKeeps_pending]
    rfl

/-- R162: a report that FAILED is requested again after 15,000 ms. -/
theorem salePartOutcome_reportFailed (hfind : findSale s n = some x) (hpending : partToBe x .report = .pending) (last : LastAns) :
    salePartOutcome n .report post seq (.failed last) s =
      updateSale n (.part .report .failed none none) (onSale n (fun e => { e with reissue := some 15000 }) s) := by
  unfold salePartOutcome
  simp only
  rw [hfind]
  simp only
  rw [hpending, partKeeps_pending]
  rfl

end

/-! ### The desk that holds the key of a DRAW (R153) -/

section
variable {post : Posting} {k : Ident} {d node : Nat}

theorem deskFollows_other (hkind : post.kind ≠ .draw) (c : AnsCode) (node : Nat) (s : State) : deskFollows post c node s = s := by
  unfold deskFollows
  split
  · next hdraw _ => exact absurd hdraw hkind
  · rfl

theorem deskFollows_draw (hkind : post.kind = .draw) (hkey : postHoldKey post = some k) {c : AnsCode} (hc : c ≠ .lapsed) :
    deskFollows post c node s = followHome k node s := by
  simp only [deskFollows, hkind, hkey, hc, if_false]

theorem deskFollows_lapsed (hkind : post.kind = .draw) (hkey : postHoldKey post = some k) :
    deskFollows post .lapsed node s = lapseDesk k (followHome k node s) := by
  simp only [deskFollows, hkind, hkey, if_true]

theorem followHome_home (hdesk : deskWithKey s k = some d) (hhome : (deskAt s d).home.isSome = true) :
    followHome k node s = setDesk d { deskAt s d with home := some node } s := by
  simp only [followHome, hdesk, hhome, if_true]

theorem deskWithKey_eq_some_iff : deskWithKey s k = some d ↔ ∃ i, ∃ h : i < s.clu.desks.length, d = i + 1 ∧ s.clu.desks[i].key = some k ∧
    ∀ j, ∀ hj : j < i, s.clu.desks[j].key ≠ some k := by
  simp only [deskWithKey, Option.map_eq_some_iff, List.findIdx?_eq_some_iff_getElem, beq_iff_eq]
  constructor
  · rintro ⟨i, ⟨h, hkey, hfirst⟩, rfl⟩
    exact ⟨i, h, rfl, hkey, hfirst⟩
  · rintro ⟨i, h, rfl, hkey, hfirst⟩
    exact ⟨i, ⟨h, hkey, hfirst⟩, rfl⟩

/-- The desk that holds a key is one of the desks. -/
theorem deskWithKey_range (hdesk : deskWithKey s k = some d) : 1 ≤ d ∧ d ≤ s.clu.desks.length ∧ (deskAt s d).key = some k := by
  obtain ⟨i, h, rfl, hkey, -⟩ := deskWithKey_eq_some_iff.1 hdesk
  exact ⟨by omega, h, by simpa [deskAt, h] using hkey⟩

/-- A desk that keeps its key is still the one that holds it. -/
theorem deskWithKey_setDesk (hdesk : deskWithKey s k = some d) {y : Desk} (hkey : y.key = some k) : deskWithKey (setDesk d y s) k = some d := by
  obtain ⟨i, h, rfl, -, hfirst⟩ := deskWithKey_eq_some_iff.1 hdesk
  refine deskWithKey_eq_some_iff.2 ⟨i, by simpa [setDesk] using h, rfl, by simpa [setDesk] using hkey, fun j hj => ?_⟩
  have hne : i ≠ j := by omega
  simpa [setDesk, hne] using hfirst j hj

theorem lapseDesk_lapsed (hrun : s.sys.phase = .running) (hdesk : deskWithKey s k = some d) (hinn : (deskAt s d).state = .inn) :
    lapseDesk k s = flagged .deskEvent ((setDesk d { deskAt s d with state := .lapsed, allowance := 0, last := .answer .lapsed } s).onClu
      fun c => { c with cnt := { c.cnt with lapsedDesks := bump c.cnt.lapsedDesks } }) := by
  simp only [lapseDesk, hdesk, hinn, true_or, if_true]
  exact raise_running (State.onClu _ (setDesk _ _ s)) _ hrun

/-- R153: the key's desk is LAPSED without its allowance, and shows the node of the answer. -/
def deskLapsed (d node : Nat) (s : State) : State :=
  flagged .deskEvent ((setDesk d { deskAt s d with state := .lapsed, allowance := 0, home := some node, last := .answer .lapsed } s).onClu fun c =>
    { c with cnt := { c.cnt with lapsedDesks := bump c.cnt.lapsedDesks } })

theorem deskFollows_deskLapsed (hkind : post.kind = .draw) (hkey : postHoldKey post = some k) (hrun : s.sys.phase = .running)
    (hdesk : deskWithKey s k = some d) (hinn : (deskAt s d).state = .inn) (hhome : (deskAt s d).home.isSome = true) :
    deskFollows post .lapsed node s = deskLapsed d node s := by
  obtain ⟨hlow, hhigh, hheld⟩ := deskWithKey_range hdesk
  have hat : deskAt (setDesk d { deskAt s d with home := some node } s) d = { deskAt s d with home := some node } :=
    deskAt_setDesk_self hlow hhigh
  rw [deskFollows_lapsed hkind hkey, followHome_home hdesk hhome,
    lapseDesk_lapsed (s := setDesk d _ s) hrun (deskWithKey_setDesk (y := { deskAt s d with home := some node }) hdesk hheld) (by rw [hat, hinn]),
    hat, setDesk_setDesk]
  rfl

end

section
variable {x : Sale} {e : Entry} {p : Posting} {k : Ident} {d node : Nat}
  (hfind : findSale s n = some x) (hstays : x.removing = false) (hlist : ListOpen s) (hrole : s.port.role = some .clock)
include hfind hstays hlist hrole

theorem unitOutcome_saleDone (href : e.ref = .salePart n .sale) (hbody : e.body = .post p) (hkind : p.kind = .sale)
    (hpending : partToBe x .sale = .pending) (ty m : Nat) (cs : List (Nat × Nat)) :
    unitOutcome e (.answer .done (.counts ((ty, m) :: cs)) node) s =
      saleUpdateListed n (.part .sale .done (some m) (some e.seq)) (onSale n (noteUpdate (.part .sale .done (some m) (some e.seq))) s) := by
  have hpost : e.body.posting.getD emptyPosting = p := by rw [hbody]; rfl
  have hfollow := deskFollows_other (hkind.trans_ne (by decide)) AnsCode.done node s
  have hpart : partOf .sale (.answer .done (.counts ((ty, m) :: cs)) node) = (.done, some m) := rfl
  rw [unitOutcome_salePart href hrole, hpost, salePartOutcome_answer hfollow hfind hpending nofun hpart nofun]
  exact updateSale_listed hlist hfind hstays _

theorem unitOutcome_saleFailed (href : e.ref = .salePart n .sale) (hpending : partToBe x .sale = .pending) (last : LastAns) :
    unitOutcome e (.failed last) s =
      saleUpdateListed n (.part .sale .failed none none) (onSale n (noteUpdate (.part .sale .failed none none)) s) := by
  rw [unitOutcome_salePart href hrole, salePartOutcome_failed hfind hpending nofun]
  exact updateSale_listed hlist hfind hstays _

theorem unitOutcome_reportFailed (href : e.ref = .salePart n .report) (hpending : partToBe x .report = .pending) (last : LastAns) :
    unitOutcome e (.failed last) s = saleUpdateListed n (.part .report .failed none none)
      (onSale n (fun y => noteUpdate (.part .report .failed none none) { y with reissue := some 15000 }) s) := by
  rw [unitOutcome_salePart href hrole, salePartOutcome_reportFailed hfind hpending]
  exact updateSale_onSale (f := fun y => { y with reissue := some 15000 }) hlist hfind (fun _ => rfl) hstays _

section
variable (href : e.ref = .salePart n .draw) (hbody : e.body = .post p) (hkind : p.kind = .draw) (hkey : postHoldKey p = some k)
  (hpending : partToBe x .draw = .pending) (hdesk : deskWithKey s k = some d) (hhome : (deskAt s d).home.isSome = true)
include href hbody hkind hkey hpending hdesk hhome

theorem unitOutcome_drawLapsed (hrun : s.sys.phase = .running) (hinn : (deskAt s d).state = .inn) :
    unitOutcome e (.answer .lapsed .none node) s = saleUpdateListed n (.part .draw .lapsed none (some e.seq))
      (onSale n (noteUpdate (.part .draw .lapsed none (some e.seq))) (deskLapsed d node s)) := by
  have hpost : e.body.posting.getD emptyPosting = p := by rw [hbody]; rfl
  have hfollow := deskFollows_deskLapsed (node := node) hkind hkey hrun hdesk hinn hhome
  have hfind' : findSale (deskLapsed d node s) n = some x := hfind
  rw [unitOutcome_salePart href hrole, hpost, salePartOutcome_answer hfollow hfind' hpending nofun rfl nofun]
  exact updateSale_listed (s := deskLapsed d node s) hlist hfind' hstays _

theorem unitOutcome_drawDone {c : AnsCode} (hc : c = .done ∨ c = .doneAlready) :
    unitOutcome e (.answer c .none node) s = saleUpdateListed n (.part .draw .done none (some e.seq))
      (onSale n (noteUpdate (.part .draw .done none (some e.seq))) (setDesk d { deskAt s d with home := some node } s)) := by
  have hpost : e.body.posting.getD emptyPosting = p := by rw [hbody]; rfl
  have hfollow (c : AnsCode) (hc : c ≠ .lapsed) : deskFollows p c node s = setDesk d { deskAt s d with home := some node } s :=
    (deskFollows_draw hkind hkey hc).trans (followHome_home hdesk hhome)
  have hfind' : findSale (setDesk d { deskAt s d with home := some node } s) n = some x := hfind
  have hpart : partOf .draw (.answer c .none node) = (.done, none) := by obtain rfl | rfl := hc <;> rfl
  have hne : c ≠ .lapsed := by obtain rfl | rfl := hc <;> nofun
  rw [unitOutcome_salePart href hrole, hpost, salePartOutcome_answer (st := .done) (hfollow c hne) hfind' hpending nofun hpart nofun]
  exact updateSale_listed (s := setDesk d _ s) hlist hfind' hstays _

end

end

/-! ### The end of an update, and of the removal (R161, R163) -/

theorem removeIfCollected_kept {x : Sale} (hfind : findSale s n = some x) (hkept : x.entry.collected = false) : removeIfCollected n s = s := by
  simp only [removeIfCollected, hfind, hkept, Bool.false_and, Bool.false_eq_true, if_false]

/-- R163: a collected sale without a PENDING part has its record removed. -/
theorem removeIfCollected_placed {x : Sale} (hfind : findSale s n = some x) (hcollected : x.entry.collected = true)
    (hdraw : x.entry.drawPart ≠ .pending) (hsale : x.entry.salePart ≠ .pending) (hreport : x.entry.reportPart ≠ .pending)
    (hstays : x.removing = false) (hlist : ListOpen s) :
    removeIfCollected n s = listed ⟨.saleRemove n, .removal (.sale n)⟩ (onSale n (fun y => { y with removing := true }) s) := by
  have hdue : (x.entry.collected && x.entry.drawPart != .pending && x.entry.salePart != .pending && x.entry.reportPart != .pending &&
      !x.removing) = true := by simp [hcollected, hdraw, hsale, hreport, hstays]
  simp only [removeIfCollected, hfind, hdue, if_true]
  exact listOpen_placeRemoval (s := onSale n _ s) hlist (o := .saleRemove n) nofun _

theorem saleUpdated_part {x : Sale} (hfind : findSale s n = some x) (hkept : x.entry.collected = false) (hrun : s.sys.phase = .running)
    (p : SalePart) (st : PartState) (m : Option Nat) :
    saleUpdated n (.part p st m none) .done s = saleTold n (.part p st) s := by
  simp only [saleUpdated, saleEvent_running hrun]
  exact removeIfCollected_kept (s := saleTold n _ s) hfind hkept

theorem saleUpdated_partTaken {x : Sale} {y : Entry} {p : Posting} (hfind : findSale s n = some x) (hkept : x.entry.collected = false)
    (hrun : s.sys.phase = .running) (hended : Ended y p s) (part : SalePart) (st : PartState) (m : Option Nat) :
    saleUpdated n (.part part st m (some y.seq)) .done s = outcomeTaken y p (saleTold n (.part part st) s) := by
  obtain ⟨hentry, hstate, hbody, hremoving, hlist⟩ := hended
  have htaken : placeOutRemoval y.seq (saleTold n (.part part st) s) = outcomeTaken y p (saleTold n (.part part st) s) :=
    placeOutRemoval_ended (s := saleTold n _ s) hentry hstate hbody hremoving hlist
  simp only [saleUpdated, saleEvent_running hrun, htaken]
  exact removeIfCollected_kept (s := outcomeTaken y p (saleTold n _ s)) hfind hkept

/-- R160: a mark that fails is placed again 1,000 ms later. -/
theorem saleUpdated_postedFailed {r : StoreRes} (hr : r ≠ .done) (hrun : s.sys.phase = .running) :
    saleUpdated n .posted r s = saleTold n .updateFailed (onSale n (fun y => { y with redo := y.redo ++ [⟨.posted, 1000⟩] }) s) := by
  have hagain : saleUpdated n .posted r s =
      saleEvent n .updateFailed (onSale n (fun y => { y with redo := y.redo ++ [⟨.posted, 1000⟩] }) s) := by
    cases r with
    | done => exact absurd rfl hr
    | full | fault => rfl
  exact hagain.trans (saleEvent_running (s := onSale n _ s) hrun n .updateFailed)

theorem dropAsk_idle {ref : Ref} (hasks : ∀ q ∈ s.exc.asks, q.ref ≠ ref) (hjobs : s.exc.jobs = []) (hwork : s.exc.work = none) :
    dropAsk ref s = s := by
  have hsame : s.exc.asks.filter (fun r => r.ref != ref) = s.exc.asks := List.filter_eq_self.2 fun q hq => by simpa using hasks q hq
  obtain ⟨_, _, _, _, ⟨⟩, _⟩ := s
  simp_all [dropAsk, State.onExc]

theorem saleRemoved_told (hasks : ∀ q ∈ s.exc.asks, q.ref ≠ .saleReissue n) (hjobs : s.exc.jobs = []) (hwork : s.exc.work = none)
    (hrun : s.sys.phase = .running) :
    saleRemoved n s = saleTold n .removed (s.onClu fun c => { c with sales := c.sales.filter fun x => x.entry.number != n }) := by
  rw [saleRemoved, dropAsk_idle hasks hjobs hwork]
  exact saleEvent_running (s := s.onClu _) hrun n .removed

end

/-- Settles O57: each retry, outcome and end of a commit by the lemma on its function, with the room it needs on the store request list. -/
theorem clockRetries : Obligations.ClockRetries := by
  unfold Obligations.ClockRetries
  intro s
  refine ⟨fun lot d hclaim hclean hlist => ?_, fun lot hclaim hclean hlist => ?_, fun d hdue hhead hlist => ?_, fun r hsettling hlist => ?_,
    fun n e c hfind hredo hstays hlist => ?_, fun n e q qs hfind hdue hstays hplace hlist => ?_, fun n e w hfind hwait hw hready hlist => ?_,
    fun n e d q qs hfind hwait hepoch hfree hopen hhead herase hroom hrun => ?_,
    fun r d p p' q q' q'' qs hwork hfree hjobs hentries hn hepoch hnumber hhead hrole herase hroom => ?_, fun hrole hrun => ⟨?_, ?_, ?_, ?_, ?_⟩⟩
  · exact congrArg Host.Outcome.next (queueRetry_claim hclaim hclean hlist)
  · exact congrArg Host.Outcome.next (queueRetry_clean hclaim hclean hlist)
  · exact congrArg Host.Outcome.next (lotEndRetry_listed hdue hhead hlist)
  · exact congrArg Host.Outcome.next (saleLogRetry_listed hsettling hlist)
  · exact congrArg Host.Outcome.next (saleUpdateRetry_listed hfind hredo hstays hlist)
  · exact congrArg Host.Outcome.next (reportReissue_listed hfind hdue hstays hplace hlist)
  · exact congrArg Host.Outcome.next (saleRequestRetry_draw hfind (hwait.trans (congrArg (fun w => [w]) hw)) hready hlist)
  · have hasked := askSalePosts_exhausted (s := s.onClu fun c => { c with reqWait := [] }) hfind hepoch hfree hopen hhead
      ⟨herase, Nat.le_of_lt_succ (Nat.add_lt_add_right hroom 3)⟩ hrun
    exact congrArg Host.Outcome.next ((saleRequestRetry_due (p := none) hfind hwait).trans hasked)
  · have hended := storeOutcome_salePosts hwork hfree hjobs hepoch hnumber hhead ⟨herase, Nat.le_of_lt_succ (Nat.add_lt_add_right hroom 2)⟩
    obtain ⟨hcount, hstand⟩ := saleEntries_stand (s := s.onExc fun x => { x with work := none }) (r := r) (p := p) (p' := p') (qs := qs) hentries hn
    simp only [saleEntries, List.mem_cons, List.not_mem_nil, or_false, forall_eq_or_imp, forall_eq, soldItem] at hstand
    obtain ⟨hdraw, hsale, hreport⟩ := hstand
    simp only [hended]
    exact ⟨rfl, rfl, hcount, hdraw, hsale, hreport, rfl, List.append_assoc ..⟩
  · intro lot g hclaim
    refine ⟨fun e href _ => ⟨fun d node hlist => ?_, fun c d node hc => ?_, fun last => ?_⟩, fun d hgranted => ⟨?_, fun r hr => ?_⟩⟩
    · exact (unitOutcome_claim href hrole _).trans (claimOutcome_granted hclaim hlist d node)
    · exact (unitOutcome_claim href hrole _).trans (claimOutcome_taken hclaim hc d node)
    · exact (unitOutcome_claim href hrole _).trans (claimOutcome_failed hclaim hrun last)
    · exact claimCommitted_done hclaim hgranted hrun
    · exact claimCommitted_failed hclaim hgranted hr
  · intro lot
    refine ⟨lotEnded_done hrun lot, fun r hr => lotEnded_failed hr lot, ?_, fun r hr => ?_⟩
    · obtain ⟨-, hcleaned⟩ | ⟨hr, -⟩ := queueCleaned_cases lot .done s
      · exact hcleaned
      · exact absurd rfl hr
    · obtain ⟨rfl, -⟩ | ⟨-, hcleaned⟩ := queueCleaned_cases lot r s
      · exact absurd rfl hr
      · exact hcleaned
  · exact fun x hsettling => ⟨saleLogged_done hsettling hrun, saleLogged_fault hsettling hrun⟩
  · intro n x e hfind hstays hlist
    refine ⟨fun p ty m cs node href hbody hkind hpending => ?_, fun p last href _ hpending => ?_,
      fun p k d node href hbody hkind hkey hpending hdesk hinn hhome _ => ?_,
      fun p k c d node href hbody hkind hkey hpending hdesk hhome hc => ?_, fun last sold href _ hpending => ?_,
      fun hkept p st m => ?_, fun y p st m hkept hended part => ?_, fun r hr => ?_, fun hcollected hdraw hsale hreport => ?_⟩
    · exact unitOutcome_saleDone hfind hstays hlist hrole href hbody hkind hpending ty m cs
    · exact unitOutcome_saleFailed hfind hstays hlist hrole href hpending last
    · have hlapsed := unitOutcome_drawLapsed (node := node) hfind hstays hlist hrole href hbody hkind hkey hpending hdesk hhome hrun hinn
      exact ⟨_, hlapsed, rfl, rfl, rfl, rfl⟩
    · exact unitOutcome_drawDone hfind hstays hlist hrole href hbody hkind hkey hpending hdesk hhome hc
    · exact unitOutcome_reportFailed hfind hstays hlist hrole href hpending last
    · exact saleUpdated_part hfind hkept hrun p st m
    · exact saleUpdated_partTaken hfind hkept hrun hended part st m
    · exact saleUpdated_postedFailed hr hrun
    · exact removeIfCollected_placed hfind hcollected hdraw hsale hreport hstays hlist
  · exact fun n r hasks hjobs hwork => saleRemoved_told hasks hjobs hwork hrun

end Sys2Proof.Machine
end

section
/-! The Ice Meter up to its auger: ORDER, the outcome of an order's hold, and what switches the auger off (O58). -/

namespace Sys2Proof.Machine
open Sys2Proof

section
variable {s : State} {o : OrderRec}

/-! ### The end of an order (R177, R180) -/

/-- The ice counters once an order has ended. -/
def endCounted (c : OrderCode) (n : IcmCounters) : IcmCounters :=
  { n with
    done := if c = .done then bump n.done else n.done
    failed := if c = .done ∨ c = .cancelled then n.failed else bump n.failed
    cancelled := if c = .cancelled then bump n.cancelled else n.cancelled }

/-- The Ice Meter without an order in hand, the ended one its result. -/
def orderEnded (c : OrderCode) (o : OrderRec) (m : Icm) : Icm :=
  { idleIcm m with result := some (c, o), cnt := endCounted c m.cnt }

theorem endOrder_running (horder : s.icm.order = some o) (hrun : s.sys.phase = .running) (c : OrderCode) :
    endOrder c s = flagged .iceDone (s.onIcm (orderEnded c o)) := by
  simp only [endOrder, horder]
  exact raise_running (s.onIcm (orderEnded c o)) .iceDone hrun

/-! ### A port command of the Ice Meter -/

theorem onIcm_carryAnswer (f : Icm → Icm) (s : State) : (carryAnswer s).onIcm f = carryAnswer (s.onIcm f) := by
  rw [carryAnswer_eq, carryAnswer_eq]
  rfl

theorem flagged_carryAnswer (f : Flag) (s : State) : flagged f (carryAnswer s) = carryAnswer (flagged f s) := by
  rw [carryAnswer_eq, carryAnswer_eq]
  rfl

theorem augerRuns_carryAnswer (s : State) : augerRuns (carryAnswer s) = augerRuns s := by simp only [augerRuns, carryAnswer_icm]

/-! ### The checks of an ORDER (R168) -/

theorem orderTerms_carryAnswer (s : State) : orderTerms (carryAnswer s) = orderTerms s := by simp [orderTerms, State.lineActive]

theorem orderTerms_notConfigured (h : s.port.cfg.tariff = none ∨ s.port.cfg.gpp = none) : orderTerms s = .error .notConfigured := by
  obtain h | h := h <;> simp [orderTerms, h]

section
variable {tariff gpp : Nat} (htariff : s.port.cfg.tariff = some tariff) (hgpp : s.port.cfg.gpp = some gpp)
include htariff hgpp

theorem orderTerms_notActive (hline : s.lif.state ≠ .active) : orderTerms s = .error .notActive := by
  simp [orderTerms, htariff, hgpp, State.lineActive, hline]

theorem orderTerms_busy (hline : s.lif.state = .active) (hbusy : s.icm.state ≠ .idle) : orderTerms s = .error .busy := by
  simp [orderTerms, htariff, hgpp, State.lineActive, hline, hbusy]

theorem orderTerms_eStop (hline : s.lif.state = .active) (hidle : s.icm.state = .idle) (hlow : s.sys.estopLow = true) :
    orderTerms s = .error .eStop := by
  simp [orderTerms, htariff, hgpp, State.lineActive, hline, hidle, hlow]

theorem orderTerms_ok (hline : s.lif.state = .active) (hidle : s.icm.state = .idle) (hhigh : s.sys.estopLow = false) :
    orderTerms s = .ok (tariff, gpp) := by
  simp [orderTerms, htariff, hgpp, State.lineActive, hline, hidle, hhigh]

end

section
variable {f g : Field} {a q : Nat} {less : Bool} (h : TakenBy .ice s)
include h

theorem exec_order_badValue (hbad : readBoat f = none ∨ readKg g = none) : exec (.order true f g less) s = .next (answered .badValue .none s) := by
  have howner : orderOwner f g less (carryAnswer s) = refuse .badValue (carryAnswer s) := by
    obtain hbad | hbad := hbad
    · simp only [orderOwner, hbad]
    · cases hboat : readBoat f with
      | none => simp only [orderOwner, hboat]
      | some a => simp only [orderOwner, hboat, hbad]
  exact congrArg Host.Outcome.next (frame_refused h.1 (.inr h.2.symm) howner)

variable (hboat : readBoat f = some a) (hkg : readKg g = some q)
include hboat hkg

theorem exec_order_refused {c : PCode} (hterms : orderTerms s = .error c) :
    exec (.order true f g less) s = .next (answered c .none s) := by
  have howner : orderOwner f g less (carryAnswer s) = refuse c (carryAnswer s) := by
    simp only [orderOwner, hboat, hkg, orderTerms_carryAnswer, hterms]
  exact congrArg Host.Outcome.next (frame_refused h.1 (.inr h.2.symm) howner)

theorem exec_order_accepted {tariff gpp : Nat} {t : State} (hterms : orderTerms s = .ok (tariff, gpp))
    (hbegun : beginOrder { account := a, kg := q, acceptLess := less, tariff := tariff, gpp := gpp } (carryAnswer s) = carryAnswer t) :
    exec (.order true f g less) s = .next (answered .accepted .none t) := by
  have howner : orderOwner f g less (carryAnswer s) = (carryAnswer t, ⟨.accepted, .none⟩) := by
    simp only [orderOwner, hboat, hkg, orderTerms_carryAnswer, hterms, hbegun, finish]
  exact congrArg Host.Outcome.next (frame_effect h.1 _ (.inr h.2.symm) _ _ _ howner)

end

/-! ### RESOLVING begins (R168, R169) -/

/-- The Ice Meter with an accepted order, whose LOCATE has not been created. -/
def orderResolving (o : OrderRec) (m : Icm) : Icm :=
  { m with state := .resolving, order := some o, locSeq := none, cnt := { m.cnt with accepted := bump m.cnt.accepted } }

theorem beginOrder_noRoom (hfull : openPlaces s.exc = 0) : beginOrder o s = (s.onIcm (orderResolving o)).onExc fun x =>
    { x with asks := x.asks ++ [locateReq .orderLocate o.account false] } :=
  askUnit_noRoom (s := s.onIcm (orderResolving o)) hfull

theorem orderLocateAsked_resolving (q : Nat) (o : OrderRec) (x : Exc) (l : Lif) (s : State) :
    orderLocateAsked q { s with exc := x, lif := l, icm := orderResolving o s.icm } =
      { s with exc := x, lif := l, icm := { orderResolving o s.icm with locSeq := some q } } := rfl

theorem beginOrder_searches {q : Nat} {qs : List Nat} (hplace : PlaceOpen q qs s) (hline : LineOpen s) (hbook : accountOf s o.account = none)
    (hmap : mapFind s.exc.homeMap o.account = none) (hother : ∀ x ∈ s.exc.entries, x.account ≠ some o.account) :
    ∃ x, x.free = qs ∧ beginOrder o s = { s with
      exc := x
      lif := (queued (newMsg .request 0 q (.request (some o.account) .locate) .exc s.exc.tok) s).lif
      icm := { orderResolving o s.icm with locSeq := some q } } := by
  obtain ⟨x, hfree, hasked⟩ := askUnit_locateSearches (s := s.onIcm (orderResolving o)) (ref := .orderLocate) (openIfNone := false)
    hplace hline hbook hmap hother
  exact ⟨x, hfree, hasked.trans (orderLocateAsked_resolving q o x _ s)⟩

/-! ### What stops an order (R173, R178) -/

/-- The Ice Meter once the auger has been switched off with a cause: coasting begins. -/
def augerOff (c : StopCause) (count : IcmCounters → IcmCounters) (m : Icm) : Icm :=
  { m with
    adrive := false, stallT := none, coastT := some 2000, cnt := count m.cnt
    order := m.order.map fun o => { o with augerOn := false, cause := some c } }

theorem augerRuns_dispensing (hruns : augerRuns s = true) : s.icm.state = .dispensing := by
  simp only [augerRuns, Bool.and_eq_true, beq_iff_eq] at hruns
  exact hruns.1

section
variable (c : StopCause) (count : IcmCounters → IcmCounters)

theorem stopOrder_auger (hruns : augerRuns s = true) : stopOrder c count s = s.onIcm (augerOff c count) := by
  simp only [stopOrder, augerRuns_dispensing hruns, hruns, if_true]
  rfl

theorem stopOrder_nothing (h : s.icm.state = .idle ∨ s.icm.state = .settling ∨ (s.icm.state = .dispensing ∧ augerRuns s = false)) :
    stopOrder c count s = s := by
  obtain hidle | hsettling | ⟨hdispensing, hstill⟩ := h
  · simp only [stopOrder, hidle]
  · simp only [stopOrder, hsettling]
  · simp only [stopOrder, hdispensing, hstill, Bool.false_eq_true, if_false]

/-- R178: nothing of an order that has not reached the auger waits at the EXC, so that its end is all. -/
theorem stopOrder_cancels (hstate : s.icm.state = .resolving ∨ s.icm.state = .holding) (horder : s.icm.order = some o) (hasks : s.exc.asks = [])
    (hjobs : s.exc.jobs = []) (hwork : s.exc.work = none) (hrun : s.sys.phase = .running) :
    stopOrder c count s = flagged .iceDone (s.onIcm (orderEnded .cancelled o)) := by
  have hdropped (ref : Ref) : dropAsk ref s = s := dropAsk_idle (fun q hq => by simp [hasks] at hq) hjobs hwork
  have hcancelled : cancelOrder s = flagged .iceDone (s.onIcm (orderEnded .cancelled o)) := by
    rw [cancelOrder, hdropped, hdropped, endOrder_running horder hrun]
  obtain hstate | hstate := hstate
  · simp only [stopOrder, hstate, hcancelled]
  · simp only [stopOrder, hstate, hcancelled]

end

theorem exec_stop {t : State} (h : TakenBy .ice s) (hstop : stopOrder .stopped countStop (carryAnswer s) = carryAnswer t) :
    exec (.stop true) s = .next (answered .done .none t) :=
  congrArg Host.Outcome.next (frame_effect h.1 _ (.inr h.2.symm) _ _ _ (congrArg (finish .done) hstop))

theorem estopFalls_alreadyLow (hlow : s.sys.estopLow = true) : estopFalls s = s := by simp only [estopFalls, hlow, if_true]

section
variable (hhigh : s.sys.estopLow = false)
include hhigh

theorem estopFalls_elsewhere (hrole : s.port.role ≠ some .ice) : estopFalls s = s.onSys fun y => { y with estopLow := true } := by
  simp [estopFalls, hhigh, State.inService, hrole]

theorem estopFalls_ice (hrole : s.port.role = some .ice) :
    estopFalls s = stopOrder .eStop countEmergency (s.onSys fun y => { y with estopLow := true }) := by
  simp [estopFalls, hhigh, State.inService, hrole]

end

theorem exec_stallTimer_stalled (hdue : s.icm.stallT = some 0) (hruns : augerRuns s = true) :
    exec .stallTimer s = .next (s.onIcm (augerOff .stalled countStall)) := by
  have hdue' : (due s.icm.stallT && augerRuns s) = true := by simp [hdue, hruns]
  exact congrArg Host.Outcome.next (if_pos hdue')

/-! ### The outcome of the order's hold (R170, R171, R178) -/

/-- A RELEASE of the Ice Meter (R171, R178). -/
def iceRelease (k : Ident) (a home : Nat) : NewEntry := ⟨.release k, .icmRelease, some a, some home, false⟩

theorem askRelease_ice {k : Ident} {a home q : Nat} {qs : List Nat} (hplace : PlaceOpen q qs s) :
    askRelease .icmRelease k a (some home) s = entryMade q qs (iceRelease k a home) s :=
  congrArg Prod.fst (takeCreate_addressed (i := iceRelease k a home) rfl nofun rfl hplace)

theorem unitOutcome_orderHold {e : Entry} {k : Ident} {amt life a : Nat} {less : Bool} (href : e.ref = .orderHold)
    (hbody : e.body = .hold k amt less life) (hacct : e.account = some a) (hrole : s.port.role = some .ice) (out : ExcOut) :
    unitOutcome e out s = orderHoldOutcome k a e.dest out s := by
  have hservice : unitInService s .orderHold = true := by simp [unitInService, Ref.role, State.inService, hrole]
  simp only [unitOutcome, href, hbody, hservice, Bool.not_true, Bool.false_eq_true, if_false, hacct]
  rfl

/-- The order with its grant and the target that the grant pays for (R171). -/
def orderGranted (o : OrderRec) (c : AnsCode) (g node : Nat) : OrderRec :=
  { o with home := some node, granted := some g, grantCode := some c, checkpoint := 0
           targetPulses := some (targetPulses g o.tariff o.gpp), targetGrams := some (targetGrams g o.tariff o.gpp) }

theorem takeGrant_recorded {g : Nat} (htarget : targetPulses g o.tariff o.gpp ≠ 0) (hlist : ListOpen s) (c : AnsCode) (node : Nat) :
    takeGrant o c g node s = listed ⟨.iceCreate (orderGranted o c g node), .group [.iceCreate (orderGranted o c g node)]⟩
      (s.onIcm fun m => { m with order := some (orderGranted o c g node) }) := by
  simp only [takeGrant, htarget, if_false]
  exact listOpen_placeGroup (s := s.onIcm _) hlist (o := .iceCreate _) nofun _

/-- R171: a grant that pays for no pulse is released, and the order ends. -/
theorem takeGrant_zeroTarget {k : Ident} {g q : Nat} {qs : List Nat} (htarget : targetPulses g o.tariff o.gpp = 0) (hkey : o.key = some k)
    (hplace : PlaceOpen q qs s) (hrun : s.sys.phase = .running) (c : AnsCode) (node : Nat) : takeGrant o c g node s =
      flagged .iceDone ((entryMade q qs (iceRelease k o.account node) s).onIcm (orderEnded .zeroTarget (orderGranted o c g node))) := by
  have hreleased := askRelease_ice (s := s.onIcm fun m => { m with order := some (orderGranted o c g node) }) (k := k) (a := o.account)
    (home := node) hplace
  have hended := endOrder_running (o := orderGranted o c g node)
    (s := entryMade q qs (iceRelease k o.account node) (s.onIcm fun m => { m with order := some (orderGranted o c g node) })) rfl hrun .zeroTarget
  cases o
  cases hkey
  exact (if_pos htarget).trans ((congrArg (endOrder .zeroTarget) hreleased).trans hended)

section
variable {k : Ident} {a : Nat} {dest : Option Nat} (hstate : s.icm.state = .holding) (horder : s.icm.order = some o) (hkey : o.key = some k)
include hstate horder hkey

theorem orderHoldOutcome_granted {c : AnsCode} (hc : c = .granted ∨ c = .grantedLess) (g node : Nat) :
    orderHoldOutcome k a dest (.answer c (.amount g) node) s = takeGrant o c g node s := by
  obtain rfl | rfl := hc
  · simp only [orderHoldOutcome, hstate, horder, hkey, if_true]
  · simp only [orderHoldOutcome, hstate, horder, hkey, if_true]

theorem orderHoldOutcome_refused (d : AnsData) (node : Nat) :
    orderHoldOutcome k a dest (.answer .refusedFunds d node) s = endOrder .refusedFunds s ∧
      orderHoldOutcome k a dest (.answer .refusedNoRoom d node) s = endOrder .refusedNoRoom s ∧
      orderHoldOutcome k a dest (.answer .unknown d node) s = endOrder .unknown s := by
  simp only [orderHoldOutcome, hstate, horder, hkey, if_true, and_self]

theorem orderHoldOutcome_noHome : orderHoldOutcome k a dest .noHome s = endOrder .unknown s := by
  simp only [orderHoldOutcome, hstate, horder, hkey, if_true]

theorem orderHoldOutcome_failed {home q : Nat} {qs : List Nat} (hplace : PlaceOpen q qs s) (last : LastAns) :
    orderHoldOutcome k a (some home) (.failed last) s = endOrder .failed (entryMade q qs (iceRelease k a home) s) := by
  simp only [orderHoldOutcome, hstate, horder, hkey, if_true, askRelease_ice hplace]

end

/-! ### The end of the ICE ORDER record's creation (R171, R172, R178) -/

section
variable (hstate : s.icm.state = .holding) (horder : s.icm.order = some o)
include hstate horder

theorem iceCreated_done : iceCreated o .done s = s.onIcm fun m => { m with
    state := .dispensing, order := some { o with metered := true, augerOn := true, pulses := 0, checkpoint := 0 }
    adrive := true, stallT := some 5000, coastT := none, closed := false, ckPlaced := 0 } := by
  simp only [iceCreated, hstate, horder, Option.map_some, beq_self_eq_true, Bool.and_self, if_true]

theorem iceCreated_refused {k : Ident} {home q : Nat} {qs : List Nat} (hkey : o.key = some k) (hhome : o.home = some home)
    (hplace : PlaceOpen q qs s) (i : Nat) :
    iceCreated o (.full i) s = endOrder .storeFull (entryMade q qs (iceRelease k o.account home) s) ∧
      iceCreated o (.fault i) s = endOrder .storeFault (entryMade q qs (iceRelease k o.account home) s) := by
  simp only [iceCreated, hstate, horder, Option.map_some, beq_self_eq_true, Bool.and_self, if_true, hkey, hhome, askRelease_ice hplace, and_self]

end

end

/-- Settles O58: an ORDER by the first check that fails; what stops an order by where it stands; the outcome of its hold, and the end of its
record's creation. -/
theorem iceOrders : Obligations.IceOrders := by
  intro s ended off low
  refine ⟨fun h => ⟨?_, ?_, fun hruns => ?_, fun hstate => ?_, fun o hstate horder hasks hjobs hwork => ?_⟩,
    fun hlow => congrArg Host.Outcome.next (estopFalls_alreadyLow hlow), fun hhigh => ⟨fun hcase => ?_, fun hrole hruns => ?_,
      fun o hrole hstate horder hasks hjobs hwork hrun => ?_⟩, rfl, exec_stallTimer_stalled, fun o k hrole hrun hstate horder hkey => ?_⟩
  · exact fun f g less hbad => exec_order_badValue h hbad
  · intro f g a q less hboat hkg refused
    have hrefused {c : PCode} (hterms : orderTerms s = .error c) : refused c := exec_order_refused h hboat hkg hterms
    refine ⟨fun hnone => hrefused (orderTerms_notConfigured hnone), fun tariff gpp htariff hgpp => ⟨?_, ?_, ?_, fun hline hidle hhigh => ?_⟩⟩
    · exact fun hline => hrefused (orderTerms_notActive htariff hgpp hline)
    · exact fun hline hbusy => hrefused (orderTerms_busy htariff hgpp hline hbusy)
    · exact fun hline hidle hlow => hrefused (orderTerms_eStop htariff hgpp hline hidle hlow)
    · intro o m
      have hterms := orderTerms_ok htariff hgpp hline hidle hhigh
      refine ⟨fun hfull => ?_, fun k qs hplace hbook hmap hother hopen => ?_⟩
      · refine exec_order_accepted h hboat hkg hterms ((beginOrder_noRoom ?_).trans ?_)
        · rwa [carryAnswer_exc]
        · rw [onIcm_carryAnswer, onExc_carryAnswer]
          rfl
      · obtain ⟨x, hfree, hbegun⟩ := beginOrder_searches (o := o) (s := carryAnswer s) (q := k) (qs := qs)
          (by rwa [PlaceOpen, carryAnswer_exc]) (by rwa [LineOpen, sendRoom, carryAnswer_lif])
          (by rwa [accountOf, carryAnswer_book]) (by rwa [carryAnswer_exc]) (by rwa [carryAnswer_exc])
        refine ⟨_, exec_order_accepted (t := { s with
          exc := x, lif := (queued (newMsg .request 0 k (.request (some a) .locate) .exc s.exc.tok) s).lif, icm := { m with locSeq := some k } })
          h hboat hkg hterms (hbegun.trans ?_), rfl, rfl, hfree, rfl, rfl, rfl⟩
        rw [carryAnswer_eq, carryAnswer_eq]
        rfl
  · refine exec_stop h ((stopOrder_auger _ _ ?_).trans (onIcm_carryAnswer _ s))
    rwa [augerRuns_carryAnswer]
  · refine exec_stop h (stopOrder_nothing _ _ ?_)
    rwa [augerRuns_carryAnswer, carryAnswer_icm]
  · have hcancelled := stopOrder_cancels (s := carryAnswer s) (o := o) .stopped countStop (by rwa [carryAnswer_icm]) (by rwa [carryAnswer_icm])
      (by rwa [carryAnswer_exc]) (by rwa [carryAnswer_exc]) (by rwa [carryAnswer_exc]) (by rw [carryAnswer_sys, h.1.1])
    rw [onIcm_carryAnswer, flagged_carryAnswer] at hcancelled
    exact exec_stop h hcancelled
  · refine congrArg Host.Outcome.next ?_
    by_cases hrole : s.port.role = some .ice
    · exact (estopFalls_ice hhigh hrole).trans (stopOrder_nothing (s := s.onSys _) _ _ (hcase.resolve_left (not_not_intro hrole)))
    · exact estopFalls_elsewhere hhigh hrole
  · exact congrArg Host.Outcome.next ((estopFalls_ice hhigh hrole).trans (stopOrder_auger (s := s.onSys _) _ _ hruns))
  · exact congrArg Host.Outcome.next ((estopFalls_ice hhigh hrole).trans
      (stopOrder_cancels (s := s.onSys _) _ _ hstate horder hasks hjobs hwork hrun))
  · intro failed releases
    have hended (c : OrderCode) : endOrder c s = flagged .iceDone (s.onIcm (orderEnded c o)) := endOrder_running horder hrun c
    have hreleased (c : OrderCode) (q : Nat) (qs : List Nat) (i : NewEntry) : endOrder c (entryMade q qs i s) =
        flagged .iceDone ((entryMade q qs i s).onIcm (orderEnded c o)) := endOrder_running (s := entryMade q qs i s) horder hrun c
    refine ⟨fun e amt less life a href hbody hacct => ?_, iceCreated_done hstate horder, fun i home q qs hhome hplace => ?_⟩
    · have htold := unitOutcome_orderHold (s := s) href hbody hacct hrole
      refine ⟨fun c g node hc => ⟨fun htarget hlist => ?_, fun q qs htarget hplace => ?_⟩, fun d node => ?_, fun last home q qs hdest hplace => ?_⟩
      · rw [htold, orderHoldOutcome_granted hstate horder hkey hc]
        exact takeGrant_recorded htarget hlist c node
      · rw [htold, orderHoldOutcome_granted hstate horder hkey hc]
        exact takeGrant_zeroTarget htarget hkey hplace hrun c node
      · obtain ⟨hfunds, hroom, hunknown⟩ := orderHoldOutcome_refused (a := a) (dest := e.dest) hstate horder hkey d node
        have hnoHome := orderHoldOutcome_noHome (a := a) (dest := e.dest) hstate horder hkey
        simp only [htold, hfunds, hroom, hunknown, hnoHome, hended]
        exact ⟨rfl, rfl, rfl, rfl⟩
      · rw [htold, hdest, orderHoldOutcome_failed hstate horder hkey hplace, hreleased]
        rfl
    · obtain ⟨hfull, hfault⟩ := iceCreated_refused hstate horder hkey hhome hplace i
      exact ⟨hfull.trans (hreleased ..), hfault.trans (hreleased ..)⟩

end Sys2Proof.Machine
end

section
/-! The metered auger: pulses, checkpoints, the end of coasting, and the order's SETTLE (O59). -/

namespace Sys2Proof.Machine
open Sys2Proof

section
variable {s : State} {o : OrderRec}

/-! ### The edges of APULSE (R166, R172) -/

theorem exec_augerPulse (hrole : s.port.role = some .ice) (lowMs : Nat) : exec (.augerPulse lowMs) s = .next (augerEdge lowMs s) := by
  have hservice : s.inService .ice = true := by simp [State.inService, hrole]
  exact congrArg Host.Outcome.next (if_pos hservice)

theorem augerEdge_noise {lowMs : Nat} (h : lowMs < 5 ∨ s.icm.edgeMs < 5) : augerEdge lowMs s = s.onIcm fun m =>
    { m with edgeMs := 0, cnt := { m.cnt with noise := bump m.cnt.noise } } := by
  have hlow : min lowMs s.icm.edgeMs < 5 := by omega
  exact if_pos hlow

theorem counting_eq_true_iff (m : Icm) : counting m = true ↔ m.state = .dispensing ∧ m.closed = false := by simp [counting]

section
variable {lowMs : Nat} (hlow : 5 ≤ lowMs) (hedge : 5 ≤ s.icm.edgeMs)
include hlow hedge

theorem augerEdge_stray (h : s.icm.state ≠ .dispensing ∨ s.icm.closed = true) : augerEdge lowMs s = s.onIcm fun m =>
    { m with edgeMs := 0, cnt := { m.cnt with stray := bump m.cnt.stray } } := by
  have hlong : ¬ min lowMs s.icm.edgeMs < 5 := by omega
  have hcounting : counting (s.onIcm fun m => { m with edgeMs := 0 }).icm = false := by
    refine Bool.eq_false_iff.2 fun hcounting => ?_
    obtain ⟨hstate, hcounts⟩ := (counting_eq_true_iff _).1 hcounting
    exact h.elim (fun hne => hne hstate) fun hclosed => absurd (hclosed.symm.trans hcounts) nofun
  refine (if_neg hlong).trans ?_
  simp only [hcounting]
  rfl

theorem augerEdge_counted (hstate : s.icm.state = .dispensing) (hcounts : s.icm.closed = false) (horder : s.icm.order = some o) :
    augerEdge lowMs s = countPulse o (s.onIcm fun m => { m with edgeMs := 0 }) := by
  have hlong : ¬ min lowMs s.icm.edgeMs < 5 := by omega
  have hcounting : counting (s.onIcm fun m => { m with edgeMs := 0 }).icm = true := (counting_eq_true_iff _).2 ⟨hstate, hcounts⟩
  have horder' : (s.onIcm fun m => { m with edgeMs := 0 }).icm.order = some o := horder
  refine (if_neg hlong).trans ?_
  simp only [hcounting, horder']

end

/-! ### A pulse counted (R172, R173, R175) -/

/-- R172: a pulse past 9,999,999 grams is not counted. -/
theorem countPulse_overRange (hover : 9999999 < (o.pulses + 1) * o.gpp) : countPulse o s = s.onIcm fun m =>
    { m with stallT := if o.augerOn then some 5000 else m.stallT, cnt := { m.cnt with overRange := bump m.cnt.overRange } } := by
  simp only [countPulse, hover, if_true]
  cases o.augerOn <;> rfl

/-- The Ice Meter with one pulse more, the auger as it was. -/
def pulseTaken (o : OrderRec) (m : Icm) : Icm :=
  { m with stallT := if o.augerOn then some 5000 else m.stallT, order := some { o with pulses := o.pulses + 1 } }

/-- The Ice Meter with the pulse that reaches the target: the auger is switched off (R173). -/
def targetReached (o : OrderRec) (m : Icm) : Icm :=
  { m with
    stallT := none, coastT := some 2000, adrive := false
    order := some { o with pulses := o.pulses + 1, augerOn := false, cause := some .target } }

/-- What a counted pulse does at the auger. -/
def pulseMetered (o : OrderRec) (m : Icm) : Icm :=
  if o.augerOn = true ∧ o.targetPulses = some (o.pulses + 1) then targetReached o m else pulseTaken o m

theorem pulseMetered_target (h : o.augerOn = true ∧ o.targetPulses = some (o.pulses + 1)) : pulseMetered o = targetReached o :=
  funext fun _ => if_pos h

theorem pulseMetered_short (h : ¬(o.augerOn = true ∧ o.targetPulses = some (o.pulses + 1))) : pulseMetered o = pulseTaken o :=
  funext fun _ => if_neg h

theorem pulseTaken_running (hon : o.augerOn = true) : pulseTaken o = fun m =>
    { m with stallT := some 5000, order := some { o with pulses := o.pulses + 1 } } :=
  funext fun m => by simp only [pulseTaken, hon, if_true]

theorem pulseTaken_coasting (hoff : o.augerOn = false) : pulseTaken o = fun m => { m with order := some { o with pulses := o.pulses + 1 } } :=
  funext fun m => by simp only [pulseTaken, hoff, Bool.false_eq_true, if_false]

theorem pulseMetered_running (hon : o.augerOn = true) (hshort : o.targetPulses ≠ some (o.pulses + 1)) : pulseMetered o = fun m =>
    { m with stallT := some 5000, order := some { o with pulses := o.pulses + 1 } } :=
  (pulseMetered_short fun h => hshort h.2).trans (pulseTaken_running hon)

theorem pulseMetered_coasting (hoff : o.augerOn = false) : pulseMetered o = fun m => { m with order := some { o with pulses := o.pulses + 1 } } :=
  (pulseMetered_short fun h => Bool.false_ne_true (hoff.symm.trans h.1)).trans (pulseTaken_coasting hoff)

/-- R172, R175: a counted pulse acts at the auger, and each 64th has a checkpoint placed. -/
theorem countPulse_metered (hfits : (o.pulses + 1) * o.gpp ≤ 9999999) (horder : s.icm.order = some o) : countPulse o s =
    if (o.pulses + 1) % 64 = 0 then placeCheckpoint (o.pulses + 1) (s.onIcm (pulseMetered o)) else s.onIcm (pulseMetered o) := by
  have hcounted : onOrder (fun x => { x with pulses := o.pulses + 1 }) s =
      s.onIcm fun m => { m with order := some { o with pulses := o.pulses + 1 } } := by simp only [onOrder, State.onIcm, horder, Option.map_some]
  have htaken : (if o.augerOn = true then (s.onIcm fun m => { m with order := some { o with pulses := o.pulses + 1 } }).onIcm
        fun m => { m with stallT := some 5000 }
      else s.onIcm fun m => { m with order := some { o with pulses := o.pulses + 1 } }) = s.onIcm (pulseTaken o) := by
    split
    · next hon =>
      rw [pulseTaken_running hon]
      rfl
    · next hoff => rw [pulseTaken_coasting (Bool.eq_false_iff.2 hoff)]
  have hmetered : (if (o.augerOn && o.targetPulses == some (o.pulses + 1)) = true then switchOff .target (s.onIcm (pulseTaken o))
      else s.onIcm (pulseTaken o)) = s.onIcm (pulseMetered o) := by
    by_cases htarget : o.augerOn = true ∧ o.targetPulses = some (o.pulses + 1)
    · rw [if_pos (by simpa using htarget), pulseMetered_target htarget]
      rfl
    · rw [if_neg (by simpa using htarget), pulseMetered_short htarget]
  simp only [countPulse, Nat.not_lt.2 hfits, if_false, hcounted, htaken, hmetered]

/-- The request of a checkpoint (R175). -/
def checkpointReq (k : Option Ident) (n : Nat) : Request := ⟨.iceCheckpoint k n, .group [.iceCheckpoint k n]⟩

theorem placeCheckpoint_listed (horder : s.icm.order = some o) (hnone : (s.store.pend.any isCheckpoint) = false) (hlist : ListOpen s) (n : Nat) :
    placeCheckpoint n s = listed (checkpointReq o.key n) (s.onIcm fun m => { m with ckPlaced := n }) := by
  have hplaced := placeStore_room (s := s.onIcm fun m => { m with ckPlaced := n }) (r := checkpointReq o.key n) hlist.1 hlist.2 nofun
  simp only [placeCheckpoint, horder, Option.bind_some, onIcm_store, hnone, Bool.false_eq_true, if_false]
  exact hplaced

/-- R175: a checkpoint written is that of the order with its hold key. -/
theorem checkpointEnded_done (horder : s.icm.order = some o) (n : Nat) :
    checkpointEnded o.key n .done s = s.onIcm fun m => { m with order := some { o with checkpoint := n } } := by
  simp only [checkpointEnded, onOrder, State.onIcm, horder, Option.map_some, if_true]

section
variable {lowMs : Nat} (hrole : s.port.role = some .ice) (hlow : 5 ≤ lowMs) (hedge : 5 ≤ s.icm.edgeMs) (hstate : s.icm.state = .dispensing)
  (hcounts : s.icm.closed = false) (horder : s.icm.order = some o) (hfits : (o.pulses + 1) * o.gpp ≤ 9999999) {f : Icm → Icm}
  (hmetered : pulseMetered o = f)
include hrole hlow hedge hstate hcounts horder hfits hmetered

theorem exec_augerPulse_counted : exec (.augerPulse lowMs) s = .next (if (o.pulses + 1) % 64 = 0
    then placeCheckpoint (o.pulses + 1) (s.onIcm fun m => f { m with edgeMs := 0 }) else s.onIcm fun m => f { m with edgeMs := 0 }) := by
  have hcounted := countPulse_metered (s := s.onIcm fun m => { m with edgeMs := 0 }) hfits horder
  rw [exec_augerPulse hrole, augerEdge_counted hlow hedge hstate hcounts horder, hcounted, hmetered]
  rfl

theorem exec_augerPulse_between (hbetween : (o.pulses + 1) % 64 ≠ 0) :
    exec (.augerPulse lowMs) s = .next (s.onIcm fun m => f { m with edgeMs := 0 }) := by
  rw [exec_augerPulse_counted hrole hlow hedge hstate hcounts horder hfits hmetered, if_neg hbetween]

/-- R175: the checkpoint of a 64th pulse is that of the order as the pulse leaves it. -/
theorem exec_augerPulse_checkpointed (hdue : (o.pulses + 1) % 64 = 0) (hlist : ListOpen s) (hnone : (s.store.pend.any isCheckpoint) = false)
    {x : OrderRec} (hleft : ∀ m, (f m).order = some x) (hkey : x.key = o.key) : exec (.augerPulse lowMs) s =
      .next (listed (checkpointReq o.key (o.pulses + 1)) (s.onIcm fun m => { f { m with edgeMs := 0 } with ckPlaced := o.pulses + 1 })) := by
  have hplaced := placeCheckpoint_listed (s := s.onIcm fun m => f { m with edgeMs := 0 }) (hleft _) hnone hlist (o.pulses + 1)
  rw [exec_augerPulse_counted hrole hlow hedge hstate hcounts horder hfits hmetered, if_pos hdue, hplaced, hkey]
  rfl

end

/-! ### The SETTLE asked for (R176) -/

theorem placeIceRemoval_listed (hlist : ListOpen s) : placeIceRemoval s = listed ⟨.iceRemove, .removal .iceOrder⟩ s :=
  listOpen_placeRemoval hlist (o := .iceRemove) nofun _

/-- The posting of an order's SETTLE, its identity still to come. -/
def settlePosting (o : OrderRec) (amt : Nat) (k : Ident) : Posting := ⟨default, .settle, o.account, amt, [], some (k.epoch, k.number), none⟩

theorem settleReq_eq_onePost {h : Nat} (hhome : o.home = some h) (amt : Nat) (k : Ident) :
    settleReq o amt k = onePost (.settle k) (settlePosting o amt k) h := by
  simp only [settleReq, hhome]
  rfl

theorem exec_icmSettleRetry_due (hdue : s.icm.settleT = some 0) :
    exec .icmSettleRetry s = .next (askSettle (s.onIcm fun m => { m with settleT := none })) :=
  congrArg Host.Outcome.next (if_pos (by simp [hdue]))

section
variable {k : Ident} {h amt : Nat} (horder : s.icm.order = some o) (hkey : o.key = some k) (hamt : o.settle = some amt)
include horder hkey hamt

theorem askSettle_noRoom (hfull : openPlaces s.exc = 0) : askSettle s = s.onExc fun x => { x with asks := x.asks ++ [settleReq o amt k] } := by
  have hroom : openPlaces s.exc < (settleReq o amt k).items.length := hfull ▸ Nat.one_pos
  have htaken : takeCreate (settleReq o amt k) s = (s.onExc fun x => { x with asks := x.asks ++ [settleReq o amt k] }, .noRoom) := if_pos hroom
  simp only [askSettle, horder, hkey, hamt, htaken]

variable (hhome : o.home = some h)
include hhome

theorem askSettle_asked (hready : PostReady s) (hlist : ListOpen s) : askSettle s = postAsked (.settle k) (settlePosting o amt k) h s := by
  simp only [askSettle, horder, hkey, hamt, settleReq_eq_onePost hhome, takeCreate_onePost hready hlist]

/-- R176: at EPOCH EXHAUSTED the order ends, and the removal of its record is placed. -/
theorem askSettle_exhausted (hopen : openPlaces s.exc ≠ 0) (hepoch : s.sys.epochState = .exhausted) (hrun : s.sys.phase = .running)
    (hlist : ListOpen s) : askSettle s =
      flagged .iceDone ((listed ⟨.iceRemove, .removal .iceOrder⟩ s).onIcm (orderEnded .epochExhausted o)) := by
  have hended := endOrder_running (s := listed ⟨.iceRemove, .removal .iceOrder⟩ s) horder hrun .epochExhausted
  have hasks : askSettle s = settleRefused k .epochExhausted s := by
    rw [askSettle]
    simp only [horder, hkey, hamt, settleReq_eq_onePost hhome, takeCreate_exhausted hopen hepoch]
  rw [hasks, settleRefused]
  simp only [horder, hkey, Option.bind_some, if_true, placeIceRemoval_listed hlist, hended]

end

/-! ### The end of coasting (R174, R175) -/

/-- The Ice Meter once counting has closed, the settle amount that of the counted grams. -/
def countingClosed (o : OrderRec) (m : Icm) : Icm :=
  { m with closed := true, coastT := none, order := some { o with settle := some (iceSettleAmount (o.pulses * o.gpp) o.tariff) } }

theorem exec_coastingEnd_due (hdue : s.icm.coastT = some 0) (hstate : s.icm.state = .dispensing) (hcounts : s.icm.closed = false) :
    exec .coastingEnd s = .next (closeCounting s) := by
  have hcounting : counting s.icm = true := (counting_eq_true_iff _).2 ⟨hstate, hcounts⟩
  exact congrArg Host.Outcome.next (if_pos (by simp [hdue, hcounting]))

section
variable {k : Ident} {h : Nat} (horder : s.icm.order = some o) (hkey : o.key = some k) (hhome : o.home = some h) (hready : PostReady s)
include horder hkey hhome hready

theorem closeCounting_asked (hlist : ListOpen s) (hplaced : s.icm.ckPlaced = o.pulses) : closeCounting s =
    postAsked (.settle k) (settlePosting o (iceSettleAmount (o.pulses * o.gpp) o.tariff) k) h (s.onIcm (countingClosed o)) := by
  have hasked := askSettle_asked (s := s.onIcm (countingClosed o))
    (o := { o with settle := some (iceSettleAmount (o.pulses * o.gpp) o.tariff) }) rfl hkey rfl hhome hready hlist
  simp only [closeCounting, horder, onIcm_icm, hplaced, if_true]
  exact hasked

/-- R175: the counted pulses that no checkpoint holds are placed in one before the SETTLE is asked for. -/
theorem closeCounting_checkpointed (hlist : ListTakes 2 s) (hstale : s.icm.ckPlaced ≠ o.pulses) (hnone : (s.store.pend.any isCheckpoint) = false) :
    closeCounting s = postAsked (.settle k) (settlePosting o (iceSettleAmount (o.pulses * o.gpp) o.tariff) k) h
      (listed (checkpointReq o.key o.pulses) (s.onIcm fun m => { countingClosed o m with ckPlaced := o.pulses })) := by
  have hplaced := placeCheckpoint_listed (s := s.onIcm (countingClosed o))
    (o := { o with settle := some (iceSettleAmount (o.pulses * o.gpp) o.tariff) }) rfl hnone hlist.listOpen o.pulses
  have hasked := askSettle_asked (o := { o with settle := some (iceSettleAmount (o.pulses * o.gpp) o.tariff) })
    (s := listed (checkpointReq o.key o.pulses) (s.onIcm fun m => { countingClosed o m with ckPlaced := o.pulses }))
    rfl hkey rfl hhome hready (ListTakes.listed (s := s.onIcm _) hlist _).listOpen
  simp only [closeCounting, horder, onIcm_icm, hstale, if_false]
  exact (congrArg askSettle hplaced).trans hasked

end

/-! ### The end of the SETTLE's creation (R176) -/

section
variable {k : Ident} {h amt : Nat} {p : Posting} (horder : s.icm.order = some o) (hkey : o.key = some k)
include horder hkey

theorem settleCreated_settling (hstate : s.icm.state = .dispensing) (hfresh : s.icm.restoring = false) (hlist : ListOpen s) :
    settleCreated k s = (listed ⟨.iceRemove, .removal .iceOrder⟩ s).onIcm fun m => { m with state := .settling } := by
  simp only [settleCreated, horder, Option.bind_some, hkey, if_true, hfresh, Bool.false_eq_true, if_false, hstate, placeIceRemoval_listed hlist]

theorem settleRefused_waits {c : AskRefusal} (hc : c ≠ .epochExhausted) :
    settleRefused k c s = s.onIcm fun m => { m with settleT := some 1000 } := by
  have hwaits : settleRefused k c s = if s.icm.order.bind (·.key) = some k then s.onIcm fun m => { m with settleT := some 1000 } else s := by
    cases c with
    | epochExhausted => exact absurd rfl hc
    | badDestination | storeFull | storeFault => rfl
  rw [hwaits, horder, Option.bind_some, if_pos hkey]

variable (hwork : s.exc.work = some (.create (settleReq o amt k) [p])) (hjobs : s.exc.jobs = [])
include hwork hjobs

/-- R176: the created SETTLE stands at the head of the free places, the order is SETTLING, and its record goes. -/
theorem storeOutcome_settleCreated {q : Nat} {qs : List Nat} (hhome : o.home = some h) (hfree : s.exc.free = q :: qs)
    (hstate : s.icm.state = .dispensing) (hfresh : s.icm.restoring = false) (hepoch : s.node.epoch = s.sys.epoch)
    (hnumber : s.node.nextPosting ≤ 65535) (hlist : ListOpen s) :
    storeOutcome .excWork .done s = (listed ⟨.iceRemove, .removal .iceOrder⟩ (entryMade q qs ⟨.post p, .settle k, some o.account, some h, false⟩
      (s.onExc fun x => { x with work := none }))).onIcm fun m => { m with state := .settling } := by
  rw [settleReq_eq_onePost hhome] at hwork
  have hcreated := settleCreated_settling (o := o) (s := entryMade q qs ⟨.post p, .settle k, some o.account, some h, false⟩
    (s.onExc fun x => { x with work := none })) horder hkey hstate hfresh hlist
  have hended := excWorkEnded_onePost hwork hfree hepoch hnumber
  exact hended.trans ((congrArg (runJobs jobFuel) hcreated).trans (runJobs_idle _ hjobs))

theorem storeOutcome_settleRefused {res : StoreRes} (hres : res = .full 0 ∨ res = .fault 0) : storeOutcome .excWork res s =
    (s.onExc fun x => { x with work := none }).onIcm fun m => { m with settleT := some 1000 } := by
  have hcreation : createEnded (settleReq o amt k) [p] res (s.onExc fun x => { x with work := none }) =
      settleRefused k res.refusal (s.onExc fun x => { x with work := none }) := by
    obtain rfl | rfl := hres <;> rfl
  have hcode : res.refusal ≠ .epochExhausted := by obtain rfl | rfl := hres <;> nofun
  have hwaits := settleRefused_waits (s := s.onExc fun x => { x with work := none }) horder hkey hcode
  simp only [storeOutcome, excWorkEnded, hwork, hcreation, hwaits]
  exact runJobs_idle _ hjobs

end

/-! ### The outcome of the SETTLE (R177) -/

section
variable {e : Entry} {p : Posting} {k : Ident}

theorem unitOutcome_settle (href : e.ref = .settle k) (hbody : e.body = .post p) (hrole : s.port.role = some .ice) (out : ExcOut) :
    unitOutcome e out s = placeOutRemoval e.seq (settleOutcome k p out s) := by
  have hservice : unitInService s (.settle k) = true := by simp [unitInService, Ref.role, State.inService, hrole]
  simp only [unitOutcome, href, hbody, hservice, Bool.not_true, Bool.false_eq_true, if_false, ReqBody.posting, Option.getD_some]

section
variable (horder : s.icm.order = some o) (hkey : o.key = some k) (hstate : s.icm.state = .settling) (hfresh : s.icm.restoring = false)
include horder hkey hstate hfresh

theorem settle_inHand : s.icm.state = .settling ∧ s.icm.restoring = false ∧ s.icm.order.bind (·.key) = some k :=
  ⟨hstate, hfresh, by rw [horder, Option.bind_some, hkey]⟩

theorem settleOutcome_done {c : AnsCode} (hc : c = .done ∨ c = .doneAlready) (p : Posting) (d : AnsData) (node : Nat) :
    settleOutcome k p (.answer c d node) s = endOrder .done s := by
  obtain rfl | rfl := hc
  · exact if_pos (settle_inHand horder hkey hstate hfresh)
  · exact if_pos (settle_inHand horder hkey hstate hfresh)

theorem settleOutcome_lapsed (p : Posting) (d : AnsData) (node : Nat) : settleOutcome k p (.answer .lapsed d node) s = endOrder .lapsed s :=
  if_pos (settle_inHand horder hkey hstate hfresh)

theorem settleOutcome_failed (p : Posting) (last : LastAns) : settleOutcome k p (.failed last) s = endOrder .settleFailed s :=
  if_pos (settle_inHand horder hkey hstate hfresh)

end

/-- The Ice Meter with the record of a late settle. -/
def settledLate (k : Ident) (p : Posting) (c : LateCode) (m : Icm) : Icm :=
  { m with late := some ⟨k, p.account, p.amount, c⟩, cnt := { m.cnt with lateSettles := bump m.cnt.lateSettles } }

theorem settleOutcome_late (hstate : s.icm.state ≠ .settling) (hrun : s.sys.phase = .running) (p : Posting) (out : ExcOut) :
    settleOutcome k p out s = flagged .iceDone (s.onIcm (settledLate k p (lateCode out))) :=
  (if_neg fun hhand => hstate hhand.1).trans (raise_running (s.onIcm _) .iceDone hrun)

/-- R177: the Ice Meter reports the outcome taken as it takes it, and what that leaves in the ICM leaves the entry as it was. -/
theorem unitOutcome_settleEnded {t : State} {out : ExcOut} (href : e.ref = .settle k) (hrole : s.port.role = some .ice) (hended : Ended e p s)
    (htaken : settleOutcome k p out s = t) (hstill : Ended e p t) : unitOutcome e out s = outcomeTaken e p t := by
  obtain ⟨-, -, hbody, -⟩ := hended
  obtain ⟨hentry, hstate, -, hremoving, hlist⟩ := hstill
  rw [unitOutcome_settle href hbody hrole, htaken]
  exact placeOutRemoval_ended hentry hstate hbody hremoving hlist

theorem placeOutRemoval_unended (hentry : findEntry s e.seq = some e) (hstate : e.state ≠ .doneToUnit) : placeOutRemoval e.seq s = s := by
  simp [placeOutRemoval, hentry, hstate]

end

end

/-- Settles O59: a rising edge of APULSE by whether and how it counts; the end of coasting by the checkpoint that is missing; the SETTLE asked
for, created or refused; its outcome by whether the order is SETTLING. -/
theorem iceIsMetered : Obligations.IceIsMetered := by
  intro s lowMs hrole
  refine ⟨fun hnoise => ?_, fun hlow hedge => ⟨fun hstray => ?_, fun o hstate hcounts horder hover => ?_, fun o hstate hcounts horder hfits => ?_⟩,
    fun o n horder => checkpointEnded_done horder n, fun o k h horder hkey hhome hready hlist => ⟨?_, ?_, ?_⟩,
    fun o k h amt horder hkey hhome hfresh hjobs => ⟨fun p q qs hwork hfree => ⟨?_, ?_⟩, ?_, ?_⟩,
    fun e p k href hended hrun => ⟨fun o horder hkey hstate hfresh => ⟨?_, ?_⟩, fun hstate => ⟨?_, ?_⟩⟩,
    fun e p k o last href hbody hentry hfailed hrun horder hkey hstate hfresh => ?_⟩
  · exact (exec_augerPulse hrole lowMs).trans (congrArg Host.Outcome.next (augerEdge_noise hnoise))
  · exact (exec_augerPulse hrole lowMs).trans (congrArg Host.Outcome.next (augerEdge_stray hlow hedge hstray))
  · rw [exec_augerPulse hrole, augerEdge_counted hlow hedge hstate hcounts horder, countPulse_overRange hover]
    rfl
  · refine ⟨fun hon hshort hbetween => ?_, fun hoff hbetween => ?_, fun hon htarget hbetween => ?_, fun hdue hlist hnone =>
      ⟨fun hoff => ?_, fun hon hshort => ?_, fun hon htarget => ?_⟩⟩
    · exact exec_augerPulse_between hrole hlow hedge hstate hcounts horder hfits (pulseMetered_running hon hshort) hbetween
    · exact exec_augerPulse_between hrole hlow hedge hstate hcounts horder hfits (pulseMetered_coasting hoff) hbetween
    · exact exec_augerPulse_between hrole hlow hedge hstate hcounts horder hfits (pulseMetered_target ⟨hon, htarget⟩) hbetween
    · exact exec_augerPulse_checkpointed hrole hlow hedge hstate hcounts horder hfits (pulseMetered_coasting hoff) hdue hlist hnone
        (fun _ => rfl) rfl
    · exact exec_augerPulse_checkpointed hrole hlow hedge hstate hcounts horder hfits (pulseMetered_running hon hshort) hdue hlist hnone
        (fun _ => rfl) rfl
    · exact exec_augerPulse_checkpointed hrole hlow hedge hstate hcounts horder hfits (pulseMetered_target ⟨hon, htarget⟩) hdue hlist hnone
        (fun _ => rfl) rfl
  · intro amt hdue hamt
    have hasked := askSettle_asked (s := s.onIcm fun m => { m with settleT := none }) horder hkey hamt hhome hready hlist
    exact (exec_icmSettleRetry_due hdue).trans (congrArg Host.Outcome.next hasked)
  · intro hdue hstate hcounts hplaced
    exact (exec_coastingEnd_due hdue hstate hcounts).trans
      (congrArg Host.Outcome.next (closeCounting_asked horder hkey hhome hready hlist hplaced))
  · intro hdue hstate hcounts hstale hnone hroom
    have htakes : ListTakes 2 s := ⟨hlist.1, by omega⟩
    exact (exec_coastingEnd_due hdue hstate hcounts).trans
      (congrArg Host.Outcome.next (closeCounting_checkpointed horder hkey hhome hready htakes hstale hnone))
  · intro hstate hepoch hnumber hlist
    have hcreated := storeOutcome_settleCreated horder hkey hwork hjobs hhome hfree hstate hfresh hepoch hnumber hlist
    simp only [hcreated]
    exact ⟨rfl, rfl, rfl, _, findEntry_entryMade q qs _ (s.onExc fun x => { x with work := none }), rfl, rfl, rfl, rfl⟩
  · exact fun res hres => storeOutcome_settleRefused horder hkey hwork hjobs hres
  · intro hdue hamt hfree hwork hepoch hrun hlist
    have hopen : openPlaces s.exc ≠ 0 := by
      have hpos := List.length_pos_of_ne_nil hfree
      simp only [openPlaces, hwork, hjobs, List.map_nil, List.sum_nil]
      omega
    have hexhausted := askSettle_exhausted (s := s.onIcm fun m => { m with settleT := none }) horder hkey hamt hhome hopen hepoch hrun hlist
    exact (exec_icmSettleRetry_due hdue).trans (congrArg Host.Outcome.next hexhausted)
  · rintro _ hdue hamt hfree rfl
    have hfull : openPlaces s.exc = 0 := by simp [openPlaces, hfree]
    have hwaits := askSettle_noRoom (s := s.onIcm fun m => { m with settleT := none }) horder hkey hamt hfull
    exact (exec_icmSettleRetry_due hdue).trans (congrArg Host.Outcome.next hwaits)
  · intro c d node hc
    have htaken := settleOutcome_done horder hkey hstate hfresh hc p d node
    exact unitOutcome_settleEnded href hrole hended (htaken.trans (endOrder_running horder hrun _)) hended
  · intro d node
    have htaken := settleOutcome_lapsed horder hkey hstate hfresh p d node
    exact unitOutcome_settleEnded href hrole hended (htaken.trans (endOrder_running horder hrun _)) hended
  · exact fun c d node => unitOutcome_settleEnded href hrole hended (settleOutcome_late hstate hrun p _) hended
  · exact unitOutcome_settleEnded href hrole hended (settleOutcome_late hstate hrun p _) hended
  · rw [unitOutcome_settle href hbody hrole, settleOutcome_failed horder hkey hstate hfresh, endOrder_running horder hrun]
    exact placeOutRemoval_unended (s := flagged _ (s.onIcm _)) hentry (by rw [hfailed]; nofun)

end Sys2Proof.Machine
end

section
/-! The batches of the Crate Gate up to their posting: BATCH OPEN, the tag reads, the crate pool, BATCH CLOSE and BATCH CANCEL, and the
blocked tags (O60). -/

namespace Sys2Proof.Machine
open Sys2Proof

section
variable {s : State} {b : Batch}

/-! ### A port command of the Crate Gate -/

theorem onCgt_carryAnswer (f : Cgt → Cgt) (s : State) : (carryAnswer s).onCgt f = carryAnswer (s.onCgt f) := by
  rw [carryAnswer_eq, carryAnswer_eq]
  rfl

section
variable {owner : State → State × Reply} {c : PCode} (h : TakenBy .gate s)
include h

theorem frame_gate_refused (ho : owner (carryAnswer s) = refuse c (carryAnswer s)) : frame true (some .gate) owner s = answered c .none s :=
  frame_refused h.1 (.inr h.2.symm) ho

theorem frame_gate_finished {t : State} (ho : owner (carryAnswer s) = finish c (carryAnswer t)) :
    frame true (some .gate) owner s = answered c .none t :=
  frame_effect h.1 _ (.inr h.2.symm) owner c .none ho

end

/-! ### The batch in hand, and its end (R184, R185, R191) -/

theorem batchInHand_self (hbatch : s.cgt.batch = some b) : batchInHand s s.cgt.startEpoch b.number = true := by
  simp [batchInHand, hbatch]

/-- The gate with its batch OPEN, the home found. -/
def batchOpened (b : Batch) (h : Nat) (g : Cgt) : Cgt := { g with state := .opened, batch := some { b with home := some h } }

/-- What is refunded of each item: the refunded count times the deposit that the batch carries (R191). -/
def refundsOf (b : Batch) (cs : List (Nat × Nat)) : List (Nat × Nat) := cs.map fun x => (x.1, x.2 * b.deposits.getD (x.1 - 1) 0)

/-- The gate counters once a batch has ended. -/
def batchCounted (c : BatchCode) (n : CgtCounters) : CgtCounters :=
  { n with
    done := if c = .done ∨ c = .clamped then bump n.done else n.done
    failed := if c = .done ∨ c = .clamped ∨ c = .cancelled then n.failed else bump n.failed
    cancelled := if c = .cancelled then bump n.cancelled else n.cancelled }

/-- The gate without a batch in hand, the ended one its result. -/
def batchEnded (c : BatchCode) (refunded : Option (List (Nat × Nat))) (b : Batch) (g : Cgt) : Cgt :=
  { g with
    state := .idle, batch := none, riseWaits := false, postT := none
    result := some ⟨c, { b with tags := [] }, refunded, refunded.map (refundsOf b), (refunded.map (refundsOf b)).map fun l => (l.map (·.2)).sum⟩
    cnt := batchCounted c g.cnt }

theorem endBatch_running (hbatch : s.cgt.batch = some b) (hrun : s.sys.phase = .running) (c : BatchCode) (refunded : Option (List (Nat × Nat))) :
    endBatch c refunded s = flagged .batchDone (s.onCgt (batchEnded c refunded b)) := by
  simp only [endBatch, hbatch]
  exact raise_running (s.onCgt (batchEnded c refunded b)) .batchDone hrun

section
variable (hstate : s.cgt.state = .resolving) (hbatch : s.cgt.batch = some b) (hrun : s.sys.phase = .running)
include hstate hbatch hrun

theorem batchLocated_home (h : Nat) :
    batchLocated s.cgt.startEpoch b.number (.home h) s = flagged .batchDone (s.onCgt (batchOpened b h)) := by
  have hopened : (onBatch (fun b => { b with home := some h }) s).onCgt (fun c => { c with state := .opened }) = s.onCgt (batchOpened b h) := by
    simp only [onBatch, State.onCgt, hbatch, Option.map_some]
    rfl
  simp only [batchLocated, hstate, batchInHand_self hbatch, and_self, if_true, hopened]
  exact raise_running (s.onCgt (batchOpened b h)) .batchDone hrun

theorem batchLocated_noHome :
    batchLocated s.cgt.startEpoch b.number .noHome s = flagged .batchDone (s.onCgt (batchEnded .unknown none b)) := by
  simp only [batchLocated, hstate, batchInHand_self hbatch, and_self, if_true, endBatch_running hbatch hrun]

theorem batchLocated_failed (last : LastAns) :
    batchLocated s.cgt.startEpoch b.number (.failed last) s = flagged .batchDone (s.onCgt (batchEnded .failed none b)) := by
  simp only [batchLocated, hstate, batchInHand_self hbatch, and_self, if_true, endBatch_running hbatch hrun]

end

/-- R185: the outcome of a LOCATE whose batch is no longer resolved changes nothing. -/
theorem batchLocated_stale {ep n : Nat} (h : s.cgt.state ≠ .resolving ∨ batchInHand s ep n = false) (o : ExcOut) : batchLocated ep n o s = s :=
  if_neg fun ⟨hstate, hhand⟩ => h.elim (fun hne => hne hstate) fun hnot => Bool.false_ne_true (hnot.symm.trans hhand)

/-! ### BATCH OPEN (R185) -/

theorem batchDeposits_carryAnswer (s : State) : batchDeposits (carryAnswer s) = batchDeposits s := by simp [batchDeposits, State.lineActive]

theorem batchDeposits_notConfigured (hcrates : s.port.cfg.crates = none) : batchDeposits s = .error .notConfigured := by
  simp [batchDeposits, hcrates]

section
variable {rows : List CrateRow} (hcrates : s.port.cfg.crates = some rows)
include hcrates

theorem batchDeposits_notActive (hline : s.lif.state ≠ .active) : batchDeposits s = .error .notActive := by
  simp [batchDeposits, hcrates, State.lineActive, hline]

theorem batchDeposits_busy (hline : s.lif.state = .active) (hbusy : s.cgt.state ≠ .idle) : batchDeposits s = .error .busy := by
  simp [batchDeposits, hcrates, State.lineActive, hline, hbusy]

theorem batchDeposits_ok (hline : s.lif.state = .active) (hidle : s.cgt.state = .idle) : batchDeposits s = .ok (rows.map (·.deposit)) := by
  simp [batchDeposits, hcrates, State.lineActive, hline, hidle]

end

section
variable {k : BatchKind} {f : Field} {a : Nat} (h : TakenBy .gate s)
include h

theorem exec_batchOpen_badValue {k : Option BatchKind} (hbad : k = none ∨ readAccountNo f = none) :
    exec (.batchOpen true k f) s = .next (answered .badValue .none s) := by
  have howner : batchOpenOwner k f (carryAnswer s) = refuse .badValue (carryAnswer s) := by
    obtain rfl | hbad := hbad
    · rfl
    · cases k with
      | none => rfl
      | some k => simp only [batchOpenOwner, hbad]
  exact congrArg Host.Outcome.next (frame_gate_refused h howner)

theorem exec_batchOpen_refused {c : PCode} (hacct : (readAccountNo f).isSome = true) (hdeposits : batchDeposits s = .error c) :
    exec (.batchOpen true (some k) f) s = .next (answered c .none s) := by
  obtain ⟨a, ha⟩ := Option.isSome_iff_exists.1 hacct
  exact congrArg Host.Outcome.next (frame_gate_refused h (by simp only [batchOpenOwner, ha, batchDeposits_carryAnswer, hdeposits]))

theorem exec_batchOpen_accepted {ds : List Nat} {t : State} (hacct : readAccountNo f = some a) (hdeposits : batchDeposits s = .ok ds)
    (hbegun : beginBatch k a ds (carryAnswer s) = carryAnswer t) :
    exec (.batchOpen true (some k) f) s = .next (answered .accepted .none t) :=
  congrArg Host.Outcome.next (frame_gate_finished h (by simp only [batchOpenOwner, hacct, batchDeposits_carryAnswer, hdeposits, hbegun]))

end

/-! ### RESOLVING begins (R184, R185) -/

section
variable {k : BatchKind} {a q : Nat} {ds qs : List Nat}

/-- The gate with a batch in RESOLVING under the next batch number. -/
def batchResolving (k : BatchKind) (a : Nat) (ds : List Nat) (g : Cgt) : Cgt :=
  { g with
    state := .resolving, nextBatch := nextNumber g.nextBatch
    batch := some { number := g.nextBatch, kind := k, account := a, deposits := ds } }

theorem beginBatch_noRoom (hfull : openPlaces s.exc = 0) : beginBatch k a ds s = (s.onCgt (batchResolving k a ds)).onExc fun x =>
    { x with asks := x.asks ++ [locateReq (.batchLocate s.cgt.startEpoch s.cgt.nextBatch) a false] } :=
  askUnit_noRoom (s := s.onCgt (batchResolving k a ds)) hfull

theorem beginBatch_searches (hplace : PlaceOpen q qs s) (hline : LineOpen s) (hbook : accountOf s a = none)
    (hmap : mapFind s.exc.homeMap a = none) (hother : ∀ x ∈ s.exc.entries, x.account ≠ some a) :
    ∃ x, x.free = qs ∧ beginBatch k a ds s = { s with
      exc := x
      lif := (queued (newMsg .request 0 q (.request (some a) .locate) .exc s.exc.tok) s).lif
      cgt := batchResolving k a ds s.cgt } :=
  askUnit_locateSearches (s := s.onCgt (batchResolving k a ds)) (ref := .batchLocate s.cgt.startEpoch s.cgt.nextBatch) (openIfNone := false)
    hplace hline hbook hmap hother

/-- R103: a LOCATE whose account's home is known here is resolved at once, and its place is freed. -/
theorem askUnit_locateKnown {ref : Ref} {openIfNone : Bool} {n : Nat} (hplace : PlaceOpen q qs s) (hactive : s.lif.state = .active)
    (hlook : lookFor (entryMade q qs (locateItem ref a openIfNone) s) (makeEntry q (locateItem ref a openIfNone)) a = .node n false false) :
    ∃ x, x.free = qs ++ [q] ∧ askUnit (locateReq ref a openIfNone) s = unitMade ref [q] (some n) { s with exc := x } := by
  have hfind := findEntry_entryMade q qs (locateItem ref a openIfNone) s
  rw [askUnit_locate hplace, resolveEntry, resolveWith_locate _ hfind hactive rfl rfl rfl rfl hlook, freePlace_found hfind]
  exact ⟨_, rfl, rfl⟩

/-- R185: for an account of this node the batch is OPEN at once. -/
theorem beginBatch_here {acc : Account} (hplace : PlaceOpen q qs s) (hactive : s.lif.state = .active) (hacc : accountOf s a = some acc)
    (hstate : acc.state = .opened ∨ acc.state = .yielding) (hrun : s.sys.phase = .running) : ∃ x, x.free = qs ++ [q] ∧
      beginBatch k a ds s = flagged .batchDone { s with exc := x, cgt := { batchResolving k a ds s.cgt with
        state := .opened, batch := (batchResolving k a ds s.cgt).batch.map fun b => { b with home := some s.node.number } } } := by
  obtain ⟨x, hfree, hasked⟩ := askUnit_locateKnown (s := s.onCgt (batchResolving k a ds)) (openIfNone := false)
    (ref := .batchLocate s.cgt.startEpoch s.cgt.nextBatch) hplace hactive (lookFor_here (s := entryMade q qs _ (s.onCgt _)) hacc hstate)
  exact ⟨x, hfree, hasked.trans (batchLocated_home (s := { s with exc := x, cgt := batchResolving k a ds s.cgt }) rfl rfl hrun s.node.number)⟩

section
variable {f : Field} (h : TakenBy .gate s) (hacct : readAccountNo f = some a) (hdeposits : batchDeposits s = .ok ds)
include h hacct hdeposits

theorem exec_batchOpen_noRoom (hfull : openPlaces s.exc = 0) : exec (.batchOpen true (some k) f) s =
    .next (answered .accepted .none ((s.onCgt (batchResolving k a ds)).onExc fun x =>
      { x with asks := x.asks ++ [locateReq (.batchLocate s.cgt.startEpoch s.cgt.nextBatch) a false] })) := by
  refine exec_batchOpen_accepted h hacct hdeposits ((beginBatch_noRoom ?_).trans ?_)
  · rwa [carryAnswer_exc]
  · rw [onCgt_carryAnswer, onExc_carryAnswer, carryAnswer_cgt]

theorem exec_batchOpen_here {acc : Account} (hplace : PlaceOpen q qs s) (hactive : s.lif.state = .active) (hacc : accountOf s a = some acc)
    (hstate : acc.state = .opened ∨ acc.state = .yielding) : ∃ x, x.free = qs ++ [q] ∧
      exec (.batchOpen true (some k) f) s = .next (answered .accepted .none (flagged .batchDone
        { s with exc := x, cgt := { batchResolving k a ds s.cgt with
          state := .opened, batch := (batchResolving k a ds s.cgt).batch.map fun b => { b with home := some s.node.number } } })) := by
  obtain ⟨x, hfree, hbegun⟩ := beginBatch_here (s := carryAnswer s) (k := k) (ds := ds) (q := q) (qs := qs)
    (by rwa [PlaceOpen, carryAnswer_exc]) (by rwa [carryAnswer_lif]) (by rwa [accountOf, carryAnswer_book]) hstate
    (by rw [carryAnswer_sys, h.1.1])
  refine ⟨x, hfree, exec_batchOpen_accepted h hacct hdeposits (hbegun.trans ?_)⟩
  rw [carryAnswer_eq, carryAnswer_eq]
  rfl

theorem exec_batchOpen_searches (hplace : PlaceOpen q qs s) (hline : LineOpen s) (hbook : accountOf s a = none)
    (hmap : mapFind s.exc.homeMap a = none) (hother : ∀ x ∈ s.exc.entries, x.account ≠ some a) : ∃ x, x.free = qs ∧
      exec (.batchOpen true (some k) f) s = .next (answered .accepted .none { s with
        exc := x
        lif := (queued (newMsg .request 0 q (.request (some a) .locate) .exc s.exc.tok) s).lif
        cgt := batchResolving k a ds s.cgt }) := by
  obtain ⟨x, hfree, hbegun⟩ := beginBatch_searches (s := carryAnswer s) (k := k) (ds := ds) (q := q) (qs := qs)
    (by rwa [PlaceOpen, carryAnswer_exc]) (by rwa [LineOpen, sendRoom, carryAnswer_lif]) (by rwa [accountOf, carryAnswer_book])
    (by rwa [carryAnswer_exc]) (by rwa [carryAnswer_exc])
  refine ⟨x, hfree, exec_batchOpen_accepted h hacct hdeposits (hbegun.trans ?_)⟩
  rw [carryAnswer_eq, carryAnswer_eq]
  rfl

end

end

/-! ### Tag reads (R181, R186) -/

theorem readTag_eq_some_iff (x : List Byte) (ty n : Nat) : readTag x = some (ty, n) ↔ ∃ t a b c : Byte, x = [t, a, b, c, t ^^^ a ^^^ b ^^^ c] ∧
    ty = t.toNat ∧ 1 ≤ ty ∧ ty ≤ 8 ∧ n = 65536 * a.toNat + 256 * b.toNat + c.toNat ∧ 1 ≤ n := by
  constructor
  · intro hread
    unfold readTag at hread
    split at hread
    · next t a b c y =>
      dsimp only at hread
      split at hread
      · next hgood =>
        simp only [Bool.and_eq_true, beq_iff_eq, ctypeOk, decide_eq_true_eq] at hgood
        obtain ⟨⟨rfl, hlow, hhigh⟩, hserial⟩ := hgood
        obtain ⟨rfl, rfl⟩ := Prod.mk.inj (Option.some.inj hread)
        exact ⟨t, a, b, c, rfl, rfl, hlow, hhigh, by omega, hserial⟩
      · cases hread
    · cases hread
  · rintro ⟨t, a, b, c, rfl, rfl, hlow, hhigh, rfl, hserial⟩
    have hsame : a.toNat * 65536 + b.toNat * 256 + c.toNat = 65536 * a.toNat + 256 * b.toNat + c.toNat := by omega
    simp [readTag, ctypeOk, hlow, hhigh, hsame, hserial]

theorem exec_tagRead (hrole : s.port.role = some .gate) (bytes : List Byte) : exec (.tagRead bytes) s = .next (tagFrame bytes s) :=
  congrArg Host.Outcome.next (if_pos (by simp [State.inService, hrole]))

theorem tagFrame_malformed {bytes : List Byte} (hread : readTag bytes = none) : tagFrame bytes s = s.onCgt fun c =>
    { c with cnt := { c.cnt with tagErrors := bump c.cnt.tagErrors } } := by
  simp only [tagFrame, hread]

theorem tagFrame_unbatched {bytes : List Byte} (hread : (readTag bytes).isSome = true) (hstate : s.cgt.state ≠ .opened) :
    tagFrame bytes s = s.onCgt fun c => { c with cnt := { c.cnt with unbatched := bump c.cnt.unbatched } } := by
  obtain ⟨x, hx⟩ := Option.isSome_iff_exists.1 hread
  simp only [tagFrame, hx]
  split
  · next hopened _ => exact absurd hopened hstate
  · rfl

theorem tagFrame_opened {bytes : List Byte} {ty n : Nat} (hread : readTag bytes = some (ty, n)) (hstate : s.cgt.state = .opened)
    (hbatch : s.cgt.batch = some b) : tagFrame bytes s = batchRead ty n b s := by
  simp only [tagFrame, hread, hstate, hbatch]

theorem onBatch_some (hbatch : s.cgt.batch = some b) (f : Batch → Batch) : onBatch f s = s.onCgt fun g => { g with batch := some (f b) } := by
  simp only [onBatch, State.onCgt, hbatch, Option.map_some]

section
variable {ty n : Nat} (hbatch : s.cgt.batch = some b)
include hbatch

theorem batchRead_duplicate (hseen : ∃ p ∈ b.tags, p.1 = n) : batchRead ty n b s = s.onCgt fun g => { g with
    batch := some { b with duplicates := bump b.duplicates }, cnt := { g.cnt with duplicates := bump g.cnt.duplicates } } := by
  have hany : (b.tags.any fun p => p.1 == n) = true := by simpa using hseen
  simp only [batchRead, hany, if_true, onBatch_some hbatch]
  rfl

variable (hnew : ∀ p ∈ b.tags, p.1 ≠ n)
include hnew

theorem batchRead_new : batchRead ty n b s =
    if s.cgt.blocked.contains n then
      raise .batchDone (s.onCgt fun g => { g with
        batch := some { b with rejected := bump b.rejected }, cnt := { g.cnt with rejected := bump g.cnt.rejected } })
    else if 64 ≤ b.tags.length then
      raise .batchDone (s.onCgt fun g => { g with
        batch := some { b with refusedFull := bump b.refusedFull }, cnt := { g.cnt with refusedFull := bump g.cnt.refusedFull } })
    else s.onCgt fun g => { g with batch := some { b with
      tags := b.tags ++ [(n, ty)], counts := setCrates b.counts ty (crateCount b.counts ty + 1) } } := by
  have hany : (b.tags.any fun p => p.1 == n) = false := List.any_eq_false.2 fun p hp => by simpa using hnew p hp
  simp only [batchRead, hany, Bool.false_eq_true, if_false, onBatch_some hbatch]
  rfl

theorem batchRead_rejected (hblocked : n ∈ s.cgt.blocked) (hrun : s.sys.phase = .running) :
    batchRead ty n b s = flagged .batchDone (s.onCgt fun g => { g with
      batch := some { b with rejected := bump b.rejected }, cnt := { g.cnt with rejected := bump g.cnt.rejected } }) := by
  rw [batchRead_new hbatch hnew, if_pos (List.contains_iff_mem.2 hblocked)]
  exact raise_running (s.onCgt _) .batchDone hrun

variable (hfree : n ∉ s.cgt.blocked)
include hfree

theorem batchRead_refused (hfull : 64 ≤ b.tags.length) (hrun : s.sys.phase = .running) :
    batchRead ty n b s = flagged .batchDone (s.onCgt fun g => { g with
      batch := some { b with refusedFull := bump b.refusedFull }, cnt := { g.cnt with refusedFull := bump g.cnt.refusedFull } }) := by
  rw [batchRead_new hbatch hnew, if_neg fun h => hfree (List.contains_iff_mem.1 h), if_pos hfull]
  exact raise_running (s.onCgt _) .batchDone hrun

theorem batchRead_joined (hroom : b.tags.length < 64) : batchRead ty n b s = s.onCgt fun g => { g with batch := some { b with
    tags := b.tags ++ [(n, ty)], counts := b.counts.set (ty - 1) (b.counts.getD (ty - 1) 0 + 1) } } := by
  rw [batchRead_new hbatch hnew, if_neg fun h => hfree (List.contains_iff_mem.1 h), if_neg (Nat.not_le.2 hroom)]
  rfl

end

/-! ### The crate pool (R182) -/

/-- The pool update that carries the pending change. -/
def poolUpdate (s : State) : Request := ⟨.pool (poolCarried s), .group [.node (.pool (poolNew s))]⟩

/-- The gate once its pending change is on its way, the crates clamped counted. -/
def poolSent (excess shortfall : Nat) (g : Cgt) : Cgt :=
  { g with
    poolBusy := true, pend := List.replicate 8 0
    cnt := { g.cnt with excess := bumpBy excess g.cnt.excess, shortfall := bumpBy shortfall g.cnt.shortfall } }

/-- The pool update stands on the store request list. -/
def poolPlaced (s : State) : State := listed (poolUpdate s) (s.onCgt (poolSent (poolExcess s) (poolShortfall s)))

theorem poolPlaced_list {pool : List Nat} (hnew : poolNew s = pool) :
    (poolPlaced s).store.list = s.store.list ++ [⟨.pool (poolCarried s), .group [.node (.pool pool)]⟩] := by
  rw [← hnew]
  rfl

theorem listed_behind {r : Request} {l : List Request} (h : s.store.list = l ++ [r]) (r' : Request) :
    (listed r' s).store.list = l ++ [r, r'] := by
  simp only [listed, h, List.append_assoc, List.cons_append, List.nil_append]

theorem poolPlaced_exc (s : State) : (poolPlaced s).exc = s.exc := rfl

theorem poolPlaced_listOpen (hlist : ListTakes 2 s) : ListOpen (poolPlaced s) := (ListTakes.listed (s := s.onCgt _) hlist _).listOpen

theorem placePool_placed (hchange : (s.cgt.pend.all (· == 0)) = false) (hbusy : s.cgt.poolBusy = false) (hwait : s.cgt.poolT = none)
    (hlist : ListOpen s) : placePool s = poolPlaced s := by
  obtain ⟨herasing, hroom⟩ := hlist
  have hroom' : listRoom (s.onCgt fun c => { c with poolBusy := true }) = true := hroom
  simp only [placePool, poolPendingZero, hchange, hbusy, hwait, Option.isSome_none, Bool.or_self, Bool.false_eq_true, if_false, placeStore,
    onCgt_store, herasing, hroom', if_true]
  rfl

theorem placePool_busy (hbusy : s.cgt.poolBusy = true) : placePool s = s := if_pos (by simp [hbusy])

theorem zipWith_add_zeros (d : List Int) : List.zipWith (· + ·) (List.replicate d.length 0) d = d := by
  induction d with
  | nil => rfl
  | cons x xs ih => simp [List.replicate_succ, ih]

theorem all_zero_eq_false {d : List Int} (h : ∃ v ∈ d, v ≠ 0) : (d.all (· == 0)) = false := by simpa using h

theorem poolChange_placed {d : List Int} (hpend : s.cgt.pend = List.replicate 8 0) (hlen : d.length = 8) (hchange : ∃ v ∈ d, v ≠ 0)
    (hbusy : s.cgt.poolBusy = false) (hwait : s.cgt.poolT = none) (hlist : ListOpen s) :
    poolChange d s = poolPlaced (s.onCgt fun g => { g with pend := d }) := by
  have hjoined : List.zipWith (· + ·) s.cgt.pend d = d := by rw [hpend, ← hlen, zipWith_add_zeros]
  have hpended : (s.onCgt fun g => { g with pend := List.zipWith (· + ·) g.pend d }) = s.onCgt fun g => { g with pend := d } := by
    simp only [State.onCgt, hjoined]
  rw [poolChange, hpended]
  exact placePool_placed (s := s.onCgt fun g => { g with pend := d }) (all_zero_eq_false hchange) hbusy hwait hlist

theorem poolClamp_eq (v : Int) : poolClamp v = (min 65535 (max 0 v)).toNat := by
  unfold poolClamp
  split <;> omega

theorem poolRise_eq (counts : List Nat) : poolRise counts = counts.map fun n : Nat => (n : Int) := by simp [poolRise, ← List.map_eq_flatMap]
theorem poolFall_eq (counts : List Nat) : poolFall counts = counts.map fun n : Nat => -(n : Int) := by simp [poolFall, ← List.map_eq_flatMap]

theorem poolNew_rise {counts : List Nat} (hpend : s.cgt.pend = poolRise counts) :
    poolNew s = List.zipWith (fun p n => min 65535 (p + n)) s.node.pool counts := by
  have hclamp (p n : Nat) : poolClamp ((p : Int) + n) = min 65535 (p + n) := by rw [poolClamp_eq]; omega
  simp only [poolNew, hpend, poolRise_eq, List.zipWith_map_right, hclamp]

theorem poolNew_fall {counts : List Nat} (hpend : s.cgt.pend = poolFall counts) :
    poolNew s = List.zipWith (fun p n => min 65535 (p - n)) s.node.pool counts := by
  have hclamp (p n : Nat) : poolClamp ((p : Int) + -n) = min 65535 (p - n) := by rw [poolClamp_eq]; omega
  simp only [poolNew, hpend, poolFall_eq, List.zipWith_map_right, hclamp]

theorem exec_poolUpdateRetry_placed (hdue : s.cgt.poolT = some 0) (hchange : (s.cgt.pend.all (· == 0)) = false)
    (hbusy : s.cgt.poolBusy = false) (hrise : s.cgt.riseWaits = false) (hlist : ListOpen s) :
    exec .poolUpdateRetry s = .next (poolPlaced (s.onCgt fun g => { g with poolT := none })) := by
  have hplaced := placePool_placed (s := s.onCgt fun g => { g with poolT := none }) hchange hbusy rfl hlist
  have hstill : returnIfListed (poolPlaced (s.onCgt fun g => { g with poolT := none })) = poolPlaced (s.onCgt fun g => { g with poolT := none }) := by
    have hwaits : (poolPlaced (s.onCgt fun g => { g with poolT := none })).cgt.riseWaits = false := hrise
    simp only [returnIfListed, hwaits, Bool.false_and, Bool.false_eq_true, if_false]
  refine congrArg Host.Outcome.next ((if_pos (by simp [hdue])).trans ?_)
  rw [hplaced, hstill]

/-! ### The posting of a batch asked for (R188 to R190) -/

/-- The posting of a batch, its identity still to come. -/
def batchPosting (b : Batch) : Posting := ⟨default, batchPostKind b.kind, b.account, b.amount.getD 0, batchItems b, none, none⟩

theorem batchPostReq_eq_onePost {h : Nat} (hhome : b.home = some h) (ep : Nat) :
    batchPostReq ep b = onePost (.batchPost ep b.number) (batchPosting b) h := by
  simp only [batchPostReq, hhome]
  rfl

theorem askBatchPost_asked {h : Nat} (hbatch : s.cgt.batch = some b) (hhome : b.home = some h) (hready : PostReady s) (hlist : ListOpen s) :
    askBatchPost s = postAsked (.batchPost s.cgt.startEpoch b.number) (batchPosting b) h s := by
  simp only [askBatchPost, hbatch, batchPostReq_eq_onePost hhome, takeCreate_onePost hready hlist]

theorem exec_cgtPostingRetry_asked {h : Nat} (hdue : s.cgt.postT = some 0) (hstate : s.cgt.state = .closing) (hbatch : s.cgt.batch = some b)
    (hhome : b.home = some h) (hready : PostReady s) (hlist : ListOpen s) : exec .cgtPostingRetry s = .next (postAsked
      (.batchPost s.cgt.startEpoch b.number) (batchPosting b) h (s.onCgt fun g => { g with postT := none })) := by
  refine congrArg Host.Outcome.next ((if_pos (by simp [hdue, hstate])).trans ?_)
  exact askBatchPost_asked (s := s.onCgt fun g => { g with postT := none }) hbatch hhome hready hlist

/-! ### BATCH CLOSE (R188 to R190) -/

theorem postAsked_carryAnswer (ref : Ref) (p : Posting) (dest : Nat) (s : State) :
    postAsked ref p dest (carryAnswer s) = carryAnswer (postAsked ref p dest s) := by
  rw [carryAnswer_eq, carryAnswer_eq]
  rfl

theorem poolPlaced_carryAnswer (s : State) : poolPlaced (carryAnswer s) = carryAnswer (poolPlaced s) := by
  rw [carryAnswer_eq, carryAnswer_eq]
  rfl

/-- An ISSUE asks for its posting with the deposit sum. -/
theorem closeBatch_issue {h : Nat} (hkind : b.kind = .issue) (hhome : b.home = some h) (hready : PostReady s) (hlist : ListOpen s) :
    closeBatch b s = postAsked (.batchPost s.cgt.startEpoch b.number)
      ⟨default, .issue, b.account, depositSum (batchItems b), batchItems b, none, none⟩ h (s.onCgt fun g => { g with
        state := .closing, batch := some { b with amount := some (depositSum (batchItems b)) } }) := by
  have hasked := askBatchPost_asked (b := { b with amount := some (depositSum (batchItems b)) })
    (s := s.onCgt fun g => { g with state := .closing, batch := some { b with amount := some (depositSum (batchItems b)) } })
    rfl hhome hready hlist
  rw [batchPosting, hkind] at hasked
  simp only [closeBatch, hkind]
  exact hasked

/-- The gate in CLOSING, a RETURN's rise its pending change. -/
def returnRises (b : Batch) (waits : Bool) (g : Cgt) : Cgt := { g with state := .closing, riseWaits := waits, pend := poolRise b.counts }

/-- A RETURN has the rise placed, and asks for its posting behind it. -/
theorem closeBatch_return {h : Nat} (hbatch : s.cgt.batch = some b) (hkind : b.kind = .ret) (hcounts : b.counts.length = 8)
    (hsome : ∃ n ∈ b.counts, n ≠ 0) (hwait : s.cgt.poolT = none) (hhome : b.home = some h) (hbusy : s.cgt.poolBusy = false)
    (hpend : s.cgt.pend = List.replicate 8 0) (hready : PostReady s) (hlist : ListTakes 2 s) :
    closeBatch b s = postAsked (.batchPost s.cgt.startEpoch b.number) (batchPosting b) h (poolPlaced (s.onCgt (returnRises b false))) := by
  have hlen : (poolRise b.counts).length = 8 := by rw [poolRise_eq, List.length_map, hcounts]
  have hrise : ∃ v ∈ poolRise b.counts, v ≠ 0 := by
    obtain ⟨n, hn, hne⟩ := hsome
    exact ⟨n, poolRise_eq _ ▸ List.mem_map_of_mem hn, Int.natCast_ne_zero.2 hne⟩
  have hplaced := poolChange_placed (s := s.onCgt fun g => { g with state := .closing, riseWaits := true }) hpend hlen
    hrise hbusy hwait hlist.listOpen
  have hasked := askBatchPost_asked (s := poolPlaced (s.onCgt (returnRises b false))) hbatch hhome hready
    (poolPlaced_listOpen (s := s.onCgt (returnRises b false)) hlist)
  simp only [closeBatch, hkind, hplaced]
  exact hasked

/-- While an update is on its way, the rise of a RETURN joins the pending change and waits. -/
theorem closeBatch_returnWaits (hkind : b.kind = .ret) (hbusy : s.cgt.poolBusy = true)
    (hchange : (List.zipWith (fun (c : Int) (n : Nat) => c + n) s.cgt.pend b.counts).all (· == 0) = false) :
    closeBatch b s = s.onCgt fun g => { g with
      state := .closing, riseWaits := true, pend := List.zipWith (fun (c : Int) (n : Nat) => c + n) g.pend b.counts } := by
  have hjoined (l : List Int) : List.zipWith (· + ·) l (poolRise b.counts) = List.zipWith (fun (c : Int) (n : Nat) => c + n) l b.counts := by
    rw [poolRise_eq, List.zipWith_map_right]
  simp only [closeBatch, hkind, poolChange, hjoined]
  rw [placePool_busy (by exact hbusy)]
  exact if_neg (by simp only [poolPendingZero, onCgt_cgt, hchange, Bool.and_false, Bool.false_eq_true, not_false_iff])

section
variable (h : TakenBy .gate s)
include h

theorem exec_batchClose_notOpen (hstate : s.cgt.state ≠ .opened) : exec (.batchClose true) s = .next (answered .notOpen .none s) := by
  refine congrArg Host.Outcome.next (frame_gate_refused h ?_)
  simp only [batchCloseOwner, carryAnswer_cgt]
  split
  · next hopened _ => exact absurd hopened hstate
  · rfl

section
variable (hstate : s.cgt.state = .opened) (hbatch : s.cgt.batch = some b)
include hstate hbatch

theorem exec_batchClose_empty (htags : b.tags = []) : exec (.batchClose true) s = .next (answered .batchEmpty .none s) :=
  congrArg Host.Outcome.next (frame_gate_refused h
    (by simp only [batchCloseOwner, carryAnswer_cgt, hstate, hbatch, htags, List.isEmpty_nil, if_true]))

theorem exec_batchClose_closed {t : State} (htags : b.tags ≠ []) (hclosed : closeBatch b (carryAnswer s) = carryAnswer t) :
    exec (.batchClose true) s = .next (answered .accepted .none t) := by
  have hfull : b.tags.isEmpty = false := by simpa using htags
  exact congrArg Host.Outcome.next (frame_gate_finished h
    (by simp only [batchCloseOwner, carryAnswer_cgt, hstate, hbatch, hfull, Bool.false_eq_true, if_false, hclosed]))

variable (htags : b.tags ≠ [])
include htags

theorem exec_batchClose_issue {home : Nat} (hkind : b.kind = .issue) (hhome : b.home = some home) (hready : PostReady s)
    (hroom : listRoom s = true) : exec (.batchClose true) s = .next (answered .accepted .none
      (postAsked (.batchPost s.cgt.startEpoch b.number) ⟨default, .issue, b.account, depositSum (batchItems b), batchItems b, none, none⟩ home
        (s.onCgt fun g => { g with state := .closing, batch := some { b with amount := some (depositSum (batchItems b)) } }))) := by
  refine exec_batchClose_closed h hstate hbatch htags ((closeBatch_issue (s := carryAnswer s) hkind hhome ?_ ?_).trans ?_)
  · rwa [PostReady, CommitReady, carryAnswer_exc, carryAnswer_sys, carryAnswer_node]
  · rw [ListOpen, listRoom, carryAnswer_store]
    exact ⟨h.1.2, hroom⟩
  · rw [onCgt_carryAnswer, postAsked_carryAnswer, carryAnswer_cgt]

theorem exec_batchClose_return {home : Nat} (hkind : b.kind = .ret) (hcounts : b.counts.length = 8) (hsome : ∃ n ∈ b.counts, n ≠ 0)
    (hwait : s.cgt.poolT = none) (hhome : b.home = some home) (hbusy : s.cgt.poolBusy = false) (hpend : s.cgt.pend = List.replicate 8 0)
    (hready : PostReady s) (hlist : ListTakes 2 s) : exec (.batchClose true) s = .next (answered .accepted .none
      (postAsked (.batchPost s.cgt.startEpoch b.number) (batchPosting b) home (poolPlaced (s.onCgt (returnRises b false))))) := by
  have hclosed := closeBatch_return (s := carryAnswer s) (b := b) (by rwa [carryAnswer_cgt]) hkind hcounts hsome (by rwa [carryAnswer_cgt])
    hhome (by rwa [carryAnswer_cgt]) (by rwa [carryAnswer_cgt])
    (by rwa [PostReady, CommitReady, carryAnswer_exc, carryAnswer_sys, carryAnswer_node]) (by rwa [ListTakes, carryAnswer_store])
  rw [onCgt_carryAnswer, poolPlaced_carryAnswer, postAsked_carryAnswer, carryAnswer_cgt] at hclosed
  exact exec_batchClose_closed h hstate hbatch htags hclosed

end

end

/-! ### BATCH CANCEL (R187) -/

/-- A request that has not come to a commit leaves the list of those that wait, and no more. -/
theorem dropAsk_asks {ref : Ref} (hjobs : ∀ j ∈ s.exc.jobs, jobOf ref j = false)
    (hwork : ∀ r, s.exc.work = some (.advance (.create r)) → r.ref ≠ ref) :
    dropAsk ref s = s.onExc fun x => { x with asks := x.asks.filter fun r => r.ref != ref } := by
  have hjobs' : s.exc.jobs.filter (fun j => !jobOf ref j) = s.exc.jobs := List.filter_eq_self.2 fun j hj => by simp [hjobs j hj]
  simp only [dropAsk, State.onExc, hjobs']
  congr 2
  split
  · next r hadvance => exact if_neg (hwork r hadvance)
  · rfl

section
variable (h : TakenBy .gate s)
include h

theorem exec_batchCancel_cancelled (hstate : s.cgt.state = .resolving ∨ s.cgt.state = .opened) (hbatch : s.cgt.batch = some b)
    (hjobs : ∀ j ∈ s.exc.jobs, jobOf (.batchLocate s.cgt.startEpoch b.number) j = false)
    (hwork : ∀ r, s.exc.work = some (.advance (.create r)) → r.ref ≠ .batchLocate s.cgt.startEpoch b.number) :
    exec (.batchCancel true) s = .next (answered .done .none (flagged .batchDone
      ((s.onExc fun x => { x with asks := x.asks.filter fun r => r.ref != .batchLocate s.cgt.startEpoch b.number }).onCgt
        (batchEnded .cancelled none b)))) := by
  have hcancelled : cancelBatch (carryAnswer s) = carryAnswer (flagged .batchDone
      ((s.onExc fun x => { x with asks := x.asks.filter fun r => r.ref != .batchLocate s.cgt.startEpoch b.number }).onCgt
        (batchEnded .cancelled none b))) := by
    simp only [cancelBatch, carryAnswer_cgt, hbatch, dropAsk_carryAnswer, dropAsk_asks hjobs hwork]
    rw [endBatch_running (s := carryAnswer (s.onExc _)) (b := b) (by rw [carryAnswer_cgt]; exact hbatch) (by rw [carryAnswer_sys]; exact h.1.1),
      onCgt_carryAnswer, flagged_carryAnswer]
  exact congrArg Host.Outcome.next (frame_gate_finished h (by simp only [batchCancelOwner, carryAnswer_cgt, hstate, if_true, hcancelled]))

theorem exec_batchCancel_notOpen (hstate : s.cgt.state = .idle ∨ s.cgt.state = .closing ∨ s.cgt.state = .posting) :
    exec (.batchCancel true) s = .next (answered .notOpen .none s) := by
  refine congrArg Host.Outcome.next (frame_gate_refused h (if_neg ?_))
  rw [carryAnswer_cgt]
  obtain hstate | hstate | hstate := hstate <;> rw [hstate] <;> decide

/-! ### The blocked tags (R183) -/

section
variable {n : Nat}

theorem exec_block_badValue (hbad : serialOk n = false) : exec (.block true n) s = .next (answered .badValue .none s) :=
  congrArg Host.Outcome.next (frame_gate_refused h (by simp [blockOwner, hbad]))

theorem exec_unblock_badValue (hbad : serialOk n = false) : exec (.unblock true n) s = .next (answered .badValue .none s) :=
  congrArg Host.Outcome.next (frame_gate_refused h (by simp [unblockOwner, hbad]))

variable (hserial : serialOk n = true)
include hserial

theorem exec_block_added (hnew : n ∉ s.cgt.blocked) (hroom : s.cgt.blocked.length < 32) : exec (.block true n) s =
    .next (answered .done .none (s.onCgt fun g => { g with blocked := g.blocked ++ [n] })) :=
  congrArg Host.Outcome.next (frame_gate_finished h (by simp [blockOwner, hserial, hnew, hroom, onCgt_carryAnswer]))

theorem exec_block_listFull (hnew : n ∉ s.cgt.blocked) (hfull : 32 ≤ s.cgt.blocked.length) :
    exec (.block true n) s = .next (answered .listFull .none s) :=
  congrArg Host.Outcome.next (frame_gate_refused h (by simp [blockOwner, hserial, hnew, hfull]))

theorem exec_block_again (hold : n ∈ s.cgt.blocked) : exec (.block true n) s = .next (answered .done .none s) :=
  congrArg Host.Outcome.next (frame_gate_finished h (by simp [blockOwner, hserial, hold]))

theorem exec_unblock_removed (hold : n ∈ s.cgt.blocked) : exec (.unblock true n) s =
    .next (answered .done .none (s.onCgt fun g => { g with blocked := g.blocked.filter (· != n) })) :=
  congrArg Host.Outcome.next (frame_gate_finished h (by simp [unblockOwner, hserial, hold, onCgt_carryAnswer]))

theorem exec_unblock_notListed (hnew : n ∉ s.cgt.blocked) : exec (.unblock true n) s = .next (answered .notListed .none s) :=
  congrArg Host.Outcome.next (frame_gate_refused h (by simp [unblockOwner, hserial, hnew]))

end

end

end

end Sys2Proof.Machine
end

section
/-! The outcomes of a batch's LOCATE and posting, in hand and late, and the statement on the Crate Gate (O60). -/

namespace Sys2Proof.Machine
open Sys2Proof

section
variable {s : State} {b : Batch} {e : Entry} {p : Posting}

/-! ### The outcomes that reach the Crate Gate (R102) -/

theorem flagged_exc (f : Flag) (s : State) : (flagged f s).exc = s.exc := rfl

theorem Ended.listOpen (h : Ended e p s) : ListOpen s := by
  obtain ⟨-, -, -, -, hlist⟩ := h
  exact hlist

theorem unitOutcome_batchLocate {ep n : Nat} (href : e.ref = .batchLocate ep n) (hrole : s.port.role = some .gate) (out : ExcOut) :
    unitOutcome e out s = batchLocated ep n out s := by
  have hservice : unitInService s (.batchLocate ep n) = true := by simp [unitInService, Ref.role, State.inService, hrole]
  simp only [unitOutcome, href, hservice, Bool.not_true, Bool.false_eq_true, if_false, unitLocated]

theorem unitOutcome_batchPost {ep n : Nat} (href : e.ref = .batchPost ep n) (hbody : e.body = .post p) (hrole : s.port.role = some .gate)
    (out : ExcOut) : unitOutcome e out s = placeOutRemoval e.seq (batchOutcome ep n p out s) := by
  have hservice : unitInService s (.batchPost ep n) = true := by simp [unitInService, Ref.role, State.inService, hrole]
  simp only [unitOutcome, href, hbody, hservice, Bool.not_true, Bool.false_eq_true, if_false, ReqBody.posting, Option.getD_some]

/-- R191: the gate reports the outcome of a posting taken as it takes it; what that leaves in the gate leaves the entry as it was. -/
theorem unitOutcome_batchPostEnded {ep n : Nat} {t : State} {out : ExcOut} (href : e.ref = .batchPost ep n) (hrole : s.port.role = some .gate)
    (hended : Ended e p s) (htaken : batchOutcome ep n p out s = t) (hexc : t.exc = s.exc) (hlist : ListOpen t) :
    unitOutcome e out s = outcomeTaken e p t := by
  obtain ⟨hentry, hstate, hbody, hremoving, -⟩ := hended
  have hentry' : findEntry t e.seq = some e := by rwa [findEntry, hexc]
  rw [unitOutcome_batchPost href hbody hrole, htaken]
  exact placeOutRemoval_ended hentry' hstate hbody hremoving hlist

theorem unitOutcome_batchPostFailed {ep n : Nat} {t : State} {last : LastAns} (href : e.ref = .batchPost ep n)
    (hrole : s.port.role = some .gate) (hbody : e.body = .post p) (hentry : findEntry s e.seq = some e) (hfailed : e.state = .failed)
    (htaken : batchOutcome ep n p (.failed last) s = t) (hexc : t.exc = s.exc) : unitOutcome e (.failed last) s = t := by
  have hentry' : findEntry t e.seq = some e := by rwa [findEntry, hexc]
  rw [unitOutcome_batchPost href hbody hrole, htaken]
  exact placeOutRemoval_unended hentry' (by rw [hfailed]; nofun)

/-- R102: the removal stands behind the last request of the list. -/
theorem outcomeTaken_behind {r : Request} {l : List Request} (h : s.store.list = l ++ [r]) (e : Entry) (p : Posting) :
    (outcomeTaken e p s).store.list = l ++ [r, ⟨.outRemoval p.id, .removal (.outbound p.id.epoch p.id.number)⟩] :=
  listed_behind (s := putEntry _ s) h _

/-! ### The posting of the batch in hand (R191, R192) -/

/-- An outcome that says the crates of an ISSUE have gone (R191). -/
def issued (out : ExcOut) : Prop := ∃ c d node, out = .answer c d node ∧ (c = .done ∨ c = .doneAlready)

/-- The gate with the fall of an ISSUE's crates its pending change. -/
def poolFalling (p : Posting) (s : State) : State := s.onCgt fun g => { g with pend := poolFall (itemCounts p.items) }

theorem poolFalling_list (p : Posting) (s : State) : (poolPlaced (poolFalling p s)).store.list = s.store.list ++
    [⟨.pool (poolCarried (poolFalling p s)), .group [.node (.pool
      (List.zipWith (fun p n => min 65535 (p - n)) s.node.pool (itemCounts p.items)))]⟩] :=
  poolPlaced_list (poolNew_fall (s := poolFalling p s) rfl)

theorem poolChange_fall (hbusy : s.cgt.poolBusy = false) (hwait : s.cgt.poolT = none) (hpend : s.cgt.pend = List.replicate 8 0)
    (hsome : ∃ n ∈ itemCounts p.items, n ≠ 0) (hlen : (itemCounts p.items).length = 8) (hlist : ListOpen s) :
    poolChange (poolFall (itemCounts p.items)) s = poolPlaced (poolFalling p s) := by
  have hlen' : (poolFall (itemCounts p.items)).length = 8 := by rw [poolFall_eq, List.length_map, hlen]
  have hfall : ∃ v ∈ poolFall (itemCounts p.items), v ≠ 0 := by
    obtain ⟨n, hn, hne⟩ := hsome
    exact ⟨-(n : Int), poolFall_eq _ ▸ List.mem_map_of_mem hn, by omega⟩
  exact poolChange_placed hpend hlen' hfall hbusy hwait hlist

section
variable (hstate : s.cgt.state = .posting) (hbatch : s.cgt.batch = some b)
include hstate hbatch

theorem batchOutcome_inHand (p : Posting) (out : ExcOut) : batchOutcome s.cgt.startEpoch b.number p out s =
    endBatch (batchCodeOf p.kind out) (if p.kind = .ret then refundedOf out else none)
      (if p.kind = .issue ∧ batchCodeOf p.kind out = .done then poolChange (poolFall (itemCounts p.items)) s else s) :=
  if_pos ⟨hstate, batchInHand_self hbatch⟩

variable (hrun : s.sys.phase = .running)
include hrun

theorem batchOutcome_ended {out : ExcOut} (hstays : ¬(p.kind = .issue ∧ batchCodeOf p.kind out = .done)) :
    batchOutcome s.cgt.startEpoch b.number p out s = flagged .batchDone (s.onCgt
      (batchEnded (batchCodeOf p.kind out) (if p.kind = .ret then refundedOf out else none) b)) := by
  rw [batchOutcome_inHand hstate hbatch, if_neg hstays, endBatch_running hbatch hrun]

theorem batchOutcome_return (hkind : p.kind = .ret) (out : ExcOut) : batchOutcome s.cgt.startEpoch b.number p out s =
    flagged .batchDone (s.onCgt (batchEnded (batchCodeOf .ret out) (refundedOf out) b)) := by
  rw [batchOutcome_ended hstate hbatch hrun (by rw [hkind]; nofun), hkind, if_pos rfl]

theorem batchOutcome_refusedFunds (hkind : p.kind = .issue) (d : AnsData) (node : Nat) :
    batchOutcome s.cgt.startEpoch b.number p (.answer .refusedFunds d node) s =
      flagged .batchDone (s.onCgt (batchEnded .refusedFunds none b)) := by
  rw [batchOutcome_ended hstate hbatch hrun (by rw [hkind]; nofun), hkind]
  rfl

theorem batchOutcome_failed (p : Posting) (last : LastAns) : batchOutcome s.cgt.startEpoch b.number p (.failed last) s =
    flagged .batchDone (s.onCgt (batchEnded .failed none b)) := by
  have hcode : batchCodeOf p.kind (.failed last) = .failed := rfl
  rw [batchOutcome_ended hstate hbatch hrun (by rw [hcode]; nofun)]
  exact congrArg (fun r => flagged .batchDone (s.onCgt (batchEnded .failed r b))) (ite_self none)

/-- R191: the pool's fall is placed, and the batch ends DONE. -/
theorem batchOutcome_issued {out : ExcOut} (hkind : p.kind = .issue) (hout : issued out) (hbusy : s.cgt.poolBusy = false)
    (hwait : s.cgt.poolT = none) (hpend : s.cgt.pend = List.replicate 8 0) (hsome : ∃ n ∈ itemCounts p.items, n ≠ 0)
    (hlen : (itemCounts p.items).length = 8) (hlist : ListOpen s) : batchOutcome s.cgt.startEpoch b.number p out s =
      flagged .batchDone ((poolPlaced (poolFalling p s)).onCgt (batchEnded .done none b)) := by
  have hcode : batchCodeOf .issue out = .done := by obtain ⟨_, _, _, rfl, rfl | rfl⟩ := hout <;> rfl
  have hplaced := poolChange_fall hbusy hwait hpend hsome hlen hlist
  have hended := endBatch_running (s := poolPlaced (poolFalling p s)) hbatch hrun .done none
  simp only [batchOutcome_inHand hstate hbatch, hkind, hcode, and_self, if_true, reduceCtorEq, if_false, hplaced, hended]

end

/-! ### A late posting (R193) -/

/-- The kind of batch that a posting belongs to. -/
def lateKind (p : Posting) : BatchKind := if p.kind = .issue then .issue else .ret

theorem lateKind_return (hkind : p.kind = .ret) : lateKind p = .ret := if_neg (by rw [hkind]; nofun)

/-- The gate with the record of a late outcome. -/
def batchLate (ep n : Nat) (p : Posting) (c : LateCode) (cs : Option (List (Nat × Nat))) (g : Cgt) : Cgt :=
  { g with late := some ⟨ep, n, lateKind p, p.account, p.id, c, cs⟩, cnt := { g.cnt with late := bump g.cnt.late } }

/-- Whether a late outcome of an ISSUE lets the pool fall: a DONE, or a DONE_ALREADY of the present start-up epoch. -/
def lateFalls (ep : Nat) (out : ExcOut) (s : State) : Bool :=
  match out with
  | .answer .done _ _ => true
  | .answer .doneAlready _ _ => ep == s.cgt.startEpoch
  | _ => false

section
variable {ep n : Nat} (hlate : s.cgt.state ≠ .posting ∨ batchInHand s ep n = false) (hrun : s.sys.phase = .running)
include hlate hrun

theorem batchOutcome_late (p : Posting) (out : ExcOut) : batchOutcome ep n p out s =
    if p.kind = .issue ∧ lateFalls ep out s = true then
      poolChange (poolFall (itemCounts p.items)) (flagged .batchDone (s.onCgt
        (batchLate ep n p (lateCode out) (if lateKind p = .ret then refundedOf out else none))))
    else flagged .batchDone (s.onCgt (batchLate ep n p (lateCode out) (if lateKind p = .ret then refundedOf out else none))) := by
  have hnot : ¬(s.cgt.state = .posting ∧ batchInHand s ep n = true) := fun ⟨hstate, hhand⟩ =>
    hlate.elim (fun hne => hne hstate) fun hno => Bool.false_ne_true (hno.symm.trans hhand)
  have hraised := raise_running (s.onCgt
    (batchLate ep n p (lateCode out) (if lateKind p = .ret then refundedOf out else none))) .batchDone hrun
  have hnoted : lateBatch ep n p out s = if p.kind = .issue ∧ lateFalls ep out (raise .batchDone (s.onCgt
        (batchLate ep n p (lateCode out) (if lateKind p = .ret then refundedOf out else none)))) = true then
      poolChange (poolFall (itemCounts p.items)) (raise .batchDone (s.onCgt
        (batchLate ep n p (lateCode out) (if lateKind p = .ret then refundedOf out else none))))
      else raise .batchDone (s.onCgt (batchLate ep n p (lateCode out) (if lateKind p = .ret then refundedOf out else none))) := rfl
  rw [batchOutcome, if_neg hnot, hnoted, hraised]
  rfl

theorem batchOutcome_lateReturn (hkind : p.kind = .ret) (out : ExcOut) : batchOutcome ep n p out s =
    flagged .batchDone (s.onCgt (batchLate ep n p (lateCode out) (refundedOf out))) := by
  rw [batchOutcome_late hlate hrun, if_neg (by rw [hkind]; nofun), if_pos (lateKind_return hkind)]

/-- An outcome that carries no refunded counts and lets no pool fall is recorded, and no more. -/
theorem batchOutcome_lateNoted {out : ExcOut} (hbare : refundedOf out = none) (hstays : lateFalls ep out s = false) (p : Posting) :
    batchOutcome ep n p out s = flagged .batchDone (s.onCgt (batchLate ep n p (lateCode out) none)) := by
  rw [batchOutcome_late hlate hrun, if_neg (by rw [hstays]; nofun), hbare, ite_self]

/-- R193: a late outcome by which the crates of an ISSUE have gone has the pool's fall placed. -/
theorem batchOutcome_lateIssued {out : ExcOut} (hkind : p.kind = .issue) (hfalls : lateFalls ep out s = true) (hbusy : s.cgt.poolBusy = false)
    (hwait : s.cgt.poolT = none) (hpend : s.cgt.pend = List.replicate 8 0) (hsome : ∃ n ∈ itemCounts p.items, n ≠ 0)
    (hlen : (itemCounts p.items).length = 8) (hlist : ListOpen s) : batchOutcome ep n p out s =
      poolPlaced (poolFalling p (flagged .batchDone (s.onCgt (batchLate ep n p (lateCode out) none)))) := by
  have hbare : (if lateKind p = .ret then refundedOf out else none) = none := if_neg (by rw [lateKind, if_pos hkind]; nofun)
  rw [batchOutcome_late hlate hrun, if_pos ⟨hkind, hfalls⟩, hbare]
  exact poolChange_fall (s := flagged _ (s.onCgt _)) hbusy hwait hpend hsome hlen hlist

end

end

/-- Settles O60: BATCH OPEN by the first check that fails and by what is known of the account's home; a tag read by the batch and the lists
it meets; BATCH CLOSE by the batch's kind and the pool's update under way; the outcomes of the LOCATE and of the posting, in hand and late. -/
theorem gateBatches : Obligations.GateBatches := by
  intro s
  refine ⟨fun h => ⟨fun k f hbad => exec_batchOpen_badValue h hbad,
      fun f k hacct hcrates => exec_batchOpen_refused h hacct (batchDeposits_notConfigured hcrates), fun f a k rows hacct hcrates => ?_,
      exec_batchClose_notOpen h, fun b hstate hbatch => ⟨exec_batchClose_empty h hstate hbatch, fun home htags hkind hhome hready hroom => ?_,
        fun htags hkind hcounts hsome hwait => ⟨fun home hhome hamount hbusy hpend hready hroom => ?_, fun hbusy hchange => ?_⟩⟩,
      fun b hstate hbatch hjobs hwork => exec_batchCancel_cancelled h hstate hbatch hjobs hwork, exec_batchCancel_notOpen h, fun n hbad => ?_,
      fun n hserial => ⟨exec_block_added h hserial, exec_block_listFull h hserial,
        fun hold => ⟨exec_block_again h hserial hold, exec_unblock_removed h hserial hold⟩, exec_unblock_notListed h hserial⟩⟩,
    fun hrole => ⟨fun bytes hread => ?_, readTag_eq_some_iff, fun bytes hread hstate => ?_, fun bytes ty n b hread hstate hbatch => ?_⟩,
    fun hdue hchange hbusy hrise hlist => ⟨_, exec_poolUpdateRetry_placed hdue hchange hbusy hrise hlist, rfl, rfl, rfl,
      poolCarried (s.onCgt fun g => { g with poolT := none }), ?_⟩,
    fun b home hdue hstate hbatch hhome hready hlist => exec_cgtPostingRetry_asked hdue hstate hbatch hhome hready hlist,
    fun hrole hrun => ⟨fun b e hstate hbatch href => ?_, fun e ep n o href hstale => ?_,
      fun b e p hstate hbatch href hended => ⟨fun cs node hkind => ?_, fun d node hkind => ?_, fun d node hkind => ?_,
        fun c d node hc hkind hbusy hwait hpend hsome hlen hroom => ?_⟩,
      fun b e p last hstate hbatch href hbody hentry hfailed => ?_, fun ep n e p hlate href => ⟨fun last hbody hentry hfailed => ?_,
        fun hended => ⟨fun cs node hkind => ?_, fun d node hkind => ?_, fun d node hkind => ?_, fun d node hkind hold => ?_, ?_,
          fun c d node hc hkind hbusy hwait hpend _ hsome hlen hroom => ?_⟩⟩⟩⟩
  · intro opening
    have hsome : (readAccountNo f).isSome = true := by rw [hacct, Option.isSome_some]
    refine ⟨fun hline => exec_batchOpen_refused h hsome (batchDeposits_notActive hcrates hline),
      fun hline hbusy => exec_batchOpen_refused h hsome (batchDeposits_busy hcrates hline hbusy),
      fun hline hidle hfull => exec_batchOpen_noRoom h hacct (batchDeposits_ok hcrates hline hidle) hfull,
      fun q qs hline hidle hplace => ⟨fun acc hacc hstate => ?_, fun hbook hmap hother hopen => ?_⟩⟩
    · obtain ⟨x, hfree, hopened⟩ := exec_batchOpen_here h hacct (batchDeposits_ok hcrates hline hidle) hplace hline hacc hstate
      exact ⟨_, hopened, rfl, rfl, rfl, hfree, rfl, rfl, rfl⟩
    · obtain ⟨x, hfree, hsearches⟩ := exec_batchOpen_searches h hacct (batchDeposits_ok hcrates hline hidle) hplace hopen hbook hmap hother
      exact ⟨_, hsearches, rfl, rfl, hfree, rfl, rfl, rfl, rfl⟩
  · exact exec_batchClose_issue h hstate hbatch htags hkind hhome hready hroom
  · intro p
    have hid : { batchPosting b with id := ⟨s.node.number, s.sys.epoch, s.node.nextPosting⟩ } = p := by
      simp only [p, batchPosting, hkind, hamount, Option.getD_none, batchPostKind]
    have hrise := poolNew_rise (s := s.onCgt (returnRises b false)) (counts := b.counts) rfl
    refine ⟨_, poolCarried (s.onCgt (returnRises b false)),
      exec_batchClose_return h hstate hbatch htags hkind hcounts hsome hwait hhome hbusy hpend hready ⟨h.1.2, by omega⟩, rfl, rfl, hbatch,
      rfl, rfl, rfl, ?_, ?_, rfl, rfl⟩
    · rw [← hid]
      exact listed_behind (poolPlaced_list hrise) _
    · rw [← hid, batchPostReq_eq_onePost hhome]
      rfl
  · have hclosed := closeBatch_returnWaits (s := carryAnswer s) hkind (by rwa [carryAnswer_cgt]) (by rwa [carryAnswer_cgt])
    exact exec_batchClose_closed h hstate hbatch htags (hclosed.trans (onCgt_carryAnswer _ s))
  · have hserial : serialOk n = false := by simpa [serialOk] using hbad
    exact ⟨exec_block_badValue h hserial, exec_unblock_badValue h hserial⟩
  · exact (exec_tagRead hrole bytes).trans (congrArg Host.Outcome.next (tagFrame_malformed hread))
  · exact (exec_tagRead hrole bytes).trans (congrArg Host.Outcome.next (tagFrame_unbatched hread hstate))
  · have htold : exec (.tagRead bytes) s = .next (batchRead ty n b s) :=
      (exec_tagRead hrole bytes).trans (congrArg Host.Outcome.next (tagFrame_opened hread hstate hbatch))
    refine ⟨fun hseen => ?_, fun hnew hblocked hrun => ?_, fun hnew hfree hfull hrun => ?_, fun hnew hfree hroom => ?_⟩
    · exact htold.trans (congrArg Host.Outcome.next (batchRead_duplicate hbatch hseen))
    · exact htold.trans (congrArg Host.Outcome.next (batchRead_rejected hbatch hnew hblocked hrun))
    · exact htold.trans (congrArg Host.Outcome.next (batchRead_refused hbatch hnew hfree hfull hrun))
    · exact htold.trans (congrArg Host.Outcome.next (batchRead_joined hbatch hnew hfree hroom))
  · have hnew : poolNew (s.onCgt fun g => { g with poolT := none }) =
        List.zipWith (fun (p : Nat) (c : Int) => (min 65535 (max 0 ((p : Int) + c))).toNat) s.node.pool s.cgt.pend := by
      simp only [poolNew, poolClamp_eq, onCgt_node, onCgt_cgt]
    exact poolPlaced_list hnew
  · have htold (out : ExcOut) := unitOutcome_batchLocate (s := s) href hrole out
    refine ⟨fun home => ?_, ?_, fun last => ?_⟩
    · exact (htold _).trans (batchLocated_home hstate hbatch hrun home)
    · exact (htold _).trans (batchLocated_noHome hstate hbatch hrun)
    · exact (htold _).trans (batchLocated_failed hstate hbatch hrun last)
  · exact (unitOutcome_batchLocate href hrole o).trans (batchLocated_stale hstale o)
  · have htaken (out : ExcOut) := unitOutcome_batchPostEnded href hrole hended (batchOutcome_return hstate hbatch hrun hkind out) rfl hended.listOpen
    exact ⟨htaken _, htaken _⟩
  · exact unitOutcome_batchPostEnded href hrole hended (batchOutcome_return hstate hbatch hrun hkind _) rfl hended.listOpen
  · exact unitOutcome_batchPostEnded href hrole hended (batchOutcome_refusedFunds hstate hbatch hrun hkind d node) rfl hended.listOpen
  · have hlist : ListTakes 2 s := ⟨hended.listOpen.1, by omega⟩
    have htaken := batchOutcome_issued hstate hbatch hrun hkind ⟨c, d, node, rfl, hc⟩ hbusy hwait hpend hsome hlen hlist.listOpen
    have hopen : ListOpen ((poolPlaced (poolFalling p s)).onCgt (batchEnded .done none b)) := poolPlaced_listOpen (s := poolFalling p s) hlist
    exact ⟨_, _, unitOutcome_batchPostEnded href hrole hended htaken (flagged_exc ..) hopen, outcomeTaken_behind (poolFalling_list p s) e p,
      rfl, rfl, rfl, rfl, rfl, rfl⟩
  · exact unitOutcome_batchPostFailed href hrole hbody hentry hfailed (batchOutcome_failed hstate hbatch hrun p last) rfl
  · exact unitOutcome_batchPostFailed href hrole hbody hentry hfailed (batchOutcome_lateNoted hlate hrun rfl rfl p) rfl
  · have htaken (out : ExcOut) := unitOutcome_batchPostEnded href hrole hended (batchOutcome_lateReturn hlate hrun hkind out) rfl hended.listOpen
    exact ⟨htaken _, htaken _⟩
  · exact unitOutcome_batchPostEnded href hrole hended (batchOutcome_lateReturn hlate hrun hkind _) rfl hended.listOpen
  · exact unitOutcome_batchPostEnded href hrole hended (batchOutcome_lateNoted hlate hrun rfl rfl p) rfl hended.listOpen
  · have hstays : lateFalls ep (.answer .doneAlready d node) s = false := beq_false_of_ne hold
    exact unitOutcome_batchPostEnded href hrole hended (batchOutcome_lateNoted hlate hrun rfl hstays p) rfl hended.listOpen
  · exact unitOutcome_batchPostEnded href hrole hended (batchOutcome_lateNoted hlate hrun rfl rfl p) rfl hended.listOpen
  · have hlist : ListTakes 2 s := ⟨hended.listOpen.1, by omega⟩
    have hfalls : lateFalls ep (.answer c d node) s = true := by
      obtain rfl | ⟨rfl, rfl⟩ := hc
      · rfl
      · exact beq_self_eq_true s.cgt.startEpoch
    have htaken := batchOutcome_lateIssued hlate hrun hkind hfalls hbusy hwait hpend hsome hlen hlist.listOpen
    have hopen := poolPlaced_listOpen (s := poolFalling p (flagged .batchDone (s.onCgt (batchLate ep n p (.answer c) none)))) hlist
    exact ⟨_, _, unitOutcome_batchPostEnded href hrole hended htaken (poolPlaced_exc _) hopen, outcomeTaken_behind (poolFalling_list p _) e p,
      rfl, rfl, rfl, rfl, rfl, rfl⟩

end Sys2Proof.Machine
end

section
/-! The checks that every port command passes, and the port's own commands: NOP/STATUS, ACK, MASK, LOCK and UNLOCK (O16 to O18). -/

namespace Sys2Proof.Machine
open Sys2Proof

section
variable {s : State}

/-! ### The checks of a frame (R64, R198, R208) -/

theorem frame_off (hoff : s.sys.phase = .off) (ok : Bool) (role : Option Role) (owner : State → State × Reply) : frame ok role owner s = s := by
  rw [frame_cases, if_pos hoff]

section
variable (hpower : s.sys.phase ≠ .off)
include hpower

theorem frame_starting (hstart : portStarting s = true) (ok : Bool) (role : Option Role) (owner : State → State × Reply) :
    frame ok role owner s = unanswered .none s := by
  rw [frame_cases, if_neg hpower, if_pos hstart]

theorem takeRestart_starting (hstart : portStarting s = true) (ok : Bool) : takeRestart ok s = unanswered .none s := by
  have hframe := frame_starting hpower hstart ok none (finish .none)
  unfold frame at hframe
  unfold takeRestart
  simp only [if_neg hpower, portStarting_carryAnswer, if_pos hstart] at hframe ⊢
  exact hframe

end

theorem Taken.powered (h : Taken s) : s.sys.phase ≠ .off := by rw [h.1]; decide

section
variable (h : Taken s)
include h

theorem frame_badLength (role : Option Role) (owner : State → State × Reply) : frame false role owner s = answered .badValue .none s := by
  rw [frame_cases, if_neg h.powered, if_neg (by simp [h.not_starting]), if_pos rfl]

theorem frame_otherRole {r : Role} (hrole : s.port.role ≠ some r) (owner : State → State × Reply) :
    frame true (some r) owner s = answered .wrongRole .none s := by
  have hother : ((some r).isSome && some r != s.port.role) = true := by simpa using Ne.symm hrole
  rw [frame_cases, if_neg h.powered, if_neg (by simp [h.not_starting]), if_neg (by decide), if_pos hother]

theorem takeRestart_badLength : takeRestart false s = answered .badValue .none s := by
  have hstart : ¬ portStarting (carryAnswer s) = true := by simp [portStarting_carryAnswer, h.not_starting]
  rw [takeRestart, if_neg h.powered]
  exact (if_neg hstart).trans ((if_pos rfl).trans (compose_carryAnswer ..))

end

/-- R70: an ERASE STORE whose frame begins no erasure is its frame alone. -/
theorem takeEraseStore_unbegun {ok : Bool} {t : State} (hframe : frame ok none eraseOwner s = t) (hstore : t.store = s.store) :
    takeEraseStore ok s = t := by
  have hnone : (s.store.erasing.isNone && s.store.erasing.isSome) = false := by cases s.store.erasing <;> rfl
  rw [takeEraseStore, hframe, hstore, hnone, if_neg (by decide)]

end

/-- Every port command but RESTART and ERASE STORE is a frame under its own argument length and role (R198). -/
theorem exec_portCommand {i : Instr} {ok : Bool} (hi : argumentOk i = some ok) (s : State) :
    i = .restart ok ∨ i = .eraseStore ok ∨ ∃ owner, exec i s = .next (frame ok (commandRole i) owner s) := by
  cases i
  case restart => exact .inl (congrArg Instr.restart (Option.some.inj hi))
  case eraseStore => exact .inr (.inl (congrArg Instr.eraseStore (Option.some.inj hi)))
  all_goals cases hi
  all_goals exact .inr (.inr ⟨_, rfl⟩)

/-- Settles O16: RESTART and ERASE STORE pass the checks before they begin a start-up or an erasure; every other port command is a frame. -/
theorem portChecksCommands : Obligations.PortChecksCommands := by
  intro i s hport
  obtain ⟨ok, hok⟩ := Option.isSome_iff_exists.1 hport
  rw [hok]
  obtain rfl | rfl | ⟨owner, hexec⟩ := exec_portCommand hok s
  · refine ⟨fun hoff => congrArg Host.Outcome.next (if_pos hoff),
      fun hpower hstart => congrArg Host.Outcome.next (takeRestart_starting hpower hstart ok), fun h hbad => ?_, fun _ _ hrole => nomatch hrole⟩
    obtain rfl := Option.some.inj hbad
    exact congrArg Host.Outcome.next (takeRestart_badLength h)
  · refine ⟨fun hoff => congrArg Host.Outcome.next (takeEraseStore_unbegun (frame_off hoff ..) rfl),
      fun hpower hstart => congrArg Host.Outcome.next (takeEraseStore_unbegun (frame_starting hpower hstart ..) rfl),
      fun h hbad => ?_, fun _ _ hrole => nomatch hrole⟩
    obtain rfl := Option.some.inj hbad
    exact congrArg Host.Outcome.next (takeEraseStore_unbegun (frame_badLength h ..) rfl)
  · rw [hexec]
    refine ⟨fun hoff => congrArg Host.Outcome.next (frame_off hoff ..),
      fun hpower hstart => congrArg Host.Outcome.next (frame_starting hpower hstart ..), fun h hbad => ?_, fun h hgood hrole hother => ?_⟩
    · obtain rfl := Option.some.inj hbad
      exact congrArg Host.Outcome.next (frame_badLength h ..)
    · obtain rfl := Option.some.inj hgood
      obtain ⟨r, hr⟩ := Option.isSome_iff_exists.1 hrole
      rw [hr] at hother ⊢
      exact congrArg Host.Outcome.next (frame_otherRole h hother.symm owner)

/-! ### The attention flags and their word (R199 to R201) -/

section
variable {s : State}

theorem onPort_carryAnswer {f : Port → Port} (hbuf : ∀ p, (f p).buf = p.buf) (hsent : ∀ p x, f { p with sent := x } = { f p with sent := x })
    (s : State) : (carryAnswer s).onPort f = carryAnswer (s.onPort f) := by
  rw [carryAnswer_eq, carryAnswer_eq]
  rw [State.onPort, hsent]
  simp only [State.onPort, hbuf]

theorem readFlags_word {bits : Word16} (h : bits.toNat < 4096) : readFlags bits = some (bits.setWidth 12) := if_pos h

theorem readFlags_wide {bits : Word16} (h : 4096 ≤ bits.toNat) : readFlags bits = none := if_neg (Nat.not_lt.2 h)

/-- A word meets a flag's bit in the latched flags where both have it set. -/
theorem flagBit_masked_eq_zero_iff (b flags : BitVec 12) (f : Flag) :
    b &&& flags &&& flagBit f = 0 ↔ (flags.getLsbD (flagIndex f) && b.getLsbD (flagIndex f)) = false := by
  have hbit : (BitVec.twoPow 12 (flagIndex f)) ≠ 0#12 := by cases f <;> decide
  rw [flagBit, BitVec.and_twoPow, BitVec.getLsbD_and, Bool.and_comm]
  split
  · next hset => exact iff_of_false hbit (by rw [hset]; decide)
  · next hclear => exact iff_of_true rfl (Bool.eq_false_iff.2 hclear)

/-- R200: the flags that an ACK leaves, and the failure capture. -/
theorem clearFlagBits_eq (b : BitVec 12) (s : State) : clearFlagBits b s = { s with
    port := { s.port with flags := s.port.flags &&& ~~~b }
    exc := if s.port.flags.getLsbD 6 && b.getLsbD 6 then { s.exc with capture := none } else s.exc } := by
  have hbits := flagBit_masked_eq_zero_iff b s.port.flags .postingFailed
  simp only [flagIndex] at hbits
  unfold clearFlagBits
  cases hboth : s.port.flags.getLsbD 6 && b.getLsbD 6 with
  | true => rw [if_neg (by rw [hbits, hboth]; decide)]; rfl
  | false => rw [if_pos (hbits.2 hboth)]; rfl

theorem clearFlagBits_carryAnswer (b : BitVec 12) (s : State) : clearFlagBits b (carryAnswer s) = carryAnswer (clearFlagBits b s) := by
  rw [clearFlagBits_eq, clearFlagBits_eq, carryAnswer_eq, carryAnswer_eq]

/-- R201: an enabled latched flag drives ATN. -/
theorem atnAsserted_iff (p : Port) : atnAsserted p = true ↔ ∃ i, i < 12 ∧ p.flags.getLsbD i = true ∧ p.mask.getLsbD i = true := by
  have hzero : p.flags &&& p.mask = 0 ↔ ∀ i, i < 12 → (p.flags.getLsbD i && p.mask.getLsbD i) = false := by
    refine ⟨fun h i _ => ?_, fun h => BitVec.eq_of_getLsbD_eq fun i hi => ?_⟩
    · rw [← BitVec.getLsbD_and, h, BitVec.ofNat_eq_ofNat, BitVec.getLsbD_zero]
    · rw [BitVec.getLsbD_and, h i hi, BitVec.ofNat_eq_ofNat, BitVec.getLsbD_zero]
  rw [atnAsserted, bne_iff_ne, Ne, hzero]
  simp

/-! ### The status word (section 10.1) -/

theorem statusWord_atn (s : State) (f : PortFault) : (statusWord s f).getLsbD 25 = atnAsserted s.port := by
  rw [statusWord]
  iterate 6 rw [BitVec.getLsbD_append]
  simp

theorem statusWord_lock (s : State) (f : PortFault) : (statusWord s f).getLsbD 27 = s.port.lock := by
  rw [statusWord]
  iterate 8 rw [BitVec.getLsbD_append]
  simp

theorem statusWord_flags (s : State) (f : PortFault) {i : Nat} (hi : i < 12) : (statusWord s f).getLsbD i = s.port.flags.getLsbD i := by
  rw [statusWord, BitVec.getLsbD_append, if_pos hi]

/-! ### What the lock refuses (R202) -/

section
variable (hlock : s.port.lock = true)
include hlock

theorem configureOwner_locked {items : List ConfigItem} (hitems : (readConfig items).isSome = true) :
    configureOwner items s = refuse .locked s := by
  obtain ⟨c, hc⟩ := Option.isSome_iff_exists.1 hitems
  simp [configureOwner, hc, hlock]

theorem bookCmd_locked {ask : Option BookAsk} (hask : ask.isSome = true) : bookCmd true ask s = refuse .locked s := by
  obtain ⟨a, rfl⟩ := Option.isSome_iff_exists.1 hask
  simp [bookCmd_some, hlock]

theorem eraseOwner_locked : eraseOwner s = refuse .locked s := if_pos hlock

theorem calAverage_locked : calAverage s = .error .locked := if_pos hlock

theorem calWriteOwner_locked (d c : Field) : calWriteOwner d c s = refuse .locked s := if_pos hlock

end

end

/-- Settles O17: by whether the word stays within the twelve flags. -/
theorem ackClearsFlags : Obligations.AckClearsFlags := by
  intro s bits h
  have hack {t : State} {c : PCode} (ho : ackOwner bits (carryAnswer s) = (carryAnswer t, ⟨c, .none⟩)) :
      exec (.ack true bits) s = .next (answered c .none t) :=
    congrArg Host.Outcome.next (frame_effect h none (.inl rfl) _ _ _ ho)
  refine ⟨fun hword => hack ?_, fun hwide => hack ?_⟩
  · have hset : (bits.setWidth 12).getLsbD 6 = bits.getLsbD 6 := by simp
    rw [ackOwner, readFlags_word hword, ← hset, ← clearFlagBits_eq, ← clearFlagBits_carryAnswer]
    rfl
  · rw [ackOwner, readFlags_wide hwide]
    rfl

/-- Settles O18: the commands that change the port alone, the status word bit by bit, and the lock at each command that it refuses. -/
theorem maskAndLock : Obligations.MaskAndLock := by
  intro s bits h
  have hport {owner : State → State × Reply} {c : PCode} {t : State} (ho : owner (carryAnswer s) = (carryAnswer t, ⟨c, .none⟩)) :
      frame true none owner s = answered c .none t := frame_effect h none (.inl rfl) owner c .none ho
  have hset (b : Bool) : setLock b (carryAnswer s) = (carryAnswer { s with port := { s.port with lock := b } }, ⟨.done, .none⟩) :=
    congrArg (·, (⟨.done, .none⟩ : Reply)) (onPort_carryAnswer (f := fun p => { p with lock := b }) (fun _ => rfl) (fun _ _ => rfl) s)
  refine ⟨congrArg Host.Outcome.next (hport rfl), congrArg Host.Outcome.next (hport (hset true)),
    congrArg Host.Outcome.next (hport (hset false)), fun hword => congrArg Host.Outcome.next (hport ?_),
    fun hwide => congrArg Host.Outcome.next (hport ?_), atnAsserted_iff s.port,
    fun f => ⟨statusWord_atn s f, statusWord_lock s f, fun i hi => statusWord_flags s f hi⟩, fun c => rfl, fun hlock => ?_⟩
  · rw [maskOwner, readFlags_word hword]
    exact congrArg (·, (⟨.done, .none⟩ : Reply))
      (onPort_carryAnswer (f := fun p => { p with mask := bits.setWidth 12 }) (fun _ => rfl) (fun _ _ => rfl) s)
  · rw [maskOwner, readFlags_wide hwide]
    rfl
  · have hlock' : (carryAnswer s).port.lock = true := by rwa [carryAnswer_lock]
    have hrefused {role : Option Role} {owner : State → State × Reply} (hr : role = none ∨ role = s.port.role)
        (ho : owner (carryAnswer s) = refuse .locked (carryAnswer s)) : frame true role owner s = answered .locked .none s :=
      frame_refused h hr ho
    refine ⟨fun items hitems => congrArg Host.Outcome.next (hrefused (.inl rfl) (configureOwner_locked hlock' hitems)),
      fun acct amount hread => congrArg Host.Outcome.next (hrefused (.inl rfl) (bookCmd_locked hlock' hread)),
      fun acct hread => congrArg Host.Outcome.next (hrefused (.inl rfl) (bookCmd_locked hlock' (by simpa using hread))),
      congrArg Host.Outcome.next (takeEraseStore_unbegun (hrefused (.inl rfl) (eraseOwner_locked hlock')) rfl), fun hrole => ?_⟩
    have hscale : TakenBy .scale s := ⟨h, hrole⟩
    refine ⟨congrArg Host.Outcome.next (frame_calZero_refused hscale (calAverage_locked hlock)), fun g hg => ?_,
      fun d c => congrArg Host.Outcome.next (frame_scale_refused hscale (calWriteOwner_locked hlock' d c))⟩
    obtain ⟨n, hn⟩ := Option.isSome_iff_exists.1 hg
    exact congrArg Host.Outcome.next (frame_calSpan_refused hscale hn (calAverage_locked hlock))

end Sys2Proof.Machine
end

section
/-! The read commands, READ LIST among them, and COLLECT SALE (O19). -/

namespace Sys2Proof.Machine
open Sys2Proof

/-! ### A read answers from the working copies (R203) -/

@[simp] theorem readEnded_lotEvent (w : Wgu) : (readEnded w).lotEvent = w.lotEvent := by unfold readEnded; split <;> rfl
@[simp] theorem readEnded_cnt (w : Wgu) : (readEnded w).cnt = w.cnt := by unfold readEnded; split <;> rfl
@[simp] theorem readEnded_ctr (w : Wgu) : (readEnded w).ctr = w.ctr := by unfold readEnded; split <;> rfl

section
variable {s : State}

/-- An owner that only answers leaves the state as the frame found it. -/
theorem frame_read (h : Taken s) {role : Option Role} (hr : role = none ∨ role = s.port.role) {f : State → Reply} {c : PCode} {d : PData}
    (hsame : f (carryAnswer s) = f s) (hf : f s = ⟨c, d⟩) : frame true role (replyOnly f) s = answered c d s :=
  frame_effect h role hr _ c d (by rw [replyOnly, hsame, hf])

theorem readAccountOwner_carryAnswer (f : Field) (s : State) : readAccountOwner f (carryAnswer s) = readAccountOwner f s := by
  simp only [readAccountOwner, accountOf, carryAnswer_book]

theorem readHoldOwner_carryAnswer (k : Ident) (s : State) : readHoldOwner k (carryAnswer s) = readHoldOwner k s := by
  simp only [readHoldOwner, carryAnswer_book]

theorem readLotOwner_carryAnswer (sel : LotSel) (s : State) : readLotOwner sel (carryAnswer s) = readLotOwner sel s := by
  simp only [readLotOwner, findLot, carryAnswer_wgu, readEnded_lots, readEnded_lotEvent]

theorem readQueueOwner_carryAnswer (sel : QueueSel) (s : State) : readQueueOwner sel (carryAnswer s) = readQueueOwner sel s := by
  simp only [readQueueOwner, headLot_carryAnswer, carryAnswer_clu]

theorem findSale_carryAnswer (n : Nat) (s : State) : findSale (carryAnswer s) n = findSale s n := by simp only [findSale, carryAnswer_clu]

theorem readSaleOwner_carryAnswer (sel : SaleSel) (s : State) : readSaleOwner sel (carryAnswer s) = readSaleOwner sel s := by
  simp only [readSaleOwner, findSale_carryAnswer, carryAnswer_clu]

theorem readOutboundOwner_carryAnswer (sel : OutSel) (s : State) : readOutboundOwner sel (carryAnswer s) = readOutboundOwner sel s := by
  simp only [readOutboundOwner, findEntry, carryAnswer_exc]

theorem peerLines_carryAnswer (s : State) : peerLines (carryAnswer s) = peerLines s := by simp only [peerLines, carryAnswer_lif]

theorem countersData_carryAnswer (sel : CounterSel) (s : State) : countersData sel (carryAnswer s) = countersData sel s := by
  have hport : countersData .port (carryAnswer s) = countersData .port s := by rw [carryAnswer_eq]; rfl
  have hconfiguration : countersData .configuration (carryAnswer s) = countersData .configuration s := by rw [carryAnswer_eq]; rfl
  cases sel with
  | port => exact hport
  | configuration => exact hconfiguration
  | _ => simp [countersData, entryCounts, roleCounters]

theorem collection_carryAnswer (c : Collection) (s : State) : collection c (carryAnswer s) = collection c s := by
  simp only [collection, peerLines_carryAnswer, batchTags, carryAnswer_role, carryAnswer_book, carryAnswer_exc, carryAnswer_wgu, carryAnswer_clu,
    carryAnswer_cgt, readEnded_lots]

theorem readListOwner_carryAnswer (c : Collection) (pos : Nat) (s : State) : readListOwner c pos (carryAnswer s) = readListOwner c pos s := by
  simp only [readListOwner, collection_carryAnswer]

/-! ### READ COUNTERS (R50, R61, R88, R113, R138, R165, R180, R195, R207) -/

section
variable (h : Taken s) {sel : CounterSel}
include h

theorem exec_readCounters_data {d : PData} (hd : countersData sel s = some d) :
    exec (.readCounters true sel) s = .next (answered .done d s) :=
  congrArg Host.Outcome.next (frame_read h (.inl rfl) (by simp only [countersData_carryAnswer]) (by rw [hd]; rfl))

theorem exec_readCounters_none (hd : countersData sel s = none) :
    exec (.readCounters true sel) s = .next (answered (if sel = .other then .badValue else .wrongRole) .none s) :=
  congrArg Host.Outcome.next (frame_read h (.inl rfl) (by simp only [countersData_carryAnswer]) (by rw [hd]; rfl))

end

/-! ### READ LIST (R203) -/

/-- Groups of bytes that take no more than `n` in all are whole; the next one, where there is one, would pass `n`. -/
theorem lt_sum_take_fitGroups (n : Nat) (gs : List (List Byte)) (hcut : (fitGroups n gs).length < gs.length) :
    n < ((gs.map List.length).take ((fitGroups n gs).length + 1)).sum := by
  induction gs generalizing n with
  | nil => exact absurd hcut (Nat.not_lt_zero _)
  | cons g gs ih =>
    unfold fitGroups at hcut ⊢
    split
    · next hfits =>
      rw [if_pos hfits, List.length_cons, List.length_cons, Nat.succ_lt_succ_iff] at hcut
      have hrest := ih (n - g.length) hcut
      rw [List.map_cons, List.length_cons, List.take_succ_cons, List.sum_cons]
      omega
    · next hfull => simpa using hfull

theorem sum_take_fitGroups_le (n : Nat) (gs : List (List Byte)) : ((gs.map List.length).take (fitGroups n gs).length).sum ≤ n := by
  rw [← List.map_take, ← fitGroups_eq_take, ← List.length_flatten]
  exact fitGroups_flatten_le n gs

/-- What the collections of READ LIST have in common: entry for entry they are a list. -/
structure ListsEntries {α : Type} (mk : List α → ListData) : Prop where
  size : ∀ l, (mk l).size = l.length
  part : ∀ l pos n, (mk l).part pos n = mk ((l.drop pos).take n)
  entries : ∀ l, (mk l).entries.length = l.length

/-- A READ LIST of the entries `l` of a collection, from every position. -/
def ListsFrom {α : Type} (c : Collection) (l : List α) (mk : List α → ListData) (s : State) : Prop :=
  ∀ pos, ∃ n, exec (.readList true c pos) s = .next (answered .done
      (.list (mk ((l.drop pos).take n)) (if pos + n < l.length then some (pos + n) else none)) s) ∧
    let sizes := (mk (l.drop pos)).entries.map List.length
    (sizes.take n).sum ≤ 247 ∧ (n < sizes.length → 247 < (sizes.take (n + 1)).sum)

section
variable {α : Type} {mk : List α → ListData} {l : List α} {c : Collection}

theorem listAnswer_eq (hmk : ListsEntries mk) (l : List α) (pos : Nat) : listAnswer (mk l) pos =
    let n := (fitGroups 247 (mk (l.drop pos)).entries).length
    .list (mk ((l.drop pos).take n)) (if pos + n < l.length then some (pos + n) else none) := by
  have hwhole : (l.drop pos).take l.length = l.drop pos := List.take_of_length_le (by simp)
  simp only [listAnswer, hmk.size, hmk.part, hwhole, ListData.fit]

theorem exec_readList_entries (h : Taken s) (hmk : ListsEntries mk) (hc : collection c s = some (mk l)) : ListsFrom c l mk s := by
  intro pos
  refine ⟨(fitGroups 247 (mk (l.drop pos)).entries).length, congrArg Host.Outcome.next ?_, sum_take_fitGroups_le 247 _, fun hcut => ?_⟩
  · refine frame_read h (.inl rfl) (readListOwner_carryAnswer c pos s) ?_
    rw [readListOwner, hc, Option.map_some, listAnswer_eq hmk]
    rfl
  · exact lt_sum_take_fitGroups 247 _ (by simpa using hcut)

theorem exec_readList_none (h : Taken s) (hc : collection c s = none) (pos : Nat) :
    exec (.readList true c pos) s = .next (answered (if c = .other then .badValue else .wrongRole) .none s) :=
  congrArg Host.Outcome.next (frame_read h (.inl rfl) (readListOwner_carryAnswer c pos s) (by rw [readListOwner, hc]; rfl))

end

/-- The role at which a collection exists; none for those of every role (R203). -/
def collectionRole : Collection → Option Role
  | .lots => some .scale
  | .claims | .sales | .desks => some .clock
  | .blocked | .tags => some .gate
  | _ => none

theorem collection_otherRole {c : Collection} {r : Role} (hc : collectionRole c = some r) (hrole : s.port.role ≠ some r) :
    collection c s = none := by
  unfold collection
  split <;> simp_all [collectionRole]

theorem exec_readList_otherRole (h : Taken s) {c : Collection} {r : Role} (hc : collectionRole c = some r) (hrole : s.port.role ≠ some r)
    (pos : Nat) : exec (.readList true c pos) s = .next (answered .wrongRole .none s) := by
  have hother : c ≠ .other := by rintro rfl; exact nomatch hc
  rw [exec_readList_none h (collection_otherRole hc hrole), if_neg hother]

/-! ### COLLECT SALE (R163) -/

theorem placeSaleUpdate_collected (hlist : ListOpen s) (n : Nat) :
    placeSaleUpdate n .collected s = listed ⟨.sale n .collected, .group [.saleUpdate n .collected]⟩ s := by
  have hsame : onSale n (noteUpdate .collected) s = s := by simp [onSale, State.onClu, noteUpdate]
  rw [placeSaleUpdate_listed hlist, hsame, saleUpdateListed]

section
variable (h : TakenBy .clock s) {n : Nat}
include h

theorem exec_collectSale_noSale (hfind : findSale s n = none) : exec (.collectSale true n) s = .next (answered .noSale .none s) := by
  refine congrArg Host.Outcome.next (frame_clock_refused h ?_)
  simp only [collectOwner, findSale_carryAnswer, hfind]

variable {e : Sale} (hfind : findSale s n = some e)
include hfind

theorem exec_collectSale_again (hcollected : e.entry.collected = true) :
    exec (.collectSale true n) s = .next (answered .done (.sale e.entry) s) := by
  refine congrArg Host.Outcome.next (frame_clock h ?_)
  simp only [collectOwner, collectSale, findSale_carryAnswer, hfind, hcollected, if_true]

theorem exec_collectSale_listed (hcollected : e.entry.collected = false) (hroom : listRoom s = true) :
    exec (.collectSale true n) s =
      .next (answered .done (.sale e.entry) (listed ⟨.sale n .collected, .group [.saleUpdate n .collected]⟩ s)) := by
  have hlist : ListOpen (carryAnswer s) := by rw [ListOpen, listRoom, carryAnswer_store]; exact ⟨h.1.2, hroom⟩
  refine congrArg Host.Outcome.next (frame_clock h ?_)
  simp only [collectOwner, collectSale, findSale_carryAnswer, hfind, hcollected, placeSaleUpdate_collected hlist, listed_carryAnswer,
    Bool.false_eq_true, if_false]

end

end

/-- Settles O19: each read by its owner, READ LIST collection by collection, and COLLECT SALE by whether its sale is collected. -/
theorem readsAnswer : Obligations.ReadsAnswer := by
  intro s h
  have hread {role : Option Role} {f : State → Reply} {c : PCode} {d : PData} {o : Host.Outcome State Fault Refusal}
      (ho : o = .next (frame true role (replyOnly f) s)) (hr : role = none ∨ role = s.port.role) (hsame : f (carryAnswer s) = f s)
      (hf : f s = ⟨c, d⟩) : o = .next (answered c d s) :=
    ho.trans (congrArg Host.Outcome.next (frame_read h hr hsame hf))
  refine ⟨fun f a hf => ⟨fun acc hacc => ?_, fun hnone => ?_⟩, fun f hf => ?_, fun n e k x hx => ?_, fun q e he => ?_,
    hread rfl (.inl rfl) (readOutboundOwner_carryAnswer _ s) rfl, ?_, ?_, exec_readCounters_data h rfl, exec_readCounters_data h rfl,
    exec_readCounters_data h rfl, exec_readCounters_data h rfl, fun hrole => ?_, exec_readCounters_none h rfl,
    hread rfl (.inl rfl) (readOutboundOwner_carryAnswer _ s) rfl, fun pos => exec_readList_none h rfl pos, exec_readCounters_data h rfl,
    exec_readCounters_data h rfl, ?_, ?_, fun hscale => ?_, fun hclock => ?_⟩
  · exact hread rfl (.inl rfl) (readAccountOwner_carryAnswer f s) (by simp only [readAccountOwner, hf, hacc]; rfl)
  · exact hread rfl (.inl rfl) (readAccountOwner_carryAnswer f s) (by simp only [readAccountOwner, hf, hnone]; rfl)
  · exact hread rfl (.inl rfl) (readAccountOwner_carryAnswer f s) (by simp only [readAccountOwner, hf])
  · exact hread rfl (.inl rfl) (readHoldOwner_carryAnswer _ s) (by rw [readHoldOwner, hx]; rfl)
  · exact hread rfl (.inl rfl) (readOutboundOwner_carryAnswer _ s) (by rw [readOutboundOwner, he]; rfl)
  · exact hread rfl (.inl rfl) (by rw [carryAnswer_store]) rfl
  · exact hread rfl (.inl rfl) (by rw [peerLines_carryAnswer]) rfl
  · exact exec_readCounters_none h (by rw [countersData, roleCounters, hrole])
  · refine ⟨fun hrole => ?_, fun hrole => ?_, fun hrole => ?_, fun hrole => ?_⟩ <;>
      exact exec_readCounters_data h (by rw [countersData, roleCounters, hrole])
  · intro lists wrongRole
    have hentries {α : Type} {c : Collection} {l : List α} {mk : List α → ListData} (hc : collection c s = some (mk l))
        (hmk : ListsEntries mk) : lists α c l mk := exec_readList_entries h hmk hc
    have hother {c : Collection} {r : Role} (hc : collectionRole c = some r) (hrole : s.port.role ≠ some r) : wrongRole c :=
      exec_readList_otherRole h hc hrole
    refine ⟨hentries rfl ?_, hentries rfl ?_, hentries rfl ?_, hentries rfl ?_, hentries rfl ?_,
      fun hscale => hentries (by simp only [collection, hscale]) ?_,
      fun hclock => ⟨hentries (by simp only [collection, hclock]) ?_, hentries (by simp only [collection, hclock]) ?_,
        hentries (by simp only [collection, hclock]) ?_⟩,
      fun hgate => ⟨hentries (by simp only [collection, hgate]) ?_, hentries (by simp only [collection, hgate]; rfl) ?_⟩,
      hother rfl, fun hrole => ⟨hother rfl hrole, hother rfl hrole, hother rfl hrole⟩, fun hrole => ⟨hother rfl hrole, hother rfl hrole⟩⟩
    all_goals exact ⟨fun _ => rfl, fun _ _ _ => rfl, fun _ => List.length_map _⟩
  · have hr : some Role.scale = none ∨ some .scale = s.port.role := .inr hscale.symm
    refine ⟨fun n l hl => ?_, fun n hn => ?_, hread rfl hr (readLotOwner_carryAnswer _ s) rfl⟩
    · exact hread rfl hr (readLotOwner_carryAnswer _ s) (by rw [readLotOwner, hl]; rfl)
    · exact hread rfl hr (readLotOwner_carryAnswer _ s) (by rw [readLotOwner, hn]; rfl)
  · have htaken : TakenBy .clock s := ⟨h, hclock⟩
    have hr : some Role.clock = none ∨ some .clock = s.port.role := .inr hclock.symm
    refine ⟨hread rfl hr (readQueueOwner_carryAnswer _ s) rfl, hread rfl hr (readQueueOwner_carryAnswer _ s) rfl,
      hread rfl hr (readSaleOwner_carryAnswer _ s) rfl, fun n hnone => exec_collectSale_noSale htaken hnone, fun n e he => ⟨?_,
      exec_collectSale_again htaken he, exec_collectSale_listed htaken he⟩⟩
    exact hread rfl hr (readSaleOwner_carryAnswer _ s) (by rw [readSaleOwner, he]; rfl)

end Sys2Proof.Machine
end

section
/-! The station port's frames as bytes: the answer sent, the command table, the faults of a frame and its row (O22). -/

namespace Sys2Proof.Machine
open Sys2Proof

/-! ### The check over a message and its check word (section 4.1) -/

/-- A data bit that equals the register's highest bit only shifts the register. -/
theorem checkBit_own (r : BitVec 16) : checkBit r r.msb = r <<< 1 := by simp [checkBit]

/-- A byte that equals the register's high byte shifts it out. -/
theorem checkByte_own {r : BitVec 16} {b : Byte} (hown : ∀ i, i < 8 → b.getLsbD i = r.getLsbD (i + 8)) : checkByte r b = r <<< 8 := by
  have hbit (k : Nat) (hk : k < 8) : checkBit (r <<< k) (b.getLsbD (7 - k)) = r <<< (k + 1) := by
    have hmsb : (r <<< k).msb = b.getLsbD (7 - k) := by
      rw [hown (7 - k) (by omega), BitVec.msb_eq_getLsbD_last, BitVec.getLsbD_shiftLeft]
      have hindex : 16 - 1 - k = 7 - k + 8 := by omega
      simp [hindex, show 7 - k + 8 < 16 by omega, show k ≤ 15 by omega]
    rw [← hmsb, checkBit_own, ← BitVec.shiftLeft_add]
  have h0 := hbit 0 (by decide)
  rw [BitVec.shiftLeft_zero] at h0
  simp only [checkByte, List.foldl_cons, List.foldl_nil]
  rw [h0, hbit 1 (by decide), hbit 2 (by decide), hbit 3 (by decide), hbit 4 (by decide), hbit 5 (by decide), hbit 6 (by decide),
    hbit 7 (by decide)]

theorem beBytes_two (v : Nat) : beBytes 2 v = [BitVec.ofNat 8 (v / 256 % 256), BitVec.ofNat 8 (v % 256)] := rfl

/-- The check register runs to zero over its own two bytes. -/
theorem lineCheck_append_check (bs : List Byte) : lineCheck (bs ++ beBytes 2 (lineCheck bs).toNat) = 0 := by
  have hrun : lineCheck (bs ++ beBytes 2 (lineCheck bs).toNat) = (beBytes 2 (lineCheck bs).toNat).foldl checkByte (lineCheck bs) := by
    rw [lineCheck, List.foldl_append]
    rfl
  generalize lineCheck bs = r at hrun
  have hhigh : checkByte r (BitVec.ofNat 8 (r.toNat / 256 % 256)) = r <<< 8 := by
    refine checkByte_own fun i hi => ?_
    rw [BitVec.getLsbD_ofNat, show (256 : Nat) = 2 ^ 8 from rfl, Nat.testBit_mod_two_pow, Nat.testBit_div_two_pow, Nat.add_comm]
    simp [hi, BitVec.getLsbD]
  have hlow : checkByte (r <<< 8) (BitVec.ofNat 8 (r.toNat % 256)) = r <<< 8 <<< 8 := by
    refine checkByte_own fun i hi => ?_
    rw [BitVec.getLsbD_ofNat, show (256 : Nat) = 2 ^ 8 from rfl, Nat.testBit_mod_two_pow, BitVec.getLsbD_shiftLeft]
    simp [hi, BitVec.getLsbD, show i + 8 < 16 by omega]
  rw [hrun, beBytes_two, List.foldl_cons, List.foldl_cons, List.foldl_nil, hhigh, hlow, ← BitVec.shiftLeft_add]
  simp

/-! ### The answer buffer as PDO sends it (R196, R203) -/

/-- R203: byte 0 of a read and its whole field groups, or the groups alone. -/
theorem PData.bytes_length_le (d : PData) : d.bytes.length ≤ 250 := by
  unfold PData.bytes
  split
  · have hgroups := fitGroups_flatten_le 249 d.groups
    rw [List.length_cons]
    omega
  · exact fitGroups_flatten_le 250 d.groups

theorem PAnswer.bytes_eq (a : PAnswer) : a.bytes = beBytes 4 a.status.toNat ++
    BitVec.ofNat 8 (codeValue a.code) :: BitVec.ofNat 8 a.data.bytes.length :: (a.data.bytes ++ beBytes 2 (lineCheck a.head).toNat) := by
  simp [PAnswer.bytes, PAnswer.head]

theorem PAnswer.bytes_length (a : PAnswer) : a.bytes.length = 8 + a.data.bytes.length := by
  simp only [a.bytes_eq, List.length_append, List.length_cons, beBytes_length]
  omega

/-- Byte 5 is the data length. -/
theorem PAnswer.bytes_dataLength (a : PAnswer) : (a.bytes[5]?).map (·.toNat) = some a.data.bytes.length := by
  have hdata := a.data.bytes_length_le
  rw [a.bytes_eq, List.getElem?_append_right (by simp)]
  simp only [beBytes_length, List.getElem?_cons_succ, List.getElem?_cons_zero, Option.map_some, BitVec.toNat_ofNat]
  exact congrArg some (Nat.mod_eq_of_lt (by omega))

theorem PAnswer.bytes_data (a : PAnswer) : (a.bytes.drop 6).take a.data.bytes.length = a.data.bytes := by
  rw [a.bytes_eq, List.drop_append, List.drop_of_length_le (by simp), beBytes_length]
  simp

theorem PAnswer.sent_length (a : PAnswer) (n : Nat) : (a.sent n).length = n := by simp [PAnswer.sent]

/-- A frame carries out the buffer from byte 0, as far as it goes. -/
theorem PAnswer.sent_take (a : PAnswer) (n : Nat) : (a.sent n).take a.bytes.length = a.bytes.take n := by
  rw [PAnswer.sent, List.take_take, List.take_append_of_le_length (Nat.min_le_left ..), List.take_eq_take_min, Nat.min_right_comm,
    Nat.min_self, Nat.min_comm, ← List.take_eq_take_min]

/-- After the last check byte PDO sends bytes of 0. -/
theorem PAnswer.sent_drop (a : PAnswer) (n : Nat) : ∀ b ∈ (a.sent n).drop a.bytes.length, b = 0 := by
  intro b hb
  rw [PAnswer.sent, List.drop_take, List.drop_left] at hb
  exact List.eq_of_mem_replicate (List.mem_of_mem_take hb)

/-! ### The command table (R198) -/

theorem readCommand_isSome_iff (code : Byte) (args : List Byte) :
    (readCommand code args).isSome = true ↔ 1 ≤ code.toNat ∧ code.toNat ≤ 51 := by
  have hlen : commandTable.length = 51 := rfl
  unfold readCommand
  split
  · next hzero => simp [hzero]
  · next hcode =>
    rw [Option.isSome_map, isSome_getElem?, hlen]
    omega

theorem readCommand_nopStatus (args : List Byte) : readCommand 1 args = some (.nopStatus (args.length == 0)) := by
  have hread : readCommand 1 args = some (.nopStatus (sizeIn [0] args)) := rfl
  rw [hread, sizeIn, List.contains_cons, List.contains_nil, Bool.or_false]

theorem readCommand_unblock (x y z : Byte) :
    readCommand 51 [x, y, z] = some (.unblock true (65536 * x.toNat + 256 * y.toNat + z.toNat)) := by
  have hread : readCommand 51 [x, y, z] = some (.unblock true (256 * (256 * (256 * 0 + x.toNat) + y.toNat) + z.toNat)) := rfl
  rw [hread]
  congr 2
  omega

/-! ### Reading a frame (R196, R197) -/

section
variable {a : PAnswer} {f : RawFrame}

theorem readFrame_late (hlate : f.late = true) : readFrame a f = .fault .timeout := if_pos hlate

/-- R197: a frame on time whose command or answer check is not whole, or which begins a byte. -/
theorem readFrame_short (honTime : f.late = false) (hshort : f.oddBits ≠ 0 ∨ f.pdi.length < 4 ∨ f.pdi.length < a.bytes.length ∨
    ∃ c n rest, f.pdi = c :: n :: rest ∧ rest.length < n.toNat + 2) : readFrame a f = .fault .length := by
  rw [readFrame, honTime, if_neg (by decide)]
  split
  · next c n rest hpdi =>
    refine if_pos ?_
    obtain hodd | hfew | hanswer | ⟨c', n', rest', hpdi', hrest⟩ := hshort
    · exact .inl hodd
    · exact .inr (.inl (by omega))
    · exact .inr (.inr hanswer)
    · obtain ⟨rfl, rfl, rfl⟩ : c = c' ∧ n = n' ∧ rest = rest' := by simpa [hpdi] using hpdi'
      exact .inr (.inl (by rw [hpdi, List.length_cons, List.length_cons]; omega))
  · rfl

/-- A frame with a whole command and a whole answer is read by its check. -/
theorem readFrame_whole {c n : Byte} {args check more : List Byte} (hargs : args.length = n.toNat) (hcheck : check.length = 2)
    (hanswer : a.bytes.length ≤ (c :: n :: args ++ (check ++ more)).length) : readFrame a ⟨c :: n :: args ++ (check ++ more), 0, false⟩ =
      if check ≠ beBytes 2 (lineCheck (c :: n :: args)).toNat then .fault .check else .command c args := by
  have hwhole : ¬ ((0 : Nat) ≠ 0 ∨ (c :: n :: args ++ (check ++ more)).length < 4 + n.toNat ∨
      (c :: n :: args ++ (check ++ more)).length < a.bytes.length) := by
    simp only [List.length_append, List.length_cons, hargs, hcheck] at hanswer ⊢
    omega
  have htake : (args ++ (check ++ more)).take n.toNat = args := List.take_left' hargs
  have hdrop : ((args ++ (check ++ more)).drop n.toNat).take 2 = check := by rw [List.drop_left' hargs, List.take_left' hcheck]
  simp only [readFrame, Bool.false_eq_true, if_false, List.cons_append, htake, hdrop] at hwhole ⊢
  rw [if_neg hwhole]

/-- R198: the bytes that a command's sender clocks in are that command, whatever follows them. -/
theorem readFrame_command {c : Byte} {args more : List Byte} (hargs : args.length ≤ 250)
    (hanswer : a.bytes.length ≤ (commandBytes c args ++ more).length) :
    readFrame a ⟨commandBytes c args ++ more, 0, false⟩ = .command c args := by
  have hlen : args.length = (BitVec.ofNat 8 args.length).toNat := by
    rw [BitVec.toNat_ofNat, Nat.mod_eq_of_lt (by omega)]
  rw [commandBytes, List.append_assoc] at hanswer ⊢
  rw [readFrame_whole hlen (beBytes_length 2 _) hanswer, if_neg (not_not.2 rfl)]

end

/-! ### The row that a frame comes to (R197, R198) -/

section
variable {s : State}

/-- The count of the faults of one kind rises (R207). -/
def portFaultCounted (f : PortFault) (c : PortCounters) : PortCounters :=
  match f with
  | .check => { c with check := bump c.check }
  | .length => { c with length := bump c.length }
  | .timeout => { c with timeout := bump c.timeout }
  | .none => c

/-- A faulted frame executes nothing, is answered NONE with its fault, and is counted. -/
theorem faultedFrame_eq (hpower : s.sys.phase ≠ .off) (f : PortFault) :
    faultedFrame f s = faulted f { s with port := { s.port with cnt := portFaultCounted f s.port.cnt } } := by
  rw [faultedFrame, if_neg hpower, carryAnswer_eq]
  rfl

theorem exec_portFrameFault_faulted (hpower : s.sys.phase ≠ .off) {f : RawFrame} {x : PortFault} (hread : readFrame s.port.buf f = .fault x) :
    exec (.portFrameFault f) s = .next (faulted x { s with port := { s.port with cnt := portFaultCounted x s.port.cnt } }) := by
  have htaken : takeFault f s = faultedFrame x s := by simp only [takeFault, hread]
  exact congrArg Host.Outcome.next (htaken.trans (faultedFrame_eq hpower x))

theorem exec_portFrameFault_command {f : RawFrame} {c : Byte} {args : List Byte} (hread : readFrame s.port.buf f = .command c args) :
    exec (.portFrameFault f) s = .next s := by
  have htaken : takeFault f s = s := by simp only [takeFault, hread]
  exact congrArg Host.Outcome.next htaken

/-- The next step after a frame is its row. -/
theorem step_withFrame (f : RawFrame) (s : State) : step (s.withFrame f) = exec (frameInstr f s) s := rfl

theorem frameInstr_command {f : RawFrame} {c : Byte} {args : List Byte} (hread : readFrame s.port.buf f = .command c args) :
    frameInstr f s = (readCommand c args).getD (.portUnknownCommand c) := by simp only [frameInstr, hread]

theorem exec_portUnknownCommand (h : Taken s) {code : Byte} (hcode : code.toNat = 0 ∨ 51 < code.toNat) :
    exec (.portUnknownCommand code) s = .next (answered .unknownCommand .none s) := by
  have hunknown : ¬ knownCommand code = true := by
    rw [knownCommand, readCommand_isSome_iff]
    omega
  exact congrArg Host.Outcome.next ((if_neg hunknown).trans (frame_effect h none (.inl rfl) _ _ _ rfl))

end

/-- Settles O22: the answer buffer byte by byte, the command table, and a frame by what it is read as. -/
theorem faultyFrames : Obligations.FaultyFrames := by
  refine ⟨fun a n => ⟨a.data.bytes_length_le, a.bytes_length, a.bytes_dataLength, a.bytes_data, lineCheck_append_check a.head, a.sent_length n,
    a.sent_take n, a.sent_drop n⟩, readCommand_isSome_iff, fun args => ⟨readCommand_nopStatus args, readCommand_unblock⟩, fun s => ?_⟩
  refine ⟨fun hpower => ?_, fun c args more hargs hanswer => ?_, fun h code hcode => exec_portUnknownCommand h hcode⟩
  · refine ⟨congrArg Host.Outcome.next (faultedFrame_eq hpower .timeout),
      fun f hlate => exec_portFrameFault_faulted hpower (readFrame_late hlate),
      fun f honTime hshort => exec_portFrameFault_faulted hpower (readFrame_short honTime hshort), fun c n x y args more hargs hanswer hbad => ?_⟩
    exact exec_portFrameFault_faulted hpower ((readFrame_whole (check := [x, y]) hargs rfl hanswer).trans (if_pos hbad))
  · have hread := readFrame_command hargs hanswer
    refine ⟨exec_portFrameFault_command hread, fun i hi => ?_, fun hnone => ?_⟩
    · rw [step_withFrame, frameInstr_command hread, hi, Option.getD_some]
    · rw [step_withFrame, frameInstr_command hread, hnone, Option.getD_none]

end Sys2Proof.Machine
end

section
/-! CONFIGURE, and a role that comes into service (O21). -/

namespace Sys2Proof.Machine
open Sys2Proof

/-! ### CONFIGURE by its checks (R202, R204 to R206) -/

/-- R205: the fields are applied, and the staged values of the fields they name are gone. -/
def configApplied (c : Cfg) (s : State) : State :=
  { s with port := { s.port with cfg := s.port.cfg.update c, staged := s.port.staged.without c } }

/-- The fields are applied, and a role is in service. -/
def configServed (c : Cfg) (r : Role) (s : State) : State :=
  { s with port := { s.port with cfg := s.port.cfg.update c, staged := s.port.staged.without c, role := some r } }

/-- A state beside the answer that the frame carried out of the buffer of `s` (R125, R196). -/
def carriedOut (s t : State) : State := { t with port := { t.port with sent := s.port.buf }, wgu := readEnded s.wgu }

/-- The state in which the unit of a role comes into service by a CONFIGURE. -/
def serviceBegun (c : Cfg) (r : Role) (s : State) : State := carriedOut s (configServed c r s)

section
variable {s : State} {c : Cfg}

theorem carryAnswer_eq_carriedOut {t : State} (hbuf : t.port.buf = s.port.buf) (hwgu : t.wgu = s.wgu) : carryAnswer t = carriedOut s t := by
  rw [carryAnswer_eq, hbuf, hwgu, carriedOut]

theorem configApplied_carryAnswer (c : Cfg) (s : State) : configApplied c (carryAnswer s) = carryAnswer (configApplied c s) := by
  rw [carryAnswer_eq, carryAnswer_eq]
  rfl

theorem configServed_carryAnswer (c : Cfg) (r : Role) (s : State) : configServed c r (carryAnswer s) = carryAnswer (configServed c r s) := by
  rw [carryAnswer_eq, carryAnswer_eq]
  rfl

theorem numberFixed_carryAnswer (s : State) (c : Cfg) : numberFixed (carryAnswer s) c = numberFixed s c := by
  simp only [numberFixed, State.self, carryAnswer_node]

theorem roleFixed_carryAnswer (s : State) (c : Cfg) : roleFixed (carryAnswer s) c = roleFixed s c := by
  simp only [roleFixed, carryAnswer_role]

/-- R205: with a role in service the fields are applied and nothing else. -/
theorem applyConfig_applied (hrole : s.port.role.isSome = true) : applyConfig c s = configApplied c s :=
  bringIntoService_unchanged (s := configApplied c s) (.inl hrole)

/-- R205: the first role applied comes into service. -/
theorem applyConfig_served {r : Role} (hnone : s.port.role = none) (hrole : (s.port.cfg.update c).role = some r) :
    applyConfig c s = roleRestore r (configServed c r s) := by
  have hrole' : (configApplied c s).port.cfg.role = some r := hrole
  have hnone' : (configApplied c s).port.role = none := hnone
  have hservice : bringIntoService (configApplied c s) = roleRestore r ((configApplied c s).onPort fun p => { p with role := some r }) := by
    simp only [bringIntoService, hnone', hrole']
  exact hservice

section
variable {items : List ConfigItem} (hread : readConfig items = some c) (hlock : s.port.lock = false)
include hread hlock

theorem configureOwner_numberFixed (hnumber : numberFixed s c = true) : configureOwner items s = refuse .numberFixed s := by
  simp [configureOwner, hread, hlock, hnumber]

variable (hnumber : numberFixed s c = false)
include hnumber

theorem configureOwner_roleFixed (hrole : roleFixed s c = true) : configureOwner items s = refuse .roleFixed s := by
  simp [configureOwner, hread, hlock, hnumber, hrole]

variable (hrole : roleFixed s c = false)
include hrole

theorem configureOwner_offline (hline : s.lif.state = .offline) : configureOwner items s = finish .done (applyConfig c s) := by
  simp [configureOwner, hread, hlock, hnumber, hrole, hline]

theorem configureOwner_staged (hline : s.lif.state ≠ .offline) :
    configureOwner items s = finish .staged (s.onPort fun p => { p with staged := p.staged.update c }) := by
  simp [configureOwner, hread, hlock, hnumber, hrole, hline]

end

section
variable {items : List ConfigItem} (h : Taken s) (hread : readConfig items = some c) (hlock : s.port.lock = false)
include h hread hlock

theorem exec_configure_numberFixed (hnumber : numberFixed s c = true) :
    exec (.configure true items) s = .next (answered .numberFixed .none s) :=
  congrArg Host.Outcome.next (frame_refused h (.inl rfl)
    (configureOwner_numberFixed hread (by rwa [carryAnswer_lock]) (by rwa [numberFixed_carryAnswer])))

variable (hnumber : numberFixed s c = false)
include hnumber

theorem exec_configure_roleFixed (hrole : roleFixed s c = true) :
    exec (.configure true items) s = .next (answered .roleFixed .none s) :=
  congrArg Host.Outcome.next (frame_refused h (.inl rfl)
    (configureOwner_roleFixed hread (by rwa [carryAnswer_lock]) (by rwa [numberFixed_carryAnswer]) (by rwa [roleFixed_carryAnswer])))

variable (hrole : roleFixed s c = false)
include hrole

theorem exec_configure_staged (hline : s.lif.state ≠ .offline) : exec (.configure true items) s =
    .next (answered .staged .none { s with port := { s.port with staged := s.port.staged.update c } }) := by
  refine congrArg Host.Outcome.next (frame_effect h none (.inl rfl) _ _ _ ?_)
  rw [configureOwner_staged hread (by rwa [carryAnswer_lock]) (by rwa [numberFixed_carryAnswer]) (by rwa [roleFixed_carryAnswer])
    (by rwa [carryAnswer_lif])]
  exact congrArg (·, (⟨.staged, .none⟩ : Reply)) (onPort_carryAnswer (f := fun p => { p with staged := p.staged.update c })
    (fun _ => rfl) (fun _ _ => rfl) s)

/-- While the LIF is OFFLINE the fields are applied, with what comes of that. -/
theorem exec_configure_offline {t : State} (hline : s.lif.state = .offline) (happly : applyConfig c (carryAnswer s) = carryAnswer t) :
    exec (.configure true items) s = .next (answered .done .none t) := by
  refine congrArg Host.Outcome.next (frame_effect h none (.inl rfl) _ _ _ ?_)
  rw [configureOwner_offline hread (by rwa [carryAnswer_lock]) (by rwa [numberFixed_carryAnswer]) (by rwa [roleFixed_carryAnswer])
    (by rwa [carryAnswer_lif]), happly]
  rfl

theorem exec_configure_applied (hline : s.lif.state = .offline) (hserved : s.port.role.isSome = true) :
    exec (.configure true items) s = .next (answered .done .none (configApplied c s)) :=
  exec_configure_offline h hread hlock hnumber hrole hline
    ((applyConfig_applied (by rwa [carryAnswer_role])).trans (configApplied_carryAnswer c s))

theorem exec_configure_served {r : Role} {t : State} (hline : s.lif.state = .offline) (hnone : s.port.role = none)
    (hr : (s.port.cfg.update c).role = some r) (hrestore : roleRestore r (carryAnswer (configServed c r s)) = carryAnswer t) :
    exec (.configure true items) s = .next (answered .done .none t) := by
  refine exec_configure_offline h hread hlock hnumber hrole hline ?_
  rw [applyConfig_served (by rwa [carryAnswer_role]) (by rwa [carryAnswer_cfg]), configServed_carryAnswer, hrestore]

/-- What the coming into service leaves, where it leaves the answer buffer and the Weighing Unit alone. -/
theorem exec_configure_restored {r : Role} {t : State} (hline : s.lif.state = .offline) (hnone : s.port.role = none)
    (hr : (s.port.cfg.update c).role = some r) (hbuf : t.port.buf = s.port.buf) (hwgu : t.wgu = s.wgu)
    (hrestore : roleRestore r (serviceBegun c r s) = carriedOut s t) :
    exec (.configure true items) s = .next (answered .done .none t) := by
  refine exec_configure_served h hread hlock hnumber hrole hline hnone hr ?_
  rw [carryAnswer_eq_carriedOut (s := s) (t := configServed c r s) rfl rfl, carryAnswer_eq_carriedOut hbuf hwgu]
  exact hrestore

end

end

/-! ### A SCALE comes into service (R137) -/

/-- A lot as it stands after start-up: NO RING is not kept, and an offered lot's timer starts afresh. -/
def lotRestored (l : Lot) : Lot := { l with noRing := false, offer := if l.state = .offered then some 0 else none }

/-- The lot that a record of the store holds, where it is a LOT record. -/
def lotBody : RecBody → Option Lot
  | .lot l => some l
  | _ => none

theorem lotBody_eq_some_iff {b : RecBody} {l : Lot} : lotBody b = some l ↔ b = .lot l := by
  cases b <;> simp [lotBody]

theorem restoredLots_eq_foldl (s : State) :
    restoredLots s = ((currentBodies s.store).filterMap lotBody).foldl (fun acc l => putLotIn (lotRestored l) acc) [] := by
  rw [List.foldl_filterMap, restoredLots]
  congr 1
  funext acc b
  cases b <;> rfl

theorem length_filterMap_lotBody (bs : List RecBody) :
    (bs.filterMap lotBody).length = (bs.filter fun b => b matches .lot _).length := by
  rw [List.length_filterMap_eq_countP, List.countP_eq_length_filter]
  congr 2
  funext b
  cases b <;> rfl

/-- While the table has room, it comes to hold a lot whose number no other lot has. -/
theorem find_foldl_putLotIn {l : Lot} {ls acc : List Lot} (honly : ∀ x ∈ ls, x.number = l.number → x = l)
    (hroom : acc.length + ls.length ≤ 16) (hheld : l ∈ ls ∨ acc.find? (fun x => x.number == l.number) = some (lotRestored l)) :
    (ls.foldl (fun acc x => putLotIn (lotRestored x) acc) acc).find? (fun x => x.number == l.number) = some (lotRestored l) := by
  induction ls generalizing acc with
  | nil => exact hheld.resolve_left List.not_mem_nil
  | cons x xs ih =>
    have hlen : (putLotIn (lotRestored x) acc).length ≤ acc.length + 1 := by
      have hgrow := insertKeyed_length_le (·.number) (lotRestored x) acc
      obtain ⟨-, heq⟩ | ⟨-, -, heq⟩ | ⟨-, -, heq⟩ := putKeyed_cases (·.number) 16 (lotRestored x) acc <;> rw [putLotIn, heq]
      · simp
      · exact hgrow
      · omega
    rw [List.length_cons] at hroom
    refine ih (acc := putLotIn (lotRestored x) acc) (fun y hy => honly y (List.mem_cons_of_mem x hy)) (by omega) ?_
    by_cases hnum : x.number = l.number
    · obtain rfl := honly x List.mem_cons_self hnum
      exact .inr (find_putKeyed_self (·.number) (a := lotRestored x) (.inr (by omega)))
    · refine hheld.imp (fun hmem => (List.mem_cons.1 hmem).resolve_left fun heq => hnum (heq ▸ rfl)) fun hfound => ?_
      exact (find_putKeyed_other (·.number) 16 (a := lotRestored x) acc (Ne.symm hnum)).trans hfound

theorem find_restoredLots {s : State} {l : Lot} (hmem : .lot l ∈ currentBodies s.store)
    (honly : ∀ x, .lot x ∈ currentBodies s.store → x.number = l.number → x = l)
    (hroom : ((currentBodies s.store).filter fun b => b matches .lot _).length ≤ 16) :
    (restoredLots s).find? (fun x => x.number == l.number) = some (lotRestored l) := by
  have hlot {x : Lot} : x ∈ (currentBodies s.store).filterMap lotBody ↔ .lot x ∈ currentBodies s.store := by
    simp [List.mem_filterMap, lotBody_eq_some_iff]
  rw [restoredLots_eq_foldl]
  refine find_foldl_putLotIn (fun x hx => honly x (hlot.1 hx)) ?_ (.inl (hlot.2 hmem))
  rw [length_filterMap_lotBody]
  simpa using hroom

theorem wguRestore_carryAnswer (s : State) :
    wguRestore (carryAnswer s) = carryAnswer (s.onWgu fun w => { w with lots := restoredLots s }) := by
  have hsame : restoredLots (carryAnswer s) = restoredLots s := by rw [restoredLots, carryAnswer_store]; rfl
  rw [wguRestore, hsame]
  exact onWgu_carryAnswer (g := fun w => { w with lots := restoredLots s }) (fun w => by unfold readEnded; split <;> rfl) s

/-! ### A CLOCK comes into service (R142, R164) -/

/-- The Clock Unit with its records restored, before it settles its sales. -/
def clockBack (es : List Sale) (cleaning : List Cleaning) (s : State) : State := s.onClu fun c => { c with
  queue := restoredQueue s, claims := [], cleaning := cleaning, sales := es, released := List.replicate 32 0 }

section
variable {s : State} {r : SaleRec} {p : SalePart}

/-- The updates of the QUEUE record are placed, and then the sales are settled. -/
theorem cluRestore_eq (s : State) : cluRestore s =
    let sold := soldLots (restoredQueue s) (restoredSales s)
    (restoredSales s).foldl (fun acc e => settleSale e.entry acc)
      (sold.foldl (fun acc id => placeQueueDrop (.queueClean id) id acc) (clockBack (restoredSales s) (sold.map fun id => { lot := id }) s)) :=
  rfl

/-! ### A sale with nothing to settle (R163, R164) -/

/-- R164: a part needs nothing where it is not PENDING or its entry was restored. -/
def partSettled (r : SaleRec) (p : SalePart) (s : State) : Prop :=
  partState r p ≠ .pending ∨ ∃ x ∈ s.exc.entries, x.ref = .salePart r.number p

theorem settlePart_settled (h : partSettled r p s) : settlePart r p s = s := by
  obtain h | ⟨x, hx, href⟩ := h
  · exact if_pos h
  · have hstands : (s.exc.entries.any fun e => e.ref == .salePart r.number p) = true := List.any_eq_true.2 ⟨x, hx, by simp [href]⟩
    rw [settlePart, if_pos hstands]
    exact ite_self s

theorem removeIfCollected_uncollected {n : Nat} (h : ∀ e ∈ s.clu.sales, e.entry.collected = false) : removeIfCollected n s = s := by
  cases hfind : findSale s n with
  | none => simp only [removeIfCollected, hfind]
  | some e => exact removeIfCollected_kept hfind (h e (List.mem_of_find?_eq_some hfind))

theorem settleSale_settled (h : ∀ p, partSettled r p s) : settleSale r s = removeIfCollected r.number s := by
  rw [settleSale, settlePart_settled (h .draw), settlePart_settled (h .sale), settlePart_settled (h .report)]

/-- Sales without a PENDING part that are not collected stay as they are. -/
theorem foldl_settleSale_quiet {es : List Sale} (hparts : ∀ e ∈ es, ∀ p, partState e.entry p ≠ .pending)
    (hkept : ∀ e ∈ s.clu.sales, e.entry.collected = false) : es.foldl (fun acc e => settleSale e.entry acc) s = s := by
  induction es with
  | nil => rfl
  | cons e es ih =>
    rw [List.foldl_cons, settleSale_settled fun p => .inl (hparts e List.mem_cons_self p), removeIfCollected_uncollected hkept]
    exact ih fun x hx => hparts x (List.mem_cons_of_mem e hx)

section
variable (hparts : ∀ e ∈ restoredSales s, ∀ p, partState e.entry p ≠ .pending) (hkept : ∀ e ∈ restoredSales s, e.entry.collected = false)
include hparts hkept

theorem cluRestore_quiet (hsold : soldLots (restoredQueue s) (restoredSales s) = []) : cluRestore s = clockBack (restoredSales s) [] s := by
  rw [cluRestore_eq, hsold]
  exact foldl_settleSale_quiet hparts hkept

/-- R56, R164: the one queued lot that was sold waits for its update. -/
theorem cluRestore_cleans {id : LotId} (hsold : soldLots (restoredQueue s) (restoredSales s) = [id]) (hlist : ListOpen s) :
    cluRestore s = listed ⟨.queueClean id, .group [.queue (.drop id)]⟩ (clockBack (restoredSales s) [{ lot := id }] s) := by
  have hplaced := listOpen_placeGroup (s := clockBack (restoredSales s) [{ lot := id }] s) hlist (o := .queueClean id) nofun
    [.queue (.drop id)]
  rw [cluRestore_eq, hsold, ← hplaced]
  exact foldl_settleSale_quiet (s := placeQueueDrop (.queueClean id) id (clockBack (restoredSales s) [{ lot := id }] s)) hparts
    (by rw [placeQueueDrop, hplaced]; exact hkept)

end

/-! ### The one restored sale (R161 to R164) -/

theorem cluRestore_oneSale (hsales : restoredSales s = [{ entry := r }]) (hsold : soldLots (restoredQueue s) (restoredSales s) = []) :
    cluRestore s = settleSale r (clockBack [{ entry := r }] [] s) := by
  rw [cluRestore_eq, hsold, hsales]
  rfl

theorem findSale_clockBack (e : Sale) (cleaning : List Cleaning) (s : State) : findSale (clockBack [e] cleaning s) e.entry.number = some e := by
  simp [findSale, clockBack]

theorem onSale_clockBack (e : Sale) (f : Sale → Sale) (cleaning : List Cleaning) (s : State) :
    onSale e.entry.number f (clockBack [e] cleaning s) = clockBack [f e] cleaning s := by
  simp [onSale, clockBack, State.onClu]

/-- A sale with a PENDING part is not removed. -/
theorem removeIfCollected_pending {e : Sale} {n : Nat} (hfind : findSale s n = some e) (hpending : partState e.entry p = .pending) :
    removeIfCollected n s = s := by
  have hstays : (e.entry.collected && e.entry.drawPart != .pending && e.entry.salePart != .pending && e.entry.reportPart != .pending &&
      !e.removing) = false := by
    cases p <;> simp_all [partState]
  simp only [removeIfCollected, hfind, hstays, Bool.false_eq_true, if_false]

/-- A sale of which one part is left to settle. -/
theorem settleSale_onePart {t : State} (hothers : ∀ x, x ≠ p → partSettled r x s) (hpart : settlePart r p s = t)
    (hentries : p = .report ∨ t.exc.entries = s.exc.entries) : settleSale r s = removeIfCollected r.number t := by
  have hstill (x : SalePart) (hne : x ≠ p) (hkept : t.exc.entries = s.exc.entries) : settlePart r x t = t :=
    settlePart_settled ((hothers x hne).imp_right fun ⟨y, hy, href⟩ => ⟨y, hkept ▸ hy, href⟩)
  have hsettled (x : SalePart) (hne : x ≠ p) : settlePart r x s = s := settlePart_settled (hothers x hne)
  rw [settleSale]
  cases p with
  | report => rw [hsettled .draw nofun, hsettled .sale nofun, hpart]
  | sale =>
    have hkept := hentries.resolve_left nofun
    rw [hsettled .draw nofun, hpart, hstill .report nofun hkept]
  | draw =>
    have hkept := hentries.resolve_left nofun
    rw [hpart, hstill .sale nofun hkept, hstill .report nofun hkept]

/-- A sale is counted unsettled (R164). -/
def unsettledCounted (s : State) : State := s.onClu fun c => { c with cnt := { c.cnt with unsettled := bump c.cnt.unsettled } }

section
variable (hpending : partState r p = .pending) (hgone : ¬ ∃ x ∈ s.exc.entries, x.ref = .salePart r.number p)
include hpending hgone

theorem settlePart_asked (hask : p = .report ∨ r.posted = false) : settlePart r p s = askSalePart r p s := by
  have hnone : ¬ (s.exc.entries.any fun e => e.ref == .salePart r.number p) = true := by simpa using hgone
  rw [settlePart, if_neg (not_not.2 hpending), if_neg hnone, if_pos hask]

theorem settlePart_lost (hreport : p ≠ .report) (hposted : r.posted = true) (hrun : s.sys.phase = .running) (hlist : ListOpen s) :
    settlePart r p s = saleTold r.number (.part p .failed) (partFailed r.number p (unsettledCounted s)) := by
  have hnone : ¬ (s.exc.entries.any fun e => e.ref == .salePart r.number p) = true := by simpa using hgone
  have hfailed : placeSaleUpdate r.number (.part p .failed none none) (unsettledCounted s) = partFailed r.number p (unsettledCounted s) :=
    placeSaleUpdate_listed (s := unsettledCounted s) hlist r.number _
  have hlost : settlePart r p s = saleEvent r.number (.part p .failed)
      (placeSaleUpdate r.number (.part p .failed none none) (unsettledCounted s)) := by
    rw [settlePart, if_neg (not_not.2 hpending), if_neg hnone, if_neg (by simp [hreport, hposted])]
    rfl
  rw [hlost, hfailed, saleEvent_running]
  exact hrun

end

theorem askSalePart_report {q : Nat} {qs : List Nat} (hplace : PlaceOpen q qs s) :
    askSalePart r .report s = entryMade q qs (soldItem r) s := by
  have hcreated (t : State) : salePartCreated r.number .report t = t := by
    unfold salePartCreated
    split <;> simp
  simp only [askSalePart, partItem, soldItem, takeCreate_report hplace, hcreated]

theorem askSalePart_posted {post : Posting} {dest : Nat}
    (hitem : (⟨.salePart r.number p, [partItem r p]⟩ : CreateReq) = onePost (.salePart r.number p) post dest) (hready : PostReady s)
    (hlist : ListOpen s) : askSalePart r p s = postAsked (.salePart r.number p) post dest s := by
  simp only [askSalePart, hitem, takeCreate_onePost hready hlist]

section
variable (hsales : restoredSales s = [{ entry := r }]) (hsold : soldLots (restoredQueue s) (restoredSales s) = [])
include hsales hsold

theorem cluRestore_settled (hparts : ∀ p, partSettled r p s) (hstays : (∃ p, partState r p = .pending) ∨ r.collected = false) :
    cluRestore s = clockBack [{ entry := r }] [] s := by
  have hfind := findSale_clockBack { entry := r } [] s
  rw [cluRestore_oneSale hsales hsold, settleSale_settled (s := clockBack _ _ s) hparts]
  obtain ⟨p, hpending⟩ | hkept := hstays
  · exact removeIfCollected_pending hfind hpending
  · exact removeIfCollected_kept hfind hkept

theorem cluRestore_collected (hparts : ∀ p, partState r p ≠ .pending) (hcollected : r.collected = true) (hlist : ListOpen s) :
    cluRestore s = listed ⟨.saleRemove r.number, .removal (.sale r.number)⟩ (clockBack [{ entry := r, removing := true }] [] s) := by
  have hmarked : onSale r.number (fun e => { e with removing := true }) (clockBack [{ entry := r }] [] s) =
      clockBack [{ entry := r, removing := true }] [] s := onSale_clockBack { entry := r } _ [] s
  rw [cluRestore_oneSale hsales hsold, settleSale_settled (s := clockBack _ _ s) fun p => .inl (hparts p), removeIfCollected_placed
    (s := clockBack _ _ s) (findSale_clockBack { entry := r } [] s) hcollected (hparts .draw) (hparts .sale) (hparts .report) rfl hlist, hmarked]

section
variable (hpending : partState r p = .pending) (hothers : ∀ x, x ≠ p → partSettled r x s)
include hpending hothers

/-- The one part of a sale that is left to settle decides what the clock comes back to: the sale is not removed. -/
theorem cluRestore_onePart {t : State} {e : Sale} (hpart : settlePart r p (clockBack [{ entry := r }] [] s) = t)
    (hentries : p = .report ∨ t.exc.entries = s.exc.entries) (hfind : findSale t r.number = some e) (hentry : e.entry = r) :
    cluRestore s = t := by
  rw [cluRestore_oneSale hsales hsold, settleSale_onePart (s := clockBack _ _ s) hothers hpart hentries]
  exact removeIfCollected_pending hfind (hentry ▸ hpending)

variable (hgone : ¬ ∃ x ∈ s.exc.entries, x.ref = .salePart r.number p)
include hgone

theorem cluRestore_lost (hreport : p ≠ .report) (hposted : r.posted = true) (hrun : s.sys.phase = .running) (hlist : ListOpen s) :
    cluRestore s = saleTold r.number (.part p .failed) (saleUpdateListed r.number (.part p .failed none none)
      (unsettledCounted (clockBack [noteUpdate (.part p .failed none none) { entry := r }] [] s))) := by
  have hnoted := onSale_clockBack { entry := r } (noteUpdate (.part p .failed none none)) [] s
  have hmarked : onSale r.number (noteUpdate (.part p .failed none none)) (unsettledCounted (clockBack [{ entry := r }] [] s)) =
      unsettledCounted (clockBack [noteUpdate (.part p .failed none none) { entry := r }] [] s) := by
    rw [← hnoted]
    rfl
  have hpart := settlePart_lost (s := clockBack [{ entry := r }] [] s) hpending hgone hreport hposted hrun hlist
  rw [partFailed, hmarked] at hpart
  refine cluRestore_onePart hsales hsold hpending hothers hpart (.inr rfl) (e := noteUpdate (.part p .failed none none) { entry := r }) ?_
    (noteUpdate_entry ..)
  exact findSale_clockBack (noteUpdate _ { entry := r }) [] s

theorem cluRestore_report {q : Nat} {qs : List Nat} (hreport : p = .report) (hplace : PlaceOpen q qs s) :
    cluRestore s = entryMade q qs (soldItem r) (clockBack [{ entry := r }] [] s) := by
  refine cluRestore_onePart hsales hsold hpending hothers ?_ (.inl hreport) (findSale_clockBack { entry := r } [] s) rfl
  rw [settlePart_asked (s := clockBack _ _ s) hpending hgone (.inl hreport), hreport, askSalePart_report (s := clockBack _ _ s) hplace]

theorem cluRestore_posted {post : Posting} {dest : Nat}
    (hitem : (⟨.salePart r.number p, [partItem r p]⟩ : CreateReq) = onePost (.salePart r.number p) post dest)
    (hposted : r.posted = false) (hready : PostReady s) (hlist : ListOpen s) :
    cluRestore s = postAsked (.salePart r.number p) post dest (clockBack [{ entry := r }] [] s) := by
  refine cluRestore_onePart hsales hsold hpending hothers ?_ (.inr rfl) (findSale_clockBack { entry := r } [] s) rfl
  rw [settlePart_asked (s := clockBack _ _ s) hpending hgone (.inr hposted), askSalePart_posted (s := clockBack _ _ s) hitem hready hlist]

end

end

end

/-! ### An ICE comes into service (R179) -/

/-- The order of the ICE ORDER record as it is shown: counted to its checkpoint, and to be settled there. -/
def orderRestored (o : OrderRec) : OrderRec := { o with
  metered := true, pulses := o.checkpoint, augerOn := false, settle := some (iceSettleAmount (o.checkpoint * o.gpp) o.tariff) }

/-- The Ice Meter with a restored order in hand. -/
def iceBack (o : OrderRec) (s : State) : State := s.onIcm fun m => { m with
  edgeMs := 0, state := .settling, restoring := true, closed := true, order := some (orderRestored o), ckPlaced := o.checkpoint }

section
variable {s : State} {o : OrderRec} {k : Ident}

theorem icmRestore_none (hnone : restoredOrder s = none) : icmRestore s = s.onIcm fun m => { m with edgeMs := 0 } := by
  have hnone' : restoredOrder (s.onIcm fun m => { m with edgeMs := 0 }) = none := hnone
  simp only [icmRestore, hnone']

section
variable (horder : restoredOrder s = some o) (hkey : o.key = some k)
include horder hkey

theorem icmRestore_order : icmRestore s =
    if s.exc.entries.any fun e => e.ref == .settle k then settleCreated k (iceBack o s) else askSettle (iceBack o s) := by
  obtain ⟨_, _, _, _, _, _, key⟩ := o
  obtain rfl : key = some k := hkey
  have horder' : restoredOrder (s.onIcm fun m => { m with edgeMs := 0 }) = _ := horder
  simp only [icmRestore, horder']
  rfl

variable (hlist : ListOpen s)
include hlist

/-- The SETTLE stands already: the record is dropped. -/
theorem icmRestore_settled (hstands : ∃ e ∈ s.exc.entries, e.ref = .settle k) : icmRestore s =
    (listed ⟨.iceRemove, .removal .iceOrder⟩ (iceBack o s)).onIcm fun m =>
      { idleIcm m with cnt := { m.cnt with restored := bump m.cnt.restored } } := by
  have hany : (s.exc.entries.any fun e => e.ref == .settle k) = true := by simpa using hstands
  have hinHand : (iceBack o s).icm.order.bind (·.key) = some k := hkey
  rw [icmRestore_order horder hkey, if_pos hany, settleCreated, if_pos hinHand]
  exact (if_pos rfl).trans (congrArg (State.onIcm _) (placeIceRemoval_listed (s := iceBack o s) hlist))

theorem icmRestore_asked {h : Nat} (hhome : o.home = some h) (hready : PostReady s) (hnone : ∀ e ∈ s.exc.entries, e.ref ≠ .settle k) :
    icmRestore s = postAsked (.settle k)
      (settlePosting o (iceSettleAmount (o.checkpoint * o.gpp) o.tariff) k) h (iceBack o s) := by
  have hany : ¬ (s.exc.entries.any fun e => e.ref == .settle k) = true := by simpa using hnone
  rw [icmRestore_order horder hkey, if_neg hany]
  exact askSettle_asked (s := iceBack o s) (o := orderRestored o) rfl hkey rfl hhome hready hlist

end

end

/-- Settles O21: the two refusals, the fields staged or applied, and each role as it comes into service. -/
theorem configureAppliesOrStages : Obligations.ConfigureAppliesOrStages := by
  intro s items c h hread hlock
  refine ⟨exec_configure_numberFixed h hread hlock, exec_configure_roleFixed h hread hlock, fun hnumber hfixed =>
    ⟨exec_configure_applied h hread hlock hnumber hfixed, fun hline hnone => ?_, exec_configure_staged h hread hlock hnumber hfixed⟩⟩
  have hrestored {r : Role} {t : State} (hr : (s.port.cfg.update c).role = some r) (hbuf : t.port.buf = s.port.buf) (hwgu : t.wgu = s.wgu)
      (hrestore : roleRestore r (serviceBegun c r s) = carriedOut s t) :
      exec (.configure true items) s = .next (answered .done .none t) :=
    exec_configure_restored h hread hlock hnumber hfixed hline hnone hr hbuf hwgu hrestore
  refine ⟨fun hr => hrestored hr rfl rfl rfl, fun hr => ⟨restoredLots s, ?_, fun l => find_restoredLots⟩, fun hr hquiet => ?_,
    fun r hr hsales hsold => ⟨fun hparts hstays => ?_, fun hparts hcollected hlist => ?_, fun p hpending hgone hothers => ?_⟩,
    fun hr => ⟨fun hempty => ?_, fun o k home horder hkey hhome hlist => ⟨fun hstands => ?_, fun hnew hready => ?_⟩⟩⟩
  · exact exec_configure_served h hread hlock hnumber hfixed hline hnone hr (wguRestore_carryAnswer _)
  · have hparts : ∀ e ∈ restoredSales s, ∀ p, partState e.entry p ≠ .pending := fun e he p => by
      obtain ⟨hdraw, hsale, hreport, -⟩ := hquiet e he
      cases p <;> assumption
    have hkept : ∀ e ∈ restoredSales s, e.entry.collected = false := fun e he => by
      obtain ⟨-, -, -, hkept⟩ := hquiet e he
      exact hkept
    exact ⟨fun hsold => hrestored hr rfl rfl (cluRestore_quiet (s := serviceBegun c .clock s) hparts hkept hsold),
      fun id hsold hlist => hrestored hr rfl rfl (cluRestore_cleans (s := serviceBegun c .clock s) hparts hkept hsold hlist)⟩
  · exact hrestored hr rfl rfl (cluRestore_settled (s := serviceBegun c .clock s) hsales hsold hparts hstays)
  · exact hrestored hr rfl rfl (cluRestore_collected (s := serviceBegun c .clock s) hsales hsold hparts hcollected hlist)
  · refine ⟨fun q qs hreport hplace => ?_, fun hposted hready hlist => ⟨fun hdraw => ?_, fun hsale => ?_⟩, fun hposted hreport hlist => ?_⟩
    · exact hrestored hr rfl rfl
        (cluRestore_report (s := serviceBegun c .clock s) hsales hsold hpending hothers hgone hreport hplace)
    · subst hdraw
      exact hrestored hr rfl rfl
        (cluRestore_posted (s := serviceBegun c .clock s) hsales hsold hpending hothers hgone rfl hposted hready hlist)
    · subst hsale
      exact hrestored hr rfl rfl
        (cluRestore_posted (s := serviceBegun c .clock s) hsales hsold hpending hothers hgone rfl hposted hready hlist)
    · exact hrestored hr rfl rfl
        (cluRestore_lost (s := serviceBegun c .clock s) hsales hsold hpending hothers hgone hreport hposted h.1 hlist)
  · exact hrestored hr rfl rfl (icmRestore_none (s := serviceBegun c .ice s) hempty)
  · exact hrestored hr rfl rfl (icmRestore_settled (s := serviceBegun c .ice s) horder hkey hlist hstands)
  · exact hrestored hr rfl rfl (icmRestore_asked (s := serviceBegun c .ice s) horder hkey hlist hhome hready hnew)

end Sys2Proof.Machine
end
